-- ==== Sys2Proof/Word.lean ====
section
/-! DEFINITION. The word types of the module: a tagged word (00 R8, 03 R93) and the sizes that every
other file uses. -/

namespace Sys2Proof

/-- 32 data bits (00 R8). -/
abbrev Word := BitVec 32

/-- One byte. -/
abbrev Byte := BitVec 8

/-- The 4-bit tag of a word (03 R93). -/
abbrev Tag := BitVec 4

/-- A logical cell: cluster in [7:4], logical cell in [3:0] (the cell number of 02 R79). -/
abbrev CellId := BitVec 8

/-- A strand slot of a cell, 0 to 7 (01 R22). -/
abbrev SlotId := BitVec 3

/-- A general register g0 to g31 (03 R110). -/
abbrev Reg := BitVec 5

/-- A tagged word: 32 data bits plus a 4-bit tag (00 R8). -/
structure TWord where
  tag : Tag
  data : Word
  deriving DecidableEq, Repr

/-- The tag codes of 03 R93. -/
def Tag.int : Tag := 0
def Tag.bool : Tag := 1
def Tag.f32 : Tag := 2
def Tag.f64h : Tag := 3
def Tag.f64l : Tag := 4
def Tag.ptr : Tag := 5
def Tag.ctx : Tag := 6
def Tag.code : Tag := 7
def Tag.empty : Tag := 8
def Tag.defer : Tag := 9
def Tag.poison : Tag := 10
def Tag.sys : Tag := 11
def Tag.user0 : Tag := 12
def Tag.user1 : Tag := 13
def Tag.user2 : Tag := 14

/-- A word tagged INT. -/
def TWord.int (w : Word) : TWord := ⟨Tag.int, w⟩

/-- A word tagged BOOL: data 0 or 1 only (03 R93). -/
def TWord.bool (b : Bool) : TWord := ⟨Tag.bool, if b then 1 else 0⟩

/-- The word every unwritten place holds: EMPTY with data 0 (01 R27 step 4, 03 R107). -/
def TWord.empty : TWord := ⟨Tag.empty, 0⟩

/-- INT zero, what g0 and every fresh register read as (03 R102, R104). -/
def TWord.zero : TWord := ⟨Tag.int, 0⟩

end Sys2Proof
end

