-- ==== Sys2Proof/Syntax.lean ====
section
/-! DEFINITION. The commands of the block: one constructor of `Instr` for each row of
spec/opcode_table.json, with the operands its rule names. A command is one whole indivisible step
(95_what_each_step_holds.md). Operand types come first. -/

namespace Sys2Proof

/-- A token (02 R36): 128 bits, here by field; CHECK travels with it and may be wrong (02 R39). -/
structure Token where
  ctx : Word
  stmt : BitVec 16
  iter : BitVec 12
  port : BitVec 2
  flags : BitVec 6
  sid : BitVec 16
  check : Byte
  val : TWord
  deriving DecidableEq, Repr

/-- Who holds the retained copy of a token (02 R86): a cell's output queue or a block's send buffer. -/
inductive Who where
  | cell (c : CellId)
  | remote (module : BitVec 12) (c : CellId)
  | channel (port : BitVec 3)
  | engine (cls : BitVec 3) (e : BitVec 4)
  | home (h : BitVec 4)
  | threshold (cluster : BitVec 4)
  | collector
  | benus
  deriving DecidableEq, Repr

/-- One retained copy: its holder and its number in that holder's buffer. -/
structure Sender where
  who : Who
  id : Nat
  deriving DecidableEq, Repr

/-- How a token reaches TK: sent to this cell, sent to it by another module as a completion report (02 R72, R74),
forwarded by the old cell of a migrating frame (07 R301 step 3) with whether it is a completion report, or sent by
that cell as an already counted one (07 R301 step 4, R303). -/
inductive Arrival where
  | direct
  | report
  | forwarded (report : Bool)
  | transferred
  deriving DecidableEq, Repr

/-- What the checks of 13 R533 saw during a step. `left`: a check failed after a commit-first
operation had left the cell (13 R538). `shared`: the check names a unit that the other slots named used since their
last commit points (13 R539). -/
inductive Detect where
  | ok
  | corrected
  | datapath
  | left
  | correctedEntry
  | microword (address : BitVec 13)
  | dispatch (index : BitVec 10)
  | sequencing
  | shared (slots : List SlotId)
  deriving DecidableEq, Repr

/-- What the error code of a stored entry gave (02 R60, 13 R545). -/
inductive Ecc where
  | ok
  | corrected
  | payload
  | key
  deriving DecidableEq, Repr

/-- The issue of one instruction: the strand, the tag its main word was fetched with (03 R108) and
what the checks saw. -/
structure Iss where
  cell : CellId
  slot : SlotId
  fetchTag : Tag
  check : Detect
  deriving DecidableEq, Repr

/-- A word of major 0x3E or 0x3F before the main word (03 R109, R113): its whole 25-bit payload. -/
inductive Pfx where
  | imm (payload : BitVec 25)
  | tag (payload : BitVec 25)
  deriving DecidableEq, Repr

/-- The main word of a long instruction in layout LR, LI or LS (03 R109), with every bit that the
layout has; `rsv` is bits [6:5] of LR. -/
inductive Body where
  | lr (d a : Reg) (u : Bool) (rm : BitVec 3) (rsv : BitVec 2) (b : Reg)
  | li (d a : Reg) (imm : BitVec 11)
  deriving DecidableEq, Repr

/-- A long instruction with the words before its main word. -/
structure LongOp where
  pre : List Pfx
  body : Body
  deriving DecidableEq, Repr

/-- A long instruction of layout LS (03 R109). -/
structure LsOp where
  pre : List Pfx
  v : Reg
  c : Reg
  port : BitVec 2
  itm : BitVec 2
  stmt : BitVec 11
  deriving DecidableEq, Repr

/-- A paired word seen from one of its halves (03 R111): this half's D and S, whether it stands in
[30:16], the other half's 15 bits and bit 15 of the word. -/
structure PairOp where
  d : Reg
  s : Reg
  upper : Bool
  other : BitVec 15
  bit15 : Bool
  deriving DecidableEq, Repr

/-- The two formats of an operation that has both a long and a short encoding (03 R109, R118). -/
inductive Form where
  | long (x : LongOp)
  | short (p : PairOp)
  deriving DecidableEq, Repr

/-- Coherence agent: 16 × POS + cluster (10 R417). -/
abbrev Agent := BitVec 6

/-- The operation a HOP carries to a home (10 R422): I-structure operations, accesses to pages
without C, CMAINT.CLEAN and FLUSH. `word` is the machine word's index. An IFETCH carries the awaited address in
the reader's space and its response token, complete but for its value (02 R82); `part` is the partition that owns
the accessing space. -/
inductive HomeOp where
  | ifetch (cell : CellId) (req : Nat) (part : BitVec 6) (va : Word) (resp : Token)
  | ldp (cell : CellId) (req : Nat)
  | istore (cell : CellId) (slot : SlotId) (part : BitVec 6) (v : TWord)
  | iclear (cell : CellId) (slot : SlotId)
  | load (cell : CellId) (slot : SlotId) (reg : Reg)
  | store (cell : CellId) (entry : Nat) (part : BitVec 6) (mask : BitVec 4) (v : TWord)
  | loadr (cell : CellId) (slot : SlotId) (reg : Reg)
  | storec (cell : CellId) (slot : SlotId) (v : TWord)
  | clean (cell : CellId) (entry : Nat)
  | flush (cell : CellId) (entry : Nat)
  | zero (cell : CellId) (entry : Nat)
  deriving DecidableEq, Repr

/-- What a holder answers to a probe (10 R422). -/
inductive ProbeAnswer where
  | dirty (data : List TWord)
  | clean
  | notHeld
  | wbInFlight
  deriving DecidableEq, Repr

/-- A Coaskair frame (11 R480): its header fields, its payload and whether its trailer is right. -/
structure CFrame where
  ver : BitVec 4
  first : Bool
  last : Bool
  retx : Bool
  cmp : Bool
  enc : Bool
  prio : BitVec 3
  lch : BitVec 16
  tn : BitVec 64
  fseq : Word
  ackseq : Word
  offset : Word
  flow : BitVec 12
  session : BitVec 16
  code : Byte
  payload : List Byte
  crcOk : Bool
  deriving DecidableEq, Repr

/-- A continuation as an allocation carries it to a peer module (03 R140). -/
structure Cont where
  ctx : Word
  stmt : BitVec 16
  iter : BitVec 12
  port : BitVec 2
  sid : BitVec 16
  deriving DecidableEq, Repr

/-- A module's summary for a spanning partition: free frames, mean ready list, waiting items (07 R291). -/
structure Summary where
  module : BitVec 12
  free : Word
  ready : Word
  waiting : Word
  deriving DecidableEq, Repr

/-- SPAN_SUMMARY (07 R291): the partition, and the summary of another module where one arrives. -/
structure SpanMsg where
  part : BitVec 6
  arrives : Option Summary
  deriving DecidableEq, Repr

/-- What a start finds of physical cells, as cluster and cell: failed ones that pass its self-test (13 R543), and those
whose control store differs twice in its read-back (06 R271). -/
structure SelfTest where
  passed : List (BitVec 4 × BitVec 5)
  differ : List (BitVec 4 × BitVec 5)
  deriving DecidableEq, Repr

/-- Whose heartbeat or death it is (10 R417, R432): an agent's, or that of the module named, whose agents stand at the
agent's position. -/
structure Heart where
  agent : Agent
  module : Option (BitVec 12)
  deriving DecidableEq, Repr

/-- MIRROR_COPY_ACK (11 R477): the transaction that a partner acknowledges, or a copy that a partner sends. -/
structure MirrorMsg where
  tn : BitVec 64
  copy : Option (List Word)
  deriving DecidableEq, Repr

/-- The hint of a peer's ALLOC, with the continuation that an ALLOC.K gives (07 R292, 03 R140). -/
structure PeerHint where
  word : Word
  cont : Option Cont
  deriving DecidableEq, Repr

/-- The identity message of a fabric port (15 R630). -/
structure Ident where
  system : Word
  numbered : Bool
  module : BitVec 12
  port : BitVec 3
  role : BitVec 2
  gepoch : Word
  sepoch : Word
  holder : Option (BitVec 12)
  deriving DecidableEq, Repr

/-- Mailbox transports (14 R603 `mbx.assign`). -/
inductive Transport where
  | svc
  | pcie (n : BitVec 1)
  | mgt (session : BitVec 3)
  | mbx
  | fabric
  deriving DecidableEq, Repr

/-- Who writes a register: a strand through a side-effect page, the debug transport, Benus over the management bus
(01 R25, 15 R652), or the host of a PCIe port through its BAR0 (14 R589, R597). -/
inductive Writer where
  | strand (c : CellId)
  | debug
  | benus
  | pcie (n : BitVec 1)
  deriving DecidableEq, Repr

/-- A debug request (15 R656): 24 bytes by field, and the transport it came over. -/
structure DbgReq where
  tap : Bool
  flags : Byte
  tag : BitVec 16
  sid : BitVec 16
  cell : CellId
  slot : SlotId
  targetLow : BitVec 5
  addr : BitVec 64
  data : Word
  dtag : Tag
  unit : Byte
  deriving DecidableEq, Repr

/-- A decision of a Hart (15 R634). -/
inductive Decision where
  | placement (part : BitVec 6) (weights : List (BitVec 8))
  | role (module : BitVec 12) (role : BitVec 2)
  | pair (partner : Option (BitVec 12))
  | dead (module : BitVec 12)
  | time (offset : BitVec 64)
  deriving DecidableEq, Repr

/-- One sensor reading (14 R612). -/
structure Reading where
  id : BitVec 16
  failed : Bool
  value : BitVec 32
  deriving DecidableEq, Repr

/-- A log record (14 R615, R616). -/
structure LogRec where
  lseq : BitVec 64
  typ : Byte
  time : BitVec 64
  cal : Word
  modn : BitVec 12
  part : Byte
  body : List Byte
  deriving DecidableEq, Repr

/-- State that the copy of a failed cell finds uncorrectable (13 R545): a strand's shadow, sealed store or
sealed item; a frame-header cache entry; a queued token, a ready activity or a matching-store entry, by its place,
with whether its key is lost too; a retained copy of the output queue. -/
inductive CopyLoss where
  | strand (slot : SlotId)
  | header (frame : BitVec 20)
  | queued (index : Nat) (key : Bool)
  | ready (index : Nat) (key : Bool)
  | stored (set : BitVec 13) (way : Nat) (key : Bool)
  | retained (id : Nat)
  deriving DecidableEq, Repr

/-- The commands: one constructor for each row of spec/opcode_table.json, in the table's order. -/
inductive Instr where
  -- tokens, matching, deadlock handling (02), front end (05)
  | moduleStart (selfTest : SelfTest) (upstream : Option (BitVec 64))
  | tokenAccept (cell : CellId) (t : Token) (snd : Sender) (srcCluster : BitVec 4) (how : Arrival)
  | queueRefill (cell : CellId) (ecc : Ecc)
  | matchTok (cell : CellId) (ecc : Ecc)
  | sideBufferRelease (cell : CellId) (ecc : Ecc)
  | refill (cell : CellId) (ecc : Ecc)
  | returnedTokenReceive (snd : Sender)
  | tokenResend (snd : Sender)
  | heldReleaseRetry (cell : CellId) (frame : BitVec 20)
  | retransmissionRequest (snd : Sender)
  | ackReceive (snd : Sender)
  | stallDetect (cell : CellId) (frame : BitVec 20)
  | stallScanDone (cell : CellId) (frame : BitVec 20)
  | ringRecheck (writer : Who) (part : BitVec 6)
  | windowAdaptSample (cell : CellId)
  | ifetchReissue (cell : CellId) (req : Nat)
  | frameHeaderFill (cell : CellId) (frame : BitVec 20)
  | slotAssign (cell : CellId) (check : Detect)
  | firingCommit (cell : CellId) (slot : SlotId) (check : Detect)
  | loadDataReturn (cell : CellId) (slot : SlotId) (reg : Reg) (ecc : Ecc)
  | iterativeComplete (cell : CellId) (slot : SlotId)
  | timeSliceExpiry (cell : CellId) (slot : SlotId) (check : Detect)
  | controlStoreScrub (cluster : BitVec 4) (phys : BitVec 5) (address : BitVec 13) (bad : Bool)
  | storeDrain (cell : CellId)
  | storeAck (cell : CellId) (entry : Nat)
  | sideEffectStoreAck (cell : CellId) (entry : Nat)
  | storeLost (cell : CellId) (entry : Nat)
  | cellDrainComplete (cluster : BitVec 4) (phys : BitVec 5)
  | drainTimeout (cluster : BitVec 4) (phys : BitVec 5)
  -- placement, migration, pages, work, flows (07)
  | placementSample
  | spanSummary (m : SpanMsg)
  | placementDirective (part : BitVec 6) (epoch : Word) (weights : List (BitVec 12 × BitVec 8))
  | directiveAbsent
  | migrationWindowEnd (cell : CellId)
  | header (frame : BitVec 20)
  | migrationScanDone (frame : BitVec 20)
  | headerConfirm (frame : BitVec 20)
  | mapInvalidate (cluster : BitVec 4) (frame : BitVec 20)
  | mapMark (cluster : BitVec 4) (frame : BitVec 20)
  | endFwd (frame : BitVec 20)
  | contextMapFill (cluster : BitVec 4) (frame : BitVec 20)
  | pageSampleWindow (home : BitVec 4)
  | pageMoveBlockCopy (move : BitVec 2) (uncorrectable : Option (BitVec 6))
  | pageMoveTlbAck (move : BitVec 2)
  | itemIntake (port : BitVec 4) (tn : BitVec 64)
  | workgetTimeout (cell : CellId) (slot : SlotId)
  | releaseStoreFree (cell : CellId) (slot : SlotId)
  | itemLimitExpiry (flow : BitVec 12)
  -- translation (08)
  | walkTableRead (cell : CellId) (slot : SlotId) (ecc : Ecc)
  | tornReread (cell : CellId) (slot : SlotId)
  | stage2Answer (cell : CellId) (slot : SlotId) (maps : Bool)
  | stage2Timeout (cell : CellId) (slot : SlotId)
  | tlbInvalidateAck (cell : CellId) (slot : SlotId)
  -- caches (09)
  | sectorBeat (cluster : BitVec 4) (sector : Nat)
  | sectorInstall (cluster : BitVec 4) (sector : Nat)
  | porchWritebackSend (cluster : BitVec 4)
  | pantryCopyDone (cluster : BitVec 4) (pair : BitVec 2)
  | pantryWritebackDone (cluster : BitVec 4) (pair : BitVec 2)
  -- coherence messages (10)
  | rdS (home : BitVec 4) (agent : Agent) (sector : Nat) (ecc : Ecc)
  | rdX (home : BitVec 4) (agent : Agent) (sector : Nat) (ecc : Ecc)
  | upg (home : BitVec 4) (agent : Agent) (sector : Nat)
  | zeroX (home : BitVec 4) (agent : Agent) (sector : Nat)
  | hop (home : BitVec 4) (agent : Agent) (word : Nat) (op : HomeOp)
  | wb (home : BitVec 4) (agent : Agent) (block : Nat) (sectors : List (BitVec 2 × List TWord))
  | prbS (agent : Agent) (sector : Nat)
  | prbI (agent : Agent) (sector : Nat)
  | prbF (agent : Agent) (sector : Nat) (target : Agent)
  | dataS (agent : Agent) (sector : Nat) (data : List TWord)
  | dataX (agent : Agent) (sector : Nat) (data : List TWord)
  | grantX (agent : Agent) (sector : Nat)
  | retry (agent : Agent) (sector : Nat)
  | requestReissue (agent : Agent) (sector : Nat)
  | prbRsp (home : BitVec 4) (agent : Agent) (sector : Nat) (answer : ProbeAnswer)
  | done (home : BitVec 4) (agent : Agent) (sector : Nat)
  | wbAck (agent : Agent) (block : Nat)
  | hopAck (agent : Agent) (word : Nat) (op : HomeOp) (result : TWord) (ok : Bool)
  | reservationHoldEnd (cell : CellId) (slot : SlotId)
  | coherenceHeartbeat (home : BitVec 4) (whose : Heart)
  | deadAgentDetect (home : BitVec 4) (whose : Heart)
  | deadAgentNotice (home : BitVec 4) (agent : Agent)
  -- instructions (03, 04)
  | ill (i : Iss) (w : Word)
  | add (i : Iss) (f : Form)
  | sub (i : Iss) (f : Form)
  | and (i : Iss) (f : Form)
  | or (i : Iss) (f : Form)
  | xor (i : Iss) (f : Form)
  | andn (i : Iss) (x : LongOp)
  | min (i : Iss) (f : Form)
  | max (i : Iss) (f : Form)
  | shl (i : Iss) (x : LongOp)
  | shr (i : Iss) (x : LongOp)
  | sar (i : Iss) (x : LongOp)
  | rol (i : Iss) (x : LongOp)
  | rot (i : Iss) (x : LongOp)
  | clz (i : Iss) (x : LongOp)
  | ctz (i : Iss) (x : LongOp)
  | popc (i : Iss) (x : LongOp)
  | mul (i : Iss) (x : LongOp)
  | mulh (i : Iss) (x : LongOp)
  | mulhu (i : Iss) (x : LongOp)
  | div (i : Iss) (x : LongOp)
  | divu (i : Iss) (x : LongOp)
  | rem (i : Iss) (x : LongOp)
  | remu (i : Iss) (x : LongOp)
  | eq (i : Iss) (f : Form)
  | ne (i : Iss) (x : LongOp)
  | lt (i : Iss) (f : Form)
  | le (i : Iss) (x : LongOp)
  | ltu (i : Iss) (f : Form)
  | leu (i : Iss) (x : LongOp)
  | li (i : Iss) (x : LongOp)
  | mov (i : Iss) (f : Form)
  | sel (i : Iss) (x : LongOp)
  | self (i : Iss) (f : Form)
  | iter (i : Iss) (f : Form)
  | tagof (i : Iss) (f : Form)
  | ttest (i : Iss) (x : LongOp)
  | retag (i : Iss) (x : LongOp)
  | faddS (i : Iss) (x : LongOp)
  | fsubS (i : Iss) (x : LongOp)
  | fmulS (i : Iss) (x : LongOp)
  | fmaS (i : Iss) (x : LongOp)
  | fdivS (i : Iss) (x : LongOp)
  | fsqrtS (i : Iss) (x : LongOp)
  | fminS (i : Iss) (x : LongOp)
  | fmaxS (i : Iss) (x : LongOp)
  | faddD (i : Iss) (x : LongOp)
  | fsubD (i : Iss) (x : LongOp)
  | fmulD (i : Iss) (x : LongOp)
  | fmaD (i : Iss) (x : LongOp)
  | fdivD (i : Iss) (x : LongOp)
  | fsqrtD (i : Iss) (x : LongOp)
  | fminD (i : Iss) (x : LongOp)
  | fmaxD (i : Iss) (x : LongOp)
  | feqS (i : Iss) (x : LongOp)
  | fltS (i : Iss) (x : LongOp)
  | fleS (i : Iss) (x : LongOp)
  | funS (i : Iss) (x : LongOp)
  | feqD (i : Iss) (x : LongOp)
  | fltD (i : Iss) (x : LongOp)
  | fleD (i : Iss) (x : LongOp)
  | funD (i : Iss) (x : LongOp)
  | cvtSI (i : Iss) (x : LongOp)
  | cvtIS (i : Iss) (x : LongOp)
  | cvtDI (i : Iss) (x : LongOp)
  | cvtID (i : Iss) (x : LongOp)
  | cvtSD (i : Iss) (x : LongOp)
  | cvtDS (i : Iss) (x : LongOp)
  | fclassS (i : Iss) (x : LongOp)
  | fclassD (i : Iss) (x : LongOp)
  | b (i : Iss) (x : LongOp)
  | bz (i : Iss) (x : LongOp)
  | bnz (i : Iss) (x : LongOp)
  | jr (i : Iss) (x : LongOp)
  | endStrand (i : Iss) (f : Form)
  | send (i : Iss) (x : LsOp)
  | sendE (i : Iss) (x : LsOp)
  | switch (i : Iss) (x : LsOp)
  | switchE (i : Iss) (x : LsOp)
  | sendx (i : Iss) (x : LsOp)
  | sendxE (i : Iss) (x : LsOp)
  | alloc (i : Iss) (x : LongOp)
  | allocK (i : Iss) (x : LongOp)
  | allocX (i : Iss) (x : LongOp)
  | allocXK (i : Iss) (x : LongOp)
  | free (i : Iss) (x : LongOp)
  | ld (i : Iss) (x : LongOp)
  | ldb (i : Iss) (x : LongOp)
  | ldbu (i : Iss) (x : LongOp)
  | ldh (i : Iss) (x : LongOp)
  | ldhu (i : Iss) (x : LongOp)
  | ldx (i : Iss) (x : LongOp)
  | lds (i : Iss) (f : Form)
  | st (i : Iss) (x : LongOp)
  | stb (i : Iss) (x : LongOp)
  | sth (i : Iss) (x : LongOp)
  | stx (i : Iss) (x : LongOp)
  | sts (i : Iss) (f : Form)
  | ldp (i : Iss) (x : LsOp)
  | ifetch (i : Iss) (x : LsOp)
  | istore (i : Iss) (x : LongOp)
  | iclear (i : Iss) (x : LongOp)
  | loadr (i : Iss) (x : LongOp)
  | storec (i : Iss) (x : LongOp)
  | fence (i : Iss) (x : LongOp)
  | fenceLL (i : Iss) (x : LongOp)
  | fenceLS (i : Iss) (x : LongOp)
  | fenceSL (i : Iss) (x : LongOp)
  | fenceSS (i : Iss) (x : LongOp)
  | ifence (i : Iss) (x : LongOp)
  | workget (i : Iss) (x : LongOp)
  | flcommit (i : Iss) (x : LongOp)
  | fldone (i : Iss) (x : LongOp)
  | winset (i : Iss) (x : LongOp)
  | iretire (i : Iss) (x : LongOp)
  | agree (i : Iss) (x : LongOp)
  | rdtime (i : Iss) (x : LongOp)
  | esubmit (i : Iss) (x : LongOp)
  | lcommit (i : Iss) (x : LongOp)
  | svc (i : Iss) (x : LongOp)
  | rdsr (i : Iss) (x : LongOp)
  | wrsr (i : Iss) (x : LongOp)
  | eret (i : Iss) (x : LongOp)
  | cstart (i : Iss) (x : LongOp)
  | mbxSend (i : Iss) (x : LongOp)
  | mbxPoll (i : Iss) (x : LongOp)
  | tlbiVa (i : Iss) (x : LongOp)
  | tlbiSid (i : Iss) (x : LongOp)
  | tlbiPart (i : Iss) (x : LongOp)
  | cmaintClean (i : Iss) (x : LongOp)
  | cmaintFlush (i : Iss) (x : LongOp)
  | cmaintZero (i : Iss) (x : LongOp)
  | cmaintPrefetch (i : Iss) (x : LongOp)
  | nop (i : Iss) (p : PairOp)
  | not (i : Iss) (p : PairOp)
  | neg (i : Iss) (p : PairOp)
  | addi (i : Iss) (p : PairOp)
  | li5 (i : Iss) (p : PairOp)
  | shli (i : Iss) (p : PairOp)
  | shri (i : Iss) (p : PairOp)
  | sari (i : Iss) (p : PairOp)
  | eqi (i : Iss) (p : PairOp)
  | zxb (i : Iss) (p : PairOp)
  | zxh (i : Iss) (p : PairOp)
  | andi (i : Iss) (p : PairOp)
  -- channel orders and link (11)
  | readOrder (port : BitVec 3) (sub : BitVec 8)
  | readStreamOrder (port : BitVec 3) (sub : BitVec 8)
  | writeOrder (port : BitVec 3) (sub : BitVec 8)
  | senseOrder (port : BitVec 3) (sub : BitVec 8)
  | controlOrder (port : BitVec 3) (sub : BitVec 8)
  | jumpOrder (port : BitVec 3) (sub : BitVec 8)
  | waitEventOrder (port : BitVec 3) (sub : BitVec 8) (signalled : Bool)
  | programEnd (port : BitVec 3) (sub : BitVec 8)
  | data (port : BitVec 4) (f : CFrame)
  | ack (port : BitVec 4) (f : CFrame)
  | e2eAck (port : BitVec 4) (f : CFrame)
  | req (port : BitVec 4) (f : CFrame)
  | query (port : BitVec 4) (f : CFrame)
  | answer (port : BitVec 4) (f : CFrame)
  | abort (port : BitVec 4) (f : CFrame)
  | credit (port : BitVec 4) (f : CFrame)
  | flowpause (port : BitVec 4) (f : CFrame)
  | hello (port : BitVec 4) (f : CFrame)
  | resolve (port : BitVec 4) (f : CFrame)
  | reservedTypeFrame (port : BitVec 4) (type : BitVec 4) (f : CFrame)
  | linkAckTimer (port : BitVec 4)
  | retransmissionTimeout (port : BitVec 4)
  | pcsLock (port : BitVec 4)
  | pcsLockLoss (port : BitVec 4)
  | helloResend (port : BitVec 4)
  | helloTimeout (port : BitVec 4)
  | creditRepeat (port : BitVec 4) (lch : BitVec 16)
  | flowpauseRepeat (port : BitVec 4) (flow : BitVec 12)
  | mirrorCopyAck (m : MirrorMsg)
  | cpMismatch (port : BitVec 3) (side : BitVec 1)
  | switchOverDone (port : BitVec 3)
  | cpSelfTestDone (port : BitVec 3) (pass : Bool)
  -- engines (12)
  | engineDispatch (cls : BitVec 3) (engine : BitVec 4)
  | engineComplete (cls : BitVec 3) (engine : BitVec 4)
  | compress (engine : BitVec 4)
  | decompress (engine : BitVec 4)
  | gcmEncrypt (engine : BitVec 4)
  | gcmDecrypt (engine : BitVec 4)
  | xtsEncrypt (engine : BitVec 4)
  | xtsDecrypt (engine : BitVec 4)
  | ctr (engine : BitVec 4)
  | sha256 (engine : BitVec 4)
  | sha384 (engine : BitVec 4)
  | sha3_256 (engine : BitVec 4)
  | hmacSha256 (engine : BitVec 4)
  | hmacSha384 (engine : BitVec 4)
  | signP256 (engine : BitVec 4)
  | signP384 (engine : BitVec 4)
  | verifyP256 (engine : BitVec 4)
  | verifyP384 (engine : BitVec 4)
  | random (engine : BitVec 4)
  | keygen (engine : BitVec 4)
  | keyimport (engine : BitVec 4)
  | keyexport (engine : BitVec 4)
  | keydestroy (engine : BitVec 4)
  | pubkey (engine : BitVec 4)
  | drbgReseed
  | entropyHealthFail
  | entropyRecovery
  -- reliability (13)
  | spareResume (cell : CellId) (bad : List CopyLoss)
  | twinDigest (cell : CellId) (slot : SlotId) (lead shadow : BitVec 64)
  | twinTimeout (cell : CellId) (slot : SlotId)
  | twinSelfTestDone (cell : CellId) (slot : SlotId) (leadPass shadowPass : Bool)
  | faultSample (rails : List (BitVec 11 × BitVec 2))
  | wireFault (source : BitVec 11)
  | wireFaultClear (source : BitVec 11)
  | faultWindowEnd (source : BitVec 11)
  | recordLogged (recno : Word)
  | stormIntervalEnd (source : BitVec 11)
  | aliveToggle
  | watchdogFeedBenus
  | watchdogFeedCollector
  | aliveFeedMissing (benus : Bool)
  -- Benus and mailboxes (14)
  | benusRestart (startFails : Bool)
  | benusLockstepMismatch
  | mbxDoorbell (m : BitVec 5) (t : Transport) (irqEn : Bool) (request : List Byte)
  | mbxCancel (m : BitVec 5) (t : Transport) (irqEn : Bool) (tag : Word)
  | mgtRequest (session : BitVec 3) (request : List Byte)
  | svcRequest (m : BitVec 5) (request : List Byte)
  | tlsSessionOpen (session : BitVec 3) (fingerprint : BitVec 384)
  | tlsIdleTimeout (session : BitVec 3)
  | commandStart (m : BitVec 5)
  | modIdentity (m : BitVec 5)
  | sensorRead (m : BitVec 5)
  | logRead (m : BitVec 5)
  | ledgerStatus (m : BitVec 5)
  | timeGet (m : BitVec 5)
  | memTelemetry (m : BitVec 5)
  | fwStatus (m : BitVec 5)
  | partCreate (m : BitVec 5)
  | partQuiesce (m : BitVec 5)
  | partDestroy (m : BitVec 5)
  | partCellarSet (m : BitVec 5)
  | partVectorSet (m : BitVec 5)
  | partEventSet (m : BitVec 5)
  | spaceBind (m : BitVec 5)
  | spaceUnbind (m : BitVec 5)
  | cacheWaysSet (m : BitVec 5)
  | pantrySet (m : BitVec 5)
  | pantryClear (m : BitVec 5)
  | placePinSet (m : BitVec 5)
  | workqSet (m : BitVec 5)
  | flowBind (m : BitVec 5)
  | twinResync (m : BitVec 5)
  | chanSubSet (m : BitVec 5)
  | chanPathSet (m : BitVec 5)
  | engineSliceSet (m : BitVec 5)
  | engineSliceQuiesce (m : BitVec 5)
  | engineSliceResume (m : BitVec 5)
  | engineSliceReset (m : BitVec 5)
  | ledgerNoticeSet (m : BitVec 5)
  | ledgerQuotaSet (m : BitVec 5)
  | cpSwap (m : BitVec 5)
  | faultReactSet (m : BitVec 5)
  | faultRecordClose (m : BitVec 5)
  | faultAliveRearm (m : BitVec 5)
  | timeSet (m : BitVec 5)
  | fwStage (m : BitVec 5)
  | fwCommit (m : BitVec 5)
  | fwConfirm (m : BitVec 5)
  | fwRevert (m : BitVec 5)
  | debugChallenge (m : BitVec 5)
  | debugUnlock (m : BitVec 5)
  | debugLock (m : BitVec 5)
  | mbxAssign (m : BitVec 5)
  | roleSet (m : BitVec 5)
  | ledgerPair (m : BitVec 5)
  | modConfigSet (m : BitVec 5)
  | modReset (m : BitVec 5)
  | modZeroize (m : BitVec 5)
  | bootKeySet (m : BitVec 5)
  | sensorSample (readings : List Reading)
  | logFlashWrite
  | logForward (arrives : Option LogRec)
  | calendarStore
  -- hierarchy, time (15)
  | fabricLinkTrained (port : BitVec 3) (corrected : Bool)
  | identSend (port : BitVec 3)
  | ident (port : BitVec 3) (m : Ident)
  | hartDecision (group : Bool) (epoch : Word) (d : Decision)
  | hartHeartbeat (acknowledged : Bool)
  | hartLeaseEnd
  | standbyTakeover
  | moduleDeadDeclare (module : BitVec 12)
  | linkDelayMeasure (port : BitVec 3) (offset : BitVec 64)
  | ptpMessage (masterSelected : Bool) (offset : BitVec 64) (utcOffset : BitVec 16)
  | ppsEdge (offset : BitVec 64)
  | holdoverEntry
  | ppsOutPulse
  | pmcWrap (cell : CellId) (n : BitVec 4)
  | pmcDump
  -- debug (15)
  | debugAuthExpiry
  | halt (q : DbgReq)
  | resume (q : DbgReq)
  | step (q : DbgReq)
  | breakpoint (q : DbgReq)
  | tbreak (q : DbgReq)
  | watch (q : DbgReq)
  | regrd (q : DbgReq)
  | regwr (q : DbgReq)
  | memrd (q : DbgReq)
  | memwr (q : DbgReq)
  | trace (q : DbgReq)
  | trcrd (q : DbgReq)
  | status (q : DbgReq)
  | extest (pins : List Bool)
  | idcode
  | samplePreload (pins : List Bool)
  | clamp
  | highz
  | dbgpkt (shifted : Option (BitVec 192))
  | bypass (tdi : Bool)
  -- platform (16)
  | evtInChange (input : BitVec 2) (asserted : Bool)
  | evtInAccept (input : BitVec 2)
  | evtCoalesceEnd (input : BitVec 2)
  | evtStuck (input : BitVec 2)
  | outputShort (output : BitVec 2)
  | outputShortRetry (output : BitVec 2)
  | outputOpen (output : BitVec 2)
  | feedLoss (feed : BitVec 1)
  | feedOvervoltage (feed : BitVec 1)
  | feedReturn (feed : BitVec 1)
  | bothFeedsLost (flushReaches : BitVec 3)
  | restartAfterFlush
  | railStart (rail : BitVec 3)
  | railSequencingFault (rail : BitVec 3)
  | sequenceRetry
  | railOutOfRange (rail : BitVec 3)
  | standbyRailLoss
  | overtemperatureProtect (cluster : BitVec 4)
  | noFlowProtect
  -- register accesses with behaviour of their own (00 R10–R16)
  | lockWrite (w : Writer) (address : BitVec 24) (value : Word)
  | w1cWrite (w : Writer) (address : BitVec 24) (value : Word)
  | reg64LoRead (w : Writer) (address : BitVec 24)
  | reg64HiWrite (w : Writer) (address : BitVec 24) (value : Word)
  | evecWrite (w : Writer) (address : BitVec 24) (value : Word)
  | lfsrWrite (w : Writer) (address : BitVec 24) (value : Word)
  | pmcFrozenRelease (w : Writer) (address : BitVec 24) (value : Word)
  | tstInjWrite (w : Writer) (value : Word)
  | tstLfsrForce (w : Writer) (cluster : BitVec 4) (value : Word)
  | tstLfsrStep (w : Writer) (cluster : BitVec 4) (value : Word)
  | registerWrite (w : Writer) (address : BitVec 24) (value : Word)
  -- rows that the table lists last
  | pauseFrame (port : BitVec 3) (priorities : BitVec 8) (on : Bool)
  | fabricLinkLoss (port : BitVec 3)
  | externalBackupChange (present : Bool)
  | droopControl (cluster : BitVec 4) (mhz : BitVec 16)
  | fittedModuleInsert (fabric : Bool) (cage : BitVec 3) (watts : BitVec 8)
  | peerPlacement (source : BitVec 12) (part : BitVec 6) (sid : BitVec 16) (code : Word) (hint : PeerHint)
  deriving DecidableEq, Repr

end Sys2Proof
end

