-- ==== Sys2Proof/Decode.lean ====
section
/-! DEFINITION. The commands that words spell. No row of spec/opcode_table.json gives bits (every row's `fields` is
empty), so no word of that table spells a command; the instruction words that strands execute are those of 03 R109 to
R118. -/

namespace Sys2Proof

/-- The command that a word of the table's bits spells: none, for no row gives bits (assumption 1). -/
def decodeTableWord (_nbits _w : Nat) : Option Instr := none

/-! ### Instruction words (03 R109 to R118) -/

/-- MAJOR, FN and the register fields of a long-format word (03 R109). -/
def wordMajor (w : Word) : BitVec 6 := (w >>> 25).setWidth 6
def wordFn (w : Word) : BitVec 3 := (w >>> 12).setWidth 3
def wordD (w : Word) : Reg := (w >>> 20).setWidth 5
def wordA (w : Word) : Reg := (w >>> 15).setWidth 5

/-- A word in layout LR or LI, which bit 11 selects (03 R109). -/
def wordBody (w : Word) : Body :=
  if w.getLsbD 11 then .li (wordD w) (wordA w) (w.setWidth 11)
  else .lr (wordD w) (wordA w) (w.getLsbD 10) ((w >>> 7).setWidth 3) ((w >>> 5).setWidth 2) (w.setWidth 5)

/-- A word in layout LS: ITM is bits [12:11] (03 R109). -/
def wordLs (pre : List Pfx) (w : Word) : LsOp :=
  { pre := pre, v := wordD w, c := wordA w, port := (w >>> 13).setWidth 2, itm := (w >>> 11).setWidth 2
    stmt := w.setWidth 11 }

/-- A half of a paired word as its command sees it (03 R111). -/
def wordHalf (upper : Bool) (w : Word) : PairOp :=
  let hi : BitVec 15 := (w >>> 16).setWidth 15
  let lo : BitVec 15 := w.setWidth 15
  let me := if upper then hi else lo
  { d := (me >>> 5).setWidth 5, s := me.setWidth 5, upper := upper, other := if upper then lo else hi
    bit15 := w.getLsbD 15 }

/-- A prefix word (03 R113). -/
def decodePfx (w : Word) : Option Pfx :=
  if w.msb then none
  else if wordMajor w = 0x3E then some (.imm (w.setWidth 25))
  else if wordMajor w = 0x3F then some (.tag (w.setWidth 25))
  else none

/-- The operation of a major and FN in layouts LR and LI (03 R117, 08 R357, 09 R399); none where they are reserved. -/
def decodeLong (i : Iss) (x : LongOp) (major fn : Nat) : Option Instr :=
  match major, fn with
  | 0x01, 0 => some (.add i (.long x))
  | 0x01, 1 => some (.sub i (.long x))
  | 0x01, 2 => some (.and i (.long x))
  | 0x01, 3 => some (.or i (.long x))
  | 0x01, 4 => some (.xor i (.long x))
  | 0x01, 5 => some (.andn i x)
  | 0x01, 6 => some (.min i (.long x))
  | 0x01, 7 => some (.max i (.long x))
  | 0x02, 0 => some (.shl i x)
  | 0x02, 1 => some (.shr i x)
  | 0x02, 2 => some (.sar i x)
  | 0x02, 3 => some (.rol i x)
  | 0x02, 4 => some (.rot i x)
  | 0x02, 5 => some (.clz i x)
  | 0x02, 6 => some (.ctz i x)
  | 0x02, 7 => some (.popc i x)
  | 0x03, 0 => some (.mul i x)
  | 0x03, 1 => some (.mulh i x)
  | 0x03, 2 => some (.mulhu i x)
  | 0x03, 3 => some (.div i x)
  | 0x03, 4 => some (.divu i x)
  | 0x03, 5 => some (.rem i x)
  | 0x03, 6 => some (.remu i x)
  | 0x04, 0 => some (.eq i (.long x))
  | 0x04, 1 => some (.ne i x)
  | 0x04, 2 => some (.lt i (.long x))
  | 0x04, 3 => some (.le i x)
  | 0x04, 4 => some (.ltu i (.long x))
  | 0x04, 5 => some (.leu i x)
  | 0x05, 0 => some (.li i x)
  | 0x05, 1 => some (.mov i (.long x))
  | 0x05, 2 => some (.sel i x)
  | 0x05, 3 => some (.self i (.long x))
  | 0x05, 4 => some (.iter i (.long x))
  | 0x06, 0 => some (.tagof i (.long x))
  | 0x06, 1 => some (.ttest i x)
  | 0x06, 2 => some (.retag i x)
  | 0x08, 0 => some (.faddS i x)
  | 0x08, 1 => some (.fsubS i x)
  | 0x08, 2 => some (.fmulS i x)
  | 0x08, 3 => some (.fmaS i x)
  | 0x08, 4 => some (.fdivS i x)
  | 0x08, 5 => some (.fsqrtS i x)
  | 0x08, 6 => some (.fminS i x)
  | 0x08, 7 => some (.fmaxS i x)
  | 0x09, 0 => some (.faddD i x)
  | 0x09, 1 => some (.fsubD i x)
  | 0x09, 2 => some (.fmulD i x)
  | 0x09, 3 => some (.fmaD i x)
  | 0x09, 4 => some (.fdivD i x)
  | 0x09, 5 => some (.fsqrtD i x)
  | 0x09, 6 => some (.fminD i x)
  | 0x09, 7 => some (.fmaxD i x)
  | 0x0A, 0 => some (.feqS i x)
  | 0x0A, 1 => some (.fltS i x)
  | 0x0A, 2 => some (.fleS i x)
  | 0x0A, 3 => some (.funS i x)
  | 0x0A, 4 => some (.feqD i x)
  | 0x0A, 5 => some (.fltD i x)
  | 0x0A, 6 => some (.fleD i x)
  | 0x0A, 7 => some (.funD i x)
  | 0x0B, 0 => some (.cvtSI i x)
  | 0x0B, 1 => some (.cvtIS i x)
  | 0x0B, 2 => some (.cvtDI i x)
  | 0x0B, 3 => some (.cvtID i x)
  | 0x0B, 4 => some (.cvtSD i x)
  | 0x0B, 5 => some (.cvtDS i x)
  | 0x0B, 6 => some (.fclassS i x)
  | 0x0B, 7 => some (.fclassD i x)
  | 0x10, 0 => some (.b i x)
  | 0x11, 0 => some (.bz i x)
  | 0x12, 0 => some (.bnz i x)
  | 0x13, 0 => some (.jr i x)
  | 0x14, 0 => some (.endStrand i (.long x))
  | 0x1E, 0 => some (.alloc i x)
  | 0x1E, 1 => some (.allocK i x)
  | 0x1E, 2 => some (.allocX i x)
  | 0x1E, 3 => some (.allocXK i x)
  | 0x1F, 0 => some (.free i x)
  | 0x20, 0 => some (.ld i x)
  | 0x20, 1 => some (.ldb i x)
  | 0x20, 2 => some (.ldbu i x)
  | 0x20, 3 => some (.ldh i x)
  | 0x20, 4 => some (.ldhu i x)
  | 0x20, 5 => some (.ldx i x)
  | 0x20, 6 => some (.lds i (.long x))
  | 0x21, 0 => some (.st i x)
  | 0x21, 1 => some (.stb i x)
  | 0x21, 2 => some (.sth i x)
  | 0x21, 3 => some (.stx i x)
  | 0x21, 4 => some (.sts i (.long x))
  | 0x24, 0 => some (.istore i x)
  | 0x24, 1 => some (.iclear i x)
  | 0x25, 0 => some (.loadr i x)
  | 0x25, 1 => some (.storec i x)
  | 0x26, 0 => some (.fence i x)
  | 0x26, 1 => some (.fenceLL i x)
  | 0x26, 2 => some (.fenceLS i x)
  | 0x26, 3 => some (.fenceSL i x)
  | 0x26, 4 => some (.fenceSS i x)
  | 0x26, 5 => some (.ifence i x)
  | 0x28, 0 => some (.workget i x)
  | 0x29, 0 => some (.flcommit i x)
  | 0x29, 1 => some (.fldone i x)
  | 0x2A, 0 => some (.winset i x)
  | 0x2A, 1 => some (.iretire i x)
  | 0x2B, 0 => some (.agree i x)
  | 0x2B, 1 => some (.rdtime i x)
  | 0x2C, 0 => some (.esubmit i x)
  | 0x2D, 0 => some (.lcommit i x)
  | 0x30, 0 => some (.svc i x)
  | 0x31, 0 => some (.rdsr i x)
  | 0x31, 1 => some (.wrsr i x)
  | 0x32, 0 => some (.eret i x)
  | 0x33, 0 => some (.cstart i x)
  | 0x34, 0 => some (.mbxSend i x)
  | 0x34, 1 => some (.mbxPoll i x)
  | 0x35, 0 => some (.tlbiVa i x)
  | 0x35, 1 => some (.tlbiSid i x)
  | 0x35, 2 => some (.tlbiPart i x)
  | 0x36, 0 => some (.cmaintClean i x)
  | 0x36, 1 => some (.cmaintFlush i x)
  | 0x36, 2 => some (.cmaintZero i x)
  | 0x36, 3 => some (.cmaintPrefetch i x)
  | _, _ => none

/-- The operation of a major in layout LS (03 R117). -/
def decodeLs (i : Iss) (x : LsOp) (major : Nat) : Option Instr :=
  match major with
  | 0x18 => some (.send i x)
  | 0x19 => some (.sendE i x)
  | 0x1A => some (.switch i x)
  | 0x1B => some (.switchE i x)
  | 0x1C => some (.sendx i x)
  | 0x1D => some (.sendxE i x)
  | 0x22 => some (.ldp i x)
  | 0x23 => some (.ifetch i x)
  | _ => none

/-- The short operation of a SOP (03 R118); none where it is reserved. -/
def decodeShort (i : Iss) (p : PairOp) (sop : Nat) : Option Instr :=
  match sop with
  | 0 => some (.nop i p)
  | 1 => some (.mov i (.short p))
  | 2 => some (.add i (.short p))
  | 3 => some (.sub i (.short p))
  | 4 => some (.and i (.short p))
  | 5 => some (.or i (.short p))
  | 6 => some (.xor i (.short p))
  | 7 => some (.not i p)
  | 8 => some (.neg i p)
  | 9 => some (.addi i p)
  | 10 => some (.li5 i p)
  | 11 => some (.shli i p)
  | 12 => some (.shri i p)
  | 13 => some (.sari i p)
  | 14 => some (.eq i (.short p))
  | 15 => some (.lt i (.short p))
  | 16 => some (.ltu i (.short p))
  | 17 => some (.eqi i p)
  | 18 => some (.lds i (.short p))
  | 19 => some (.sts i (.short p))
  | 20 => some (.tagof i (.short p))
  | 21 => some (.min i (.short p))
  | 22 => some (.max i (.short p))
  | 23 => some (.zxb i p)
  | 24 => some (.zxh i p)
  | 25 => some (.endStrand i (.short p))
  | 26 => some (.andi i p)
  | 27 => some (.self i (.short p))
  | 28 => some (.iter i (.short p))
  | _ => none

/-- The SOP of a half (03 R111). -/
def halfSop (upper : Bool) (w : Word) : Nat := if upper then ((w >>> 26).setWidth 5 : BitVec 5).toNat else ((w >>> 10).setWidth 5 : BitVec 5).toNat

/-- The command that a main word spells, after its prefix words: bit 31 selects the format, and of a paired word the
half that `upper` names is decoded. None for a word of major 0x00, a reserved MAJOR, FN or SOP, and a prefix word
(03 R109, R117, R118). Whether the rest of the encoding is legal is the command's own check. -/
def decodeWord (i : Iss) (pre : List Pfx) (upper : Bool) (w : Word) : Option Instr :=
  if w.msb then decodeShort i (wordHalf upper w) (halfSop upper w)
  else
    match decodeLs i (wordLs pre w) (wordMajor w).toNat with
    | some c => some c
    | none => decodeLong i { pre := pre, body := wordBody w } (wordMajor w).toNat (wordFn w).toNat

/-- A main word that spells no operation (03 R109, R117, R118): of a paired word, either half. -/
def noOperation (w : Word) : Bool :=
  let i : Iss := { cell := 0, slot := 0, fetchTag := Tag.int, check := .ok }
  (decodeWord i [] true w).isNone || (decodeWord i [] false w).isNone

end Sys2Proof
end

