-- ==== Sys2Proof/Config.lean ====
section
/-! DEFINITION. What an implementation fixes and the manual leaves open. Each constant here has no body
that a proof can see: a claim holds for every value it may have (assumption 2). -/

namespace Sys2Proof

/-- FREE VALUE. The `n`-th open value the machine draws: random bits of the DRBG and of the entropy
source, random replacement choices, data the manual leaves unstated (assumption 2). -/
opaque Config.freeValue (n : Nat) : BitVec 64

/-- FREE VALUE. What the engines use as root wrapping key once `mod.zeroize` has destroyed it and until a start
generates the next (14 R627; assumption 41). -/
opaque Config.lostRootKey : List (BitVec 8)

/-- FREE VALUE. The identity record of the module: serial number and the like (14 R603
`mod.identity`; assumption 2). -/
opaque Config.identity : List (BitVec 8)

/-- FREE VALUE. A word of another module's memory, as an access by a block that is no strand finds it
after `drawn` draws of open values (assumption 6). -/
opaque Config.remoteWord (word drawn : Nat) : BitVec 36

/-- FREE VALUE. The Mortahus image-signing public key, fused at manufacture (14 R620; assumption 2). -/
opaque Config.imageKey : List (BitVec 8)

/-- FREE VALUE. The public key of a debug KEYID: 0 is the field-service key, fused at manufacture; 1 the purchaser's
key, on the development unit only (15 R654; assumption 2). -/
opaque Config.debugKey (keyId : Nat) : Option (List (BitVec 8))

/-- FREE VALUE. The seconds beyond 72 hours for which the supercapacitor keeps the calendar clock (14 R626;
assumption 59). -/
opaque Config.capExtra : Nat

/-- FREE VALUE. The set point of a core voltage domain, in mV (16 R693, 0.65 to 0.85 V; assumption 45). -/
opaque Config.coreSetPoint (domain : Nat) : Nat

/-- FREE VALUE. The microwords of the image that the module is shipped with, microcode 4.2, of which the manual gives
some routines' shape only (06 R242, R264; assumption 105). -/
opaque Config.shippedMicroword (address : Nat) : BitVec 128

/-- FREE VALUE. The dispatch table of that image (06 R254; assumption 105). -/
opaque Config.shippedDispatch (index : Nat) : BitVec 32

/-- FREE VALUE. The check bits of a microword in a cell, of a microword in a bank and of a dispatch entry: the manual
gives their numbers and what they detect, no matrix (06 R243, R244; assumption 105). -/
opaque Config.cellCheck (microword : BitVec 128) : BitVec 8
opaque Config.bankCheck (microword : BitVec 128) : BitVec 9
opaque Config.dispatchCheck (entry : BitVec 32) : BitVec 7

/-- FREE VALUE. The version of the channel firmware that was released with Benus firmware 4.2 (00 R2; assumption 51). -/
opaque Config.channelVersion : BitVec 16

/-- FREE VALUE. The priority of a link channel (11 R479, R480), which no command of the manual sets (assumption 33). -/
opaque Config.lchPriority (lch : BitVec 16) : BitVec 3

/-- FREE VALUE. The ROLLBACK of an image that the module is shipped with (14 R624; assumption 51). -/
opaque Config.shippedRollback (kind : Nat) : BitVec 8

end Sys2Proof
end

