-- ==== Sys2Proof/Machine/State.lean ====
section
/-! DEFINITION. The state of the module as plain data: every register, queue, store, table and mode the
spec names, the queue of waiting commands, the faults and refusals, and the state after reset. -/

namespace Sys2Proof.Machine

/-- A sparse table in one canonical form: keys strictly rising, and no entry equal to what an
unlisted key reads as (Ops.lean gives reading and writing). -/
abbrev Map (α : Type) := List (Nat × α)

/-! ### Cells (02, 03, 05) -/

/-- A token in a queue of a cell: what it carries, whose copy it is, the cluster it came from
(07 R296), and what its acceptance counted: `selfSent` marks a token of the frame's own context and
`report` a completion report (02 R72); `counted` one that has passed TK before it came here (02 R69, 07 R303). -/
structure QTok where
  tok : Token
  snd : Sender
  src : BitVec 4
  selfSent : Bool
  report : Bool
  counted : Bool
  deriving DecidableEq, Repr

/-- An activity of the ready list (02 R50): operands and how many tokens it consumes (02 R72). -/
structure Activity where
  ctx : Word
  stmt : BitVec 16
  iter : BitVec 12
  port : BitVec 2
  g1 : TWord
  g2 : TWord
  used : Nat
  deriving DecidableEq, Repr

/-- One set of the matching store (02 R52): resident tokens, the longest resident first (at most
four), the spill count and the lock bit. -/
structure MsSet where
  ways : List Token
  spill : BitVec 6
  locked : Bool
  deriving DecidableEq, Repr

/-- What a store-buffer entry does when it drains (09 R371, 02 R107, 09 R401). -/
inductive StKind where
  | word
  | sub
  | slot (frame : BitVec 20) (index : BitVec 8)
  | side
  | clean
  | flush
  | zero
  deriving DecidableEq, Repr

/-- One store-buffer entry (03 R150): the machine word, the bytes it replaces, whether it is sealed
(13 R536), whether it has drained and is performed but waits for its acknowledgement (09 R372), whether
its firing has ended, and whether it has waited for a Porch entry. -/
structure StEnt where
  id : Nat
  slot : SlotId
  kind : StKind
  addr : Nat
  home : BitVec 4
  cacheable : Bool
  mask : BitVec 4
  val : TWord
  isSealed : Bool
  sent : Bool
  performed : Bool
  shared : Bool
  ended : Bool
  waited : Bool
  deriving DecidableEq, Repr

/-- A split-phase request of the cell (02 R83, 03 R155): outstanding at its home or waiting for a
reissue, with the response token complete but for its value; `deferred` once its home has made the deferral record
(02 R82), which word 13 of the header counts from then on. -/
structure Request where
  id : Nat
  fetch : Bool
  addr : Nat
  va : Word
  homing : BitVec 3
  cacheable : Bool
  part : BitVec 6
  resp : Token
  reissue : Bool
  deferred : Bool
  deriving DecidableEq, Repr

/-- A combined TLB entry (08 R354): the page of a space (or of the partition when global), its
machine page, its rights and the partition block it came from. -/
structure TlbEnt where
  glob : Bool
  sid : BitVec 16
  part : BitVec 6
  big : Bool
  vpn : Nat
  pblk : Nat
  modn : BitVec 12
  ma : Nat
  homing : BitVec 3
  r : Bool
  w : Bool
  x : Bool
  u : Bool
  c : Bool
  se : Bool
  dev : Bool
  deriving DecidableEq, Repr

/-- A stage-2 entry of a cluster TLB (08 R354): the block of a partition and its leaf. -/
structure Tlb2Ent where
  part : BitVec 6
  pblk : Nat
  modn : BitVec 12
  ma : Nat
  homing : BitVec 3
  dev : Bool
  deriving DecidableEq, Repr

/-- A forwarding entry (07 R301): the frame, its new cell, the routers whose MAP-MARK
has come, and whether the scan of the matching store is done; `moved` after the transfer point. While a cell has
one, SA takes no activity of the frame from its ready list. -/
structure FwdEnt where
  frame : BitVec 20
  target : CellId
  marks : List (BitVec 4)
  scanned : Bool
  moved : Bool
  deriving DecidableEq, Repr

/-- A report record waiting for room in its ring (02 R78): the partition and the record's words. -/
structure WaitRec where
  part : BitVec 6
  words : List Word
  deriving DecidableEq, Repr

/-- The fetch buffer of a cell (05 R212): the slot whose words it holds; the sectors that a miss brought (09 R382);
and, after event entry, the handler's address with the first of the four words of the event prefetch store that
still are to come (05 R227). -/
structure FetchBuf where
  slot : SlotId
  sectors : List Nat
  handler : Option (Word × Nat)
  deriving DecidableEq, Repr

/-- A logical cell. `owner` is the slot that has, or last had, the issue stage, and `run` how many instructions it has
issued in a row (05 R211). -/
structure CellSt where
  inq : List QTok
  ready : List Activity
  ms : Map MsSet
  side : List QTok
  refillPtr : BitVec 13
  hdr : List (BitVec 20)
  hdrWait : List QTok
  stbuf : List StEnt
  reqs : List Request
  lines : Map Nat
  linePtr : Map (BitVec 2)
  tlb : List TlbEnt
  vectors : Map Word
  prefetch : Map TWord
  owner : Option SlotId
  run : Nat
  buf : Option FetchBuf
  fwd : List FwdEnt
  draining : Bool
  stopped : Bool
  narrowed : Bool
  parked : List SlotId
  storecs : Nat
  ovf : List QTok
  ovfHead : Word
  locks : List Nat
  scans : List (BitVec 20 × BitVec 64)
  deriving DecidableEq, Repr

/-- The states of a strand slot (05 R209). -/
inductive SlotState where
  | idle
  | entry
  | run
  | wait
  | parked
  | handler
  | commit
  deriving DecidableEq, Repr

/-- One commit item in a send list (03 R133, R155): a token, or a split-phase request. -/
inductive Item where
  | token (t : Token)
  | request (r : Request)
  deriving DecidableEq, Repr

/-- What a window instruction does at commit (03 R143). -/
inductive WinOp where
  | winset (win : BitVec 10)
  | retire (iter : BitVec 12)
  deriving DecidableEq, Repr

/-- An iterative operation in flight (04 R170): its address, its unit (R169: 0 multiplier, 1 divider, 2
floating-point divide and square root), what it writes, the flags it raises, the
trap it would raise and its cycle count. -/
structure IterOp where
  pc : Word
  unit : Nat
  writes : List (Reg × TWord)
  flags : BitVec 5
  trap : Option Word
  cycles : Nat
  deriving DecidableEq, Repr

/-- How a load's word becomes a register (03 R148, R153). -/
inductive LdForm where
  | word
  | sub (offset : BitVec 2) (bytes : Nat) (signed : Bool)
  | split (offset : BitVec 2) (bytes : Nat) (signed : Bool)
  deriving DecidableEq, Repr

/-- An outstanding load (05 R214): its register, its words and which have arrived, the page's home field
and right C, and the strand's own buffered stores as they stood (09 R370). -/
structure PLoad where
  reg : Reg
  form : LdForm
  parts : List (Nat × Option TWord)
  homing : BitVec 3
  cacheable : Bool
  own : List StEnt
  reserve : Option Nat
  noFill : Bool := false
  deriving DecidableEq, Repr

/-- What a stage-2 translation of a walk is for (08 R343): a stage-1 entry of a level, or the final
address. -/
inductive WalkGoal where
  | level (n : Nat)
  | final
  deriving DecidableEq, Repr

/-- The table read a walk makes next (08 R343, R344). -/
inductive WalkStage where
  | space
  | s2root (pa : Nat) (goal : WalkGoal)
  | s2leaf (pa : Nat) (table : Nat) (goal : WalkGoal)
  | s1 (level : Nat) (word : Nat) (homing : BitVec 3)
  deriving DecidableEq, Repr

/-- A walk in progress for a strand's access (08 R343): what asked (KIND of 08 R352), the stages still
to run, the entry found so far, and the torn re-reads left; `got` holds the table sector that a fill brought and that
was not installed. -/
structure Walk where
  va : Word
  sid : BitVec 16
  kind : BitVec 4
  window : Bool
  stage : WalkStage
  leaf : Option (BitVec 64)
  big : Bool
  tries : Nat
  torn : Bool
  suspended : Bool
  got : Option (Nat × List TWord) := none
  deriving DecidableEq, Repr

/-- What a strand waits for (05 R209, R223): `operand` for a register or a unit before its instruction issues; `again`
inside a fence or a commit-first operation, which then issues again; the others inside an instruction or its fetch. -/
inductive Wait where
  | none
  | walk
  | fetch
  | operand
  | hop (dest : Option Reg) (next : Word)
  | load (next : Word)
  | again
  | tlbi (acks : Nat)
  | work (part : BitVec 6) (queue : BitVec 6) (dest : Reg) (next : Word)
  | stores
  | twin
  | release (dest : Option Reg)
  deriving DecidableEq, Repr

/-- The shadow of a strand (13 R536). -/
structure Shadow where
  regs : Map TWord
  its : BitVec 12
  fpc : BitVec 8
  fpf : BitVec 5
  uaw : Word
  xsid : BitVec 16
  pc : Word
  items : Nat
  wins : Nat
  handler : Bool
  sup : Bool
  deriving DecidableEq, Repr

/-- A strand slot: the activity it runs, its registers (INT zero where unlisted), its strand state
registers (03 R106) and everything in flight. -/
structure Slot where
  state : SlotState
  act : Activity
  sid : BitVec 16
  part : BitVec 6
  pc : Word
  regs : Map TWord
  its : BitVec 12
  fpc : BitVec 8
  fpf : BitVec 5
  xsid : BitVec 16
  uaw : Word
  ecause : BitVec 4
  einfo : Word
  epc : Word
  eaddr : Word
  sup : Bool
  items : Nat
  sends : List Item
  sealedItems : Nat
  wins : List WinOp
  timeHi : Option Word
  resv : Option Nat
  storecFails : Nat
  holdProbes : Bool
  iter : Option IterOp
  loads : List PLoad
  walk : Option Walk
  wait : Wait
  dueMc : Option Word
  dueDbg : Option Word
  dueTs : Bool
  noSlice : Bool
  abandoned : Option Word
  passed : Option Word
  watched : Option Word
  storeLost : Bool
  porchWaited : Bool
  shadow : Shadow
  retries : Nat
  lost : Bool
  halted : Option (Byte × BitVec 64)
  stepping : Nat
  afterSvc : Nat
  agreed : Bool
  deriving DecidableEq, Repr

/-- A frame (02 R44, 07 R294): the header by field, the STATE it held before a migration (07 R301) and whether a
commit or an acknowledgement has brought COUNT to 0 meanwhile (`due`, 02 R74), and the slots (EMPTY where
unlisted). -/
structure Frame where
  sid : BitVec 16
  part : BitVec 6
  state : BitVec 4
  saved : BitVec 4
  due : Bool
  persist : Bool
  ctx : Word
  code : Word
  count : Word
  base : BitVec 12
  win : BitVec 10
  weff : BitVec 10
  contCtx : Word
  contStmt : BitVec 16
  contIter : BitVec 12
  contPort : BitVec 2
  contSid : BitVec 16
  holdHead : Word
  lastCommit : BitVec 64
  committed : Bool
  total : BitVec 16
  remote : BitVec 16
  aff : BitVec 8
  cls : BitVec 2
  port : BitVec 3
  pin : Bool
  nomig : Bool
  candCl : BitVec 4
  candCnt : BitVec 8
  holdLeft : BitVec 4
  deferAddr : Word
  deferCnt : BitVec 16
  retire : BitVec 512
  slots : Map TWord
  tracing : Bool
  deriving DecidableEq, Repr

/-- A context-map entry (07 R299). -/
structure CtxEnt where
  valid : Bool
  moving : Bool
  cell : CellId
  version : BitVec 16
  deriving DecidableEq, Repr

/-- What a retained copy waits for (02 R86, R67): `arrived` while its token has reached the destination
and is not acknowledged yet. -/
inductive RetState where
  | flight
  | arrived
  | returned
  | rejected
  deriving DecidableEq, Repr

/-- A retained copy (02 R49, R86): the sender, the token, the context whose COUNT the acknowledgement
lowers (02 R72), and the resends that failed. -/
structure Retained where
  snd : Sender
  tok : Token
  ctx : Option Word
  report : Bool
  split : Bool
  state : RetState
  fails : Nat
  deriving DecidableEq, Repr

/-! ### Clusters (09) and homes (10) -/

/-- A sector of a cluster-cache block (09 R374, 10 R418): STATE 0 is not valid. -/
structure Sector where
  st : BitVec 2
  dirty : Bool
  data : List TWord
  deriving DecidableEq, Repr

/-- A way of a cluster-cache set: the block (machine address / 256, module included), FILL, its home
and its sectors. -/
structure Block where
  block : Nat
  used : Bool
  fill : Bool
  home : BitVec 4
  sectors : Map Sector
  deriving DecidableEq, Repr

/-- Who asked for a sector (09 R380, R382). -/
inductive Requester where
  | load (cell : CellId) (slot : SlotId) (reg : Reg) (word : Nat)
  | fetch (cell : CellId) (slot : SlotId)
  | request (cell : CellId) (id : Nat) (word : Nat)
  | store (cell : CellId) (id : Nat)
  | walk (cell : CellId) (slot : SlotId)
  deriving DecidableEq, Repr

/-- A miss entry (09 R380 to R383, R403). -/
structure Miss where
  sector : Nat
  home : BitVec 4
  way : Nat
  wantX : Bool
  upg : Bool
  zero : Bool
  prefetch : Bool
  part : BitVec 6
  reqs : List Requester
  firstBeat : Nat
  beats : Nat
  granted : Option (BitVec 2)
  data : List TWord
  doomed : Bool
  sent : Bool
  retrying : Bool
  retries : Nat
  deriving DecidableEq, Repr

/-- The states of a Porch entry (09 R384); a FREE entry is not listed. -/
inductive PorchState where
  | waiting
  | sent
  | combine
  deriving DecidableEq, Repr

/-- A Porch entry (09 R384): an evicted block's dirty sectors, or the stores that wait for a sector. -/
structure Porch where
  state : PorchState
  block : Nat
  home : BitVec 4
  sectors : Map Sector
  sector : Nat
  stores : List (Nat × StEnt)
  deriving DecidableEq, Repr

/-- A Pantry pair of a cluster (09 R390 to R393): the step its sequence is in. -/
structure PantryPair where
  step : Nat
  wasFixed : Bool
  masks : List (BitVec 6 × BitVec 16)
  leaf : Nat
  mailbox : Option (BitVec 5)
  deriving DecidableEq, Repr

/-- A bank of a cluster's image store (06 R243): the body of a full image and the body of the patch over it. Both empty,
it holds the image that the module is shipped with. -/
structure UcImage where
  body : List Byte
  patch : List Byte
  deriving DecidableEq, Repr

/-- A cluster: cache, Porch, miss entries, Pantry, cluster TLB, router's context-map cache (a frame and the cell that
the cached entry names), trace
ring, the control-store bank that holds
the newest image (`true` for bank 1, 06 R276), the microwords rewritten with their times (13 R541), its clock, and the
strand of the cluster whose qualified reservation was served last (10 R443). -/
structure Cluster where
  ways : Map Block
  misses : List Miss
  porch : List Porch
  pairs : Map PantryPair
  pantry : Map TWord
  tlb : List TlbEnt
  tlb2 : List Tlb2Ent
  roots : List (BitVec 16 × Nat × BitVec 6)
  mapCache : List (BitVec 20 × CellId)
  trace : List (List Byte)
  newBank : Bool
  bank0 : UcImage
  bank1 : UcImage
  rewritten : List (Nat × Nat × BitVec 64)
  cellMhz : BitVec 16
  turn : Nat
  deriving DecidableEq, Repr

/-- A directory entry (10 R419). -/
structure DirEnt where
  v : Bool
  pin : Bool
  tag : Nat
  ds : Map (BitVec 2)
  owner : Map Agent
  wb : Map Bool
  sharers : List Agent
  deriving DecidableEq, Repr

/-- An open home transaction (10 R426): the request it serves, the agents whose answer it awaits and since
when, whether the holder forwards the data to the requester (PRB_F) and has done so, the data seen so far, and
whether the grant has left. An eviction serves no request of its own: `evict` clears its block and `req` waits
for the way; `second` when its shared copies are being invalidated (10 R429). -/
structure Trans where
  block : Nat
  req : Instr
  evict : Bool
  awaits : List (Agent × Nat)
  since : BitVec 64
  second : Bool
  fwd : Bool
  sent : Bool
  data : Option (List TWord)
  granted : Bool
  deriving DecidableEq, Repr

/-- A home agent (10 R419 to R430). -/
structure Home where
  dir : Map DirEnt
  trans : List Trans
  queue : List Instr
  starve : Map (Option Instr)
  retried : List (Instr × Nat)
  resv : List (CellId × SlotId × Nat)
  heard : Map (BitVec 64)
  pantryHold : List Nat
  pantryMap : List (Nat × BitVec 4 × BitVec 2)
  pageSamples : List (Nat × List Agent)
  sampleCnt : BitVec 6
  deriving DecidableEq, Repr

/-! ### Partitions, placement, work and flows (07, 08) -/

/-- A work item (07 R311, R314): its descriptor, its queue, its flow and sequence number. -/
structure WItem where
  id : Nat
  part : BitVec 6
  queue : BitVec 6
  desc : Word
  sid : BitVec 16
  flow : Option (BitVec 12)
  seq : Word
  taken : Bool
  taker : Option Word
  releases : Nat
  ended : Bool
  finished : Bool
  abandoned : Bool
  tn : BitVec 64
  deriving DecidableEq, Repr

/-- A release held at the Threshold (07 R315 to R318). -/
inductive Release where
  | memory (stores : List StEnt)
  | program (port : BitVec 3) (sub : BitVec 8) (isFinal : Bool)
  | ledger (desc : Word) (sid : BitVec 16) (part : BitVec 6) (words : List Word)
  deriving DecidableEq, Repr

/-- A work queue of a partition (07 R310). -/
structure WorkQ where
  bound : Bool
  sid : BitVec 16
  ring : Word
  entries : Nat
  free : List Word
  items : List Nat
  parked : List (CellId × SlotId)
  deriving DecidableEq, Repr

/-- An ordered flow (07 R313 to R319). -/
structure Flow where
  bound : Bool
  part : BitVec 6
  queue : BitVec 6
  window : BitVec 16
  limit : Word
  nextSeq : Word
  nextRel : Word
  headSince : BitVec 64
  full : Bool
  held : List (Nat × Release)
  waiting : List (Nat × Release)
  deriving DecidableEq, Repr

/-- A partition (08 R324, 07 R284 to R292, 02 R62, R78). -/
structure Part where
  isLive : Bool
  quiesced : Bool
  cells : List CellId
  twin : Bool
  memMib : Nat
  quota : Nat
  devices : Word
  cellar : Nat
  span : List (BitVec 12)
  weights : List (BitVec 12 × BitVec 8)
  epoch : Word
  spanPtr : Nat
  pins : Map (Option (BitVec 16))
  affs : Map (BitVec 4 × Nat)
  lowLevels : List Nat
  exhausted : Bool
  ring : Word
  notice : Option (Word × BitVec 16 × Nat × BitVec 16)
  noticeWait : List (List Word)
  ledgerQuota : Nat
  keyQuota : Nat
  record : List Byte
  deriving DecidableEq, Repr

/-- A page move in progress (07 R308): the partition's block, its old 2 MiB block of this module, its new one
numbered with its module, the HOMING it gets, and how many of its 8,192 blocks of 256 bytes are copied. -/
structure PageMove where
  active : Bool
  part : BitVec 6
  pblk : Nat
  source : Nat
  target : Nat
  homing : BitVec 3
  copied : Nat
  deriving DecidableEq, Repr

/-! ### Channels (11) -/

/-- A running channel program (11 R454 to R462): its header, the order that runs or comes next with its
words once it is fetched, the ledger entry of its open transaction, what it waits for, what its header words
4 to 7 will hold, the closed entries that wait for the completion token, and whether a report is due (1 for
NOTIFY, 2 at its end). -/
structure Program where
  running : Bool
  header : Word
  part : BitVec 6
  sid : BitVec 16
  item : Option Nat
  final : Bool
  stmt : BitVec 16
  tport : BitVec 2
  order : Word
  words : List Word
  held : Bool
  entry : Option Nat
  streaming : Bool
  event : Option (BitVec 6)
  outcome : Byte
  residual : Word
  tn : BitVec 64
  wfault : Bool
  done : List Nat
  due : Nat
  deriving DecidableEq, Repr

/-- A subchannel (11 R454): its SID, its link channel and its engine slices by class. -/
structure Sub where
  bound : Bool
  sid : BitVec 16
  part : BitVec 6
  lch : BitVec 16
  slices : Map (Option (BitVec 6))
  prog : Program
  deriving DecidableEq, Repr

/-- A link channel of a port (11 R457, R458, R487 to R489): the limit the peer granted and what the module
started, the limit granted to the peer and what it started, received CONTROL codes 1 and 2, the flows the
peer paused, those the module paused and those it resumed within the last 1 ms, and the alternate paths. -/
structure LinkCh where
  creditOut : Word
  startedOut : Word
  creditIn : Word
  startedIn : Word
  draining : Bool
  ending : Bool
  paused : List (BitVec 12)
  pausing : List (BitVec 12)
  resumed : List (BitVec 12 × BitVec 64)
  alts : List (BitVec 16)
  deriving DecidableEq, Repr

/-- An inbound transaction that is not taken in yet (11 R465, R466): the subchannel and the order of the
stream it came on, its entry, its bytes; `last` when every byte is held. -/
structure Rx where
  tn : BitVec 64
  lch : BitVec 16
  home : BitVec 3
  sub : BitVec 8
  part : BitVec 6
  sid : BitVec 16
  words : List Word
  entry : Option Nat
  code : Byte
  cmp : Bool
  enc : Bool
  bytes : List Byte
  last : Bool
  deriving DecidableEq, Repr

/-- An outbound transaction (11 R465, R486 to R489): its subchannel, its order, the bytes it transmits, the
port it is on, whether it has started in this session and whether a frame of it ever left, whether the far end
deferred it, and the data that came back. -/
structure OutTx where
  entry : Nat
  tn : BitVec 64
  port : BitVec 3
  sub : BitVec 8
  lch : BitVec 16
  words : List Word
  flow : BitVec 12
  bytes : List Byte
  path : Option (BitVec 4)
  begun : Bool
  left : Bool
  deferred : Bool
  got : List Byte
  cmp : Bool
  enc : Bool
  deriving DecidableEq, Repr

/-- A frame sent and not yet acknowledged (11 R486). -/
structure TxFrame where
  fseq : Word
  typ : BitVec 4
  frame : CFrame
  deriving DecidableEq, Repr

/-- A Coaskair port with its link (11 R480 to R494): ports 0 to 7 are the channel ports with their channel
processor pairs, 8 to 15 the fabric ports. `held` keeps the frames that arrive during a switch-over. -/
structure Port where
  link : BitVec 2
  pcs : Bool
  session : BitVec 16
  proposal : BitVec 16
  fseq : Word
  lastFseq : Word
  ackseq : Word
  unacked : List TxFrame
  sinceAck : Nat
  timeouts : Nat
  maxPay : BitVec 16
  window : BitVec 16
  caps : BitVec 16
  peer : BitVec 12
  peerModule : Bool
  side : Bool
  failedSides : BitVec 2
  standbyOk : Bool
  switching : Bool
  swapping : Bool
  testing : Bool
  swapMbx : Option (BitVec 5)
  pausedPrios : BitVec 8
  rx : List Rx
  txq : List (BitVec 4 × CFrame)
  held : List (BitVec 4 × CFrame)
  resolves : List (BitVec 64 × BitVec 16 × Byte)
  subs : Map Sub
  lchs : Map LinkCh
  deriving DecidableEq, Repr

/-- A ledger entry (11 R468, R469). -/
structure Ledger where
  state : BitVec 4
  tn : BitVec 64
  outcome : Byte
  kind : Byte
  path : BitVec 16
  sid : BitVec 16
  sub : BitVec 16
  count : Word
  flow : BitVec 12
  partner : BitVec 12
  itemTn : BitVec 64
  opened : BitVec 64
  body : List Word
  part : BitVec 6
  isMirrored : Bool
  doubted : Bool
  doneTok : Option Nat
  desc : Word
  token : BitVec 18
  deriving DecidableEq, Repr

/-- The duplicate window of an originator (11 R467). -/
structure DupWin where
  highest : BitVec 64
  performed : List (BitVec 64)
  fenced : List (BitVec 64)
  deriving DecidableEq, Repr

/-! ### Engines (12) -/

/-- A queued or running engine command (12 R519, R526): the descriptor as submitted, the engine it runs on,
and its STATUS, DETAIL and OUT_LEN once it has come to its result. -/
structure ECmd where
  id : Nat
  slice : BitVec 6
  desc : Word
  words : List Word
  sid : BitVec 16
  part : BitVec 6
  engine : Option (BitVec 4)
  status : Option Byte
  detail : Word
  outLen : Nat
  deriving DecidableEq, Repr

/-- A queue slice (12 R522 to R526). -/
structure Slice where
  state : BitVec 2
  sid : BitVec 16
  part : BitVec 6
  depth : Nat
  share : BitVec 7
  credit : Nat
  queue : List ECmd
  waitMbx : Option (BitVec 5)
  deriving DecidableEq, Repr

/-- An engine class (12 R523). -/
structure EClass where
  slices : Map Slice
  turn : Nat
  deriving DecidableEq, Repr

/-- A key-store entry (12 R511, R512). -/
structure Key where
  inUse : Bool
  gen : BitVec 15
  sid : BitVec 16
  typ : Byte
  material : List Byte
  deriving DecidableEq, Repr

/-! ### Faults (13) -/

/-- A fault record (13 R563). -/
structure FRec where
  recno : Word
  source : BitVec 16
  kind : Byte
  react : BitVec 8
  firstT : BitVec 64
  lastT : BitVec 64
  merged : BitVec 16
  lost : BitVec 16
  more : List (BitVec 16)
  cell : BitVec 16
  sid : BitVec 16
  ctx : Word
  addr : BitVec 64
  count : Word
  detail : Word
  deriving DecidableEq, Repr

/-- A fault source (13 R556 to R559, R568): `raw` while a detection asserts it, whether the last samples read as
asserted, the open window, the samples with equal rails, the rails last seen, a detection that is severe whatever
the threshold, one caused through TST_INJ, and storm mode with what it counts and the last event's record. -/
structure Source where
  raw : Bool
  asserted : Bool
  openWin : Bool
  samples : Nat
  rails : BitVec 2
  pending : Bool
  injected : Bool
  storm : Bool
  interval : Nat
  stormEvents : Nat
  kept : Option FRec
  deriving DecidableEq, Repr

/-- A record of the collector's store (13 R561, R562). -/
structure Stored where
  fr : FRec
  isOpen : Bool
  logged : Bool
  sticky : Bool
  deriving DecidableEq, Repr

/-- The fault collector and the ALIVE watchdog (13 R555 to R568). -/
structure Collector where
  srcs : Map Source
  store : List Stored
  aliveA : Bool
  aliveB : Bool
  benusFed : Bool
  collectorFed : Bool
  armed : Bool
  failMark : Map Bool
  copying : List (CellId × Nat)
  lostCells : List CellId
  selfTests : List (CellId × SlotId)
  deriving DecidableEq, Repr

/-! ### Benus (14) -/

/-- A mailbox (14 R583 to R597). -/
structure Mailbox where
  owner : Byte
  part : BitVec 6
  transport : Option Transport
  classes : BitVec 16
  fingerprint : BitVec 384
  state : BitVec 2
  request : List Byte
  response : List Byte
  overrun : Bool
  irqEn : Bool
  block : Option (Word × BitVec 16 × BitVec 6 × BitVec 16)
  progress : Nat
  restarted : Bool
  newOwner : List Byte
  deriving DecidableEq, Repr

/-- The two slots of an update kind (14 R619 to R624): which is active (`true` for B), the full image and the
patch over it in each, the anti-rollback counter, and TRIAL with the starts of it that failed. -/
structure FwKind where
  active : Bool
  imgA : List Byte
  imgB : List Byte
  patchA : List Byte
  patchB : List Byte
  counter : Nat
  trial : Bool
  trialFails : Nat
  deriving DecidableEq, Repr

/-- A staging area (14 R621). -/
structure Staging where
  bytes : List Byte
  complete : Bool
  deriving DecidableEq, Repr

/-- A sensor (14 R612 to R614). -/
structure Sensor where
  value : Word
  low : Word
  high : Word
  state : BitVec 3
  seen : Bool
  deriving DecidableEq, Repr

/-- A change of control-store banks (06 R272 to R276): the cells to change, as cluster × 256 + physical cell with
the attempts that failed, the first one in hand; the cells left on the old image, the cells changed; whether it
completes a change that left clusters mixed; and since when the cell in hand drains. -/
structure PatchRun where
  finishing : Bool
  todo : List (Nat × Nat)
  left : List Nat
  patched : Nat
  mailbox : BitVec 5
  since : BitVec 64
  deriving DecidableEq, Repr

/-- Benus (14 R580 to R627). Of a start: the ledger is recovered (01 R28), and the start waits for the identity
exchange of its step 6 (01 R27). -/
structure Benus where
  running : Bool
  ready : Bool
  recovered : Bool
  exchanging : Bool
  mbx : Map Mailbox
  order : List (BitVec 5)
  journal : List (BitVec 5)
  tls : Map (Option (BitVec 384))
  fw : Map FwKind
  staging : Map Staging
  bootImages : Map (List Byte)
  config : Map (Option Word)
  sensors : Map Sensor
  ram : List LogRec
  flash : List LogRec
  forwarded : BitVec 64
  lseq : BitVec 64
  tai : BitVec 64
  taiNs : Word
  utcOff : BitVec 16
  calSource : Byte
  calValid : Bool
  calStored : BitVec 64
  backup : Bool
  patch : Option PatchRun
  bootKey : List Byte
  rootKey : List Byte
  nextRec : Word
  hartLog : List LogRec
  blocks : List (Nat × Nat)
  movePool : List Nat
  lostRecs : Nat
  deriving DecidableEq, Repr

/-! ### Hierarchy, time, debug, platform (15, 16) -/

/-- A fabric port (15 R629 to R633): trained, what its identity allows (0 IDENT only, 1 join state, 2 admitted, 3
refused), and the last IDENT that came. -/
structure FabPort where
  up : Bool
  state : BitVec 2
  peer : Option Ident
  deriving DecidableEq, Repr

/-- The module's place in its system, and its time (15 R630 to R647). -/
structure Hier where
  system : Word
  numbered : Bool
  modn : BitVec 12
  role : BitVec 2
  pendingRole : Option (BitVec 2 × BitVec 12 × Option (BitVec 12) × BitVec 5)
  gepoch : Word
  sepoch : Word
  ports : Map FabPort
  lease : Bool
  heartbeat : Bool
  standbyOf : Option (BitVec 12)
  deadMods : List (BitVec 12)
  gone : List (BitVec 12)
  decisions : List (Bool × Word × Decision)
  partner : Option (BitVec 12)
  ptpMaster : Bool
  holdover : Bool
  locked : Bool
  offset : BitVec 16
  ppsCentre : BitVec 64
  ppsOffsets : List (BitVec 64)
  lastPps : BitVec 64
  summaries : Map (Option Summary)
  deriving DecidableEq, Repr

/-- A breakpoint or watchpoint (15 R657, R658). -/
structure DbgPoint where
  sid : BitVec 16
  addr : Word
  spec : Word
  deriving DecidableEq, Repr

/-- Debug access (15 R654 to R662): the authorisation, the nonce of a challenge with its SCOPE and time, the
units, the TAP's instruction, boundary-scan and bypass registers, and the responses that wait for the TAP. -/
structure Dbg where
  isOpen : Bool
  scope : BitVec 16
  keyId : BitVec 16
  expiry : BitVec 64
  nonce : Option (List Byte × BitVec 16 × BitVec 64)
  breaks : Map (Option DbgPoint)
  tbreaks : Map (Option DbgPoint)
  watches : Map (Option DbgPoint)
  ir : Byte
  boundary : List Bool
  bypassBit : Bool
  responses : List (List Byte)
  deriving DecidableEq, Repr

/-- An event input (16 R671 to R676): its level outside and since when, its accepted state and when an assertion was
last accepted, whether it is stuck, whether 10 us have not passed since its last token, the events to fold into the
next one, and whether that one is due, and has to say that the input is stuck or re-armed. -/
structure EvtIn where
  raw : Bool
  since : BitVec 64
  level : Bool
  risen : BitVec 64
  stuck : Bool
  spacing : Bool
  coalesced : BitVec 16
  stuckDue : Bool
  rearmDue : Bool
  deriving DecidableEq, Repr

/-- The platform (16 R666 to R709): event inputs; outputs turned off by a short and outputs reported open (bit 0
ALIVE_A, 1 ALIVE_B, 2 HEALTH); each feed (0 in use, 1 lost, 2 disconnected); the step a brown-out flush reached, until
the module starts again; rails (bit 0 standby, 1 analogue, 2 core, 3 I/O), the sequencing faults since the last good
power-up and whether the retry is awaited; the module held on the standby rail, and what protects it (bits 0 to 15 a
die, 16 the flow); fitted transceiver modules in W (QSFP-DD cages 0 to 7, OSFP 8 to 15); the ledger closed by a flush;
since when the calendar clock runs from the supercapacitor without the standby rail, and whether it has stopped. -/
structure Plat where
  evts : Map EvtIn
  shortOut : BitVec 3
  openOut : BitVec 3
  feeds : Map (BitVec 2)
  flushed : Option (BitVec 3)
  standbyOnly : Bool
  rails : BitVec 4
  seqTries : Nat
  seqHold : Bool
  protect : BitVec 17
  cages : Map Byte
  ledgerClosed : Bool
  capSince : Option (BitVec 64)
  clockStopped : Bool
  deriving DecidableEq, Repr

/-! ### The whole machine -/

/-- What the module has sent outside. -/
inductive Out where
  | frame (port : BitVec 4) (typ : BitVec 4) (f : CFrame)
  | token (snd : Sender) (t : Token)
  | tokenAck (snd : Sender)
  | tokenReturn (snd : Sender)
  | tokenReject (snd : Sender)
  | message (c : Instr)
  | msix (m : BitVec 5)
  | response (m : BitVec 5) (bytes : List Byte)
  | ident (port : BitVec 3) (m : Ident)
  | flowctl (port : BitVec 3) (what : Byte)
  | hart (what : Byte) (value : Word)
  | decision (group : Bool) (epoch : Word) (d : Decision)
  | mirror (partner : BitVec 12) (entry : List Word)
  | mirrorAck (tn : BitVec 64)
  | pps
  | log (r : LogRec)
  | debug (bytes : List Byte)
  | tdo (bits : List Bool)
  | notify (what : Byte) (value : Word)
  | placement (module : BitVec 12) (part : BitVec 6) (sid : BitVec 16) (code hint : Word)
      (cont : Option Cont)
  | freeFrame (ctx : Word) (sid : BitVec 16)
  deriving DecidableEq, Repr

/-- The machine. -/
structure State where
  /-- the queue of the commands that wait, first in first out -/
  pending : List Instr
  /-- registers, by system-window address, as the difference from their reset value -/
  regs : Map Word
  /-- high words latched by a read of NAME_LO (00 R12) -/
  hiLatch : Map (Option Word)
  /-- low words held by a write of NAME_LO (00 R12) -/
  loHold : Map Word
  /-- memory of the module: tagged words by word index, EMPTY where unlisted (01 R27) -/
  mem : Map TWord
  frames : Map Frame
  ctxMap : Map CtxEnt
  cells : Map CellSt
  slots : Map Slot
  retained : List Retained
  waitRecs : List (Who × WaitRec)
  clusters : Map Cluster
  homes : Map Home
  parts : Map Part
  workqs : Map WorkQ
  flows : Map Flow
  items : List WItem
  /-- corrected and uncorrectable errors of each memory channel, by 5 times the group plus the channel (14 R603) -/
  memErrs : Map (Nat × Nat)
  /-- migrations in progress, from step 1 to step 9: the frame, its old and its new cell (07 R298, R301) -/
  inMove : List (BitVec 20 × CellId × CellId)
  moves : Map PageMove
  samples : Map (Nat × Nat × Nat)
  placePtr : Nat
  ports : Map Port
  outTx : List OutTx
  /-- copies of the mirror partner's entries (11 R477) -/
  copies : List Ledger
  ledger : Map Ledger
  dups : Map DupWin
  tn : BitVec 64
  classes : Map EClass
  keys : Map Key
  wraps : Map (BitVec 64)
  drbg : Nat
  col : Collector
  ben : Benus
  hier : Hier
  dbg : Dbg
  plat : Plat
  /-- deliveries inside the module that are still on their way, as the command that delivers each -/
  wire : List Instr
  /-- everything the module has sent outside, oldest first -/
  out : List Out
  /-- system time in ns (15 R641) -/
  now : BitVec 64
  /-- the model's own: numbers handed to retained copies, requests and entries -/
  ids : Nat
  /-- the model's own: how many free values have been drawn -/
  free : Nat
  deriving DecidableEq, Repr

/-- Why the machine stops. -/
inductive Fault where
  /-- An access to a machine address outside the 1 TiB of memory (01 R22). No meaning raises it: every address that
  a stage-2 leaf names lies inside (08 R339), and a debug access beyond answers with a status (15 R656). Safe. -/
  | noSuchAddress (address : Nat)
  deriving DecidableEq, Repr

/-- Why a command is refused. -/
inductive Refusal where
  /-- The command has no meaning in the model yet. Raised by the dispatcher only; safe. -/
  | notModelled (mnemonic : String)
  /-- The access reaches a device block whose registers the spec does not describe (ground ii of the
  task). Raised by side-effect accesses and register commands; safe. -/
  | deviceNotDescribed (address : BitVec 24)
  deriving DecidableEq, Repr

/-! ### Reset -/

/-- The fault collector right after reset: no source asserted, no record, ALIVE stopped (13 R577). -/
def Collector.start : Collector :=
  { srcs := [], store := [], aliveA := false, aliveB := false, benusFed := false, collectorFed := false,
    armed := true, failMark := [], copying := [], lostCells := [], selfTests := [] }

/-- Benus right after reset, before MODULE_START (assumption 4). The pool that it reserves for page moves holds four
blocks below the first free one (08 R327; DESIGN CHOICE, assumption 29). -/
def Benus.start : Benus :=
  { running := false, ready := false, recovered := false, exchanging := false, mbx := [], order := [], journal := [], tls := [],
    fw := [], staging := [], bootImages := [], config := [], sensors := [], ram := [], flash := [],
    forwarded := 0, lseq := 0, tai := 0, taiNs := 0, utcOff := 0, calSource := 0, calValid := false,
    calStored := 0, backup := false, patch := none, bootKey := [], rootKey := [], nextRec := 0,
    hartLog := [], blocks := [], movePool := [1536, 1537, 1538, 1539], lostRecs := 0 }

/-- The module before it is numbered: an unnumbered Hind (15 R630; assumption 4). -/
def Hier.start : Hier :=
  { system := 0, numbered := false, modn := 0, role := 0, pendingRole := none, gepoch := 0, sepoch := 0,
    ports := [], lease := false, heartbeat := false, standbyOf := none, deadMods := [], gone := [], decisions := [],
    partner := none, ptpMaster := false, holdover := false, locked := false,
    offset := 0, ppsCentre := 0, ppsOffsets := [], lastPps := 0, summaries := [] }

/-- No debug authorisation (15 R655). -/
def Dbg.start : Dbg :=
  { isOpen := false, scope := 0, keyId := 0, expiry := 0, nonce := none, breaks := [], tbreaks := [], watches := []
    ir := 1, boundary := [], bypassBit := false, responses := [] }

/-- The platform before its rails are sequenced (16 R694). -/
def Plat.start : Plat :=
  { evts := [], shortOut := 0, openOut := 0, feeds := [], flushed := none, standbyOnly := false, rails := 0
    seqTries := 0, seqHold := false, protect := 0, cages := [], ledgerClosed := false, capSince := none
    clockStopped := false }

/-- The machine right after reset: no command waits, every register at its reset value (00 R13),
every table empty and memory with nothing listed. What a start then does is MODULE_START's. -/
def State.reset : State :=
  { pending := [], regs := [], hiLatch := [], loHold := [], mem := [], frames := [], ctxMap := [],
    cells := [], slots := [], retained := [], waitRecs := [], clusters := [], homes := [], parts := [],
    workqs := [], flows := [], items := [], memErrs := [], inMove := [], moves := [], samples := [], placePtr := 0, ports := [],
    outTx := [], copies := [], ledger := [], dups := [], tn := 0, classes := [], keys := [], wraps := [], drbg := 0,
    col := Collector.start, ben := Benus.start, hier := Hier.start, dbg := Dbg.start,
    plat := Plat.start, wire := [], out := [], now := 0, ids := 1, free := 0 }

end Sys2Proof.Machine
end

