-- ==== Sys2Proof/Machine/Ops.lean ====
section
/-! DEFINITION. Reading and writing the state: sparse tables, what each table reads as where nothing is
listed, memory words, the wire, the outputs, free values and fresh numbers. -/

namespace Sys2Proof.Machine

/-- The outcome of a command. -/
abbrev Outcome := Host.Outcome State Fault Refusal

/-! ### Sparse tables -/

/-- What a table reads as at `k`; `d` where nothing is listed. -/
def Map.get {α : Type} (d : α) : Map α → Nat → α
  | [], _ => d
  | (i, v) :: m, k => if i = k then v else Map.get d m k

/-- `m` without any entry at `k`. -/
def Map.del {α : Type} (m : Map α) (k : Nat) : Map α := m.filter (fun e => e.1 != k)

/-- Put an entry before the first larger key. -/
def Map.insert {α : Type} (k : Nat) (v : α) : Map α → Map α
  | [] => [(k, v)]
  | (i, w) :: m => if k < i then (k, v) :: (i, w) :: m else (i, w) :: Map.insert k v m

/-- Write `v` at `k`; writing what an unlisted key reads as removes the entry. -/
def Map.set {α : Type} [DecidableEq α] (d : α) (m : Map α) (k : Nat) (v : α) : Map α :=
  if v = d then Map.del m k else Map.insert k v (Map.del m k)

/-- Keys strictly rising. -/
def Map.rising {α : Type} : Map α → Bool
  | [] => true
  | [_] => true
  | (i, _) :: (j, w) :: m => decide (i < j) && Map.rising ((j, w) :: m)

/-- The canonical form: keys strictly rising and no entry at the default. -/
def Map.wf {α : Type} [DecidableEq α] (d : α) (m : Map α) : Bool :=
  Map.rising m && m.all (fun e => decide (e.2 ≠ d))

/-- The memory's canonical form: every word unlisted reads EMPTY with data 0. -/
def Memory.wf (m : Map TWord) : Bool := Map.wf TWord.empty m

/-! ### What an unlisted entry reads as -/

def cell0 : CellSt :=
  { inq := [], ready := [], ms := [], side := [], refillPtr := 0, hdr := [], hdrWait := [], stbuf := [],
    reqs := [], lines := [], linePtr := [], tlb := [], vectors := [], prefetch := [], owner := none, run := 0, buf := none,
    fwd := [], draining := false, stopped := false, narrowed := false,
    parked := [], storecs := 0, ovf := [], ovfHead := 0, locks := [], scans := [] }

def act0 : Activity :=
  { ctx := 0, stmt := 0, iter := 0, port := 0, g1 := TWord.zero, g2 := TWord.zero, used := 0 }

def shadow0 : Shadow :=
  { regs := [], its := 0, fpc := 0, fpf := 0, uaw := 0, xsid := 0, pc := 0, items := 0, wins := 0, handler := false, sup := false }

def slot0 : Slot :=
  { state := .idle, act := act0, sid := 0, part := 0, pc := 0, regs := [], its := 0, fpc := 0, fpf := 0,
    xsid := 0, uaw := 0, ecause := 0, einfo := 0, epc := 0, eaddr := 0, sup := false, items := 0,
    sends := [], sealedItems := 0, wins := [], timeHi := none, resv := none, storecFails := 0,
    holdProbes := false, iter := none, loads := [], walk := none, wait := .none, dueMc := none,
    dueDbg := none, dueTs := false, noSlice := false, abandoned := none, passed := none, watched := none, storeLost := false, porchWaited := false, shadow := shadow0, retries := 0,
    lost := false, halted := none, stepping := 0, afterSvc := 0, agreed := false }

def frame0 : Frame :=
  { sid := 0, part := 0, state := 0, saved := 0, due := false, persist := false, ctx := 0, code := 0, count := 0, base := 0,
    win := 0, weff := 0, contCtx := 0, contStmt := 0, contIter := 0, contPort := 0, contSid := 0,
    holdHead := 0, lastCommit := 0, committed := false, total := 0, remote := 0, aff := 0, cls := 0,
    port := 0, pin := false, nomig := false, candCl := 0, candCnt := 0, holdLeft := 0, deferAddr := 0,
    deferCnt := 0, retire := 0, slots := [], tracing := false }

def ctxEnt0 : CtxEnt := { valid := false, moving := false, cell := 0, version := 0 }

def sector0 : Sector := { st := 0, dirty := false, data := [] }

def block0 : Block := { block := 0, used := false, fill := false, home := 0, sectors := [] }

def pair0 : PantryPair := { step := 0, wasFixed := false, masks := [], leaf := 0, mailbox := none }

def cluster0 : Cluster :=
  { ways := [], misses := [], porch := [], pairs := [], pantry := [], tlb := [], tlb2 := [], roots := [],
    mapCache := [], trace := [], newBank := false, bank0 := { body := [], patch := [] }, bank1 := { body := [], patch := [] }, rewritten := [], cellMhz := 2400, turn := 0 }

def dir0 : DirEnt :=
  { v := false, pin := false, tag := 0, ds := [], owner := [], wb := [], sharers := [] }

def home0 : Home :=
  { dir := [], trans := [], queue := [], starve := [], retried := [], resv := [], heard := [],
    pantryHold := [], pantryMap := [], pageSamples := [], sampleCnt := 0 }

def part0 : Part :=
  { isLive := false, quiesced := false, cells := [], twin := false, memMib := 0, quota := 0,
    devices := 0, cellar := 0, span := [], weights := [], epoch := 0, spanPtr := 0,
    pins := [], affs := [], lowLevels := [], exhausted := false, ring := 0, notice := none, noticeWait := [], ledgerQuota := 0, keyQuota := 0, record := [] }

def workq0 : WorkQ :=
  { bound := false, sid := 0, ring := 0, entries := 0, free := [], items := [],
    parked := [] }

def flow0 : Flow :=
  { bound := false, part := 0, queue := 0, window := 0, limit := 0, nextSeq := 0, nextRel := 0,
    headSince := 0, full := false, held := [], waiting := [] }

def move0 : PageMove :=
  { active := false, part := 0, pblk := 0, source := 0, target := 0, homing := 0, copied := 0 }

def program0 : Program :=
  { running := false, header := 0, part := 0, sid := 0, item := none, final := false, stmt := 0, tport := 0,
    order := 0, words := [], held := false, entry := none, streaming := false, event := none, outcome := 0,
    residual := 0, tn := 0, wfault := false, done := [], due := 0 }

def sub0 : Sub := { bound := false, sid := 0, part := 0, lch := 0, slices := [], prog := program0 }

def linkCh0 : LinkCh :=
  { creditOut := 0, startedOut := 0, creditIn := 0, startedIn := 0, draining := false, ending := false,
    paused := [], pausing := [], resumed := [], alts := [] }

def port0 : Port :=
  { link := 0, pcs := false, session := 0, proposal := 0, fseq := 0, lastFseq := 0, ackseq := 0, unacked := [], sinceAck := 0,
    timeouts := 0, maxPay := 0, window := 0, caps := 0, peer := 0, peerModule := false, side := false,
    failedSides := 0, standbyOk := false, switching := false, swapping := false, testing := false,
    swapMbx := none, pausedPrios := 0, rx := [], txq := [], held := [], resolves := [], subs := [], lchs := [] }

def entry0 : Ledger :=
  { state := 0, tn := 0, outcome := 0, kind := 0, path := 0, sid := 0, sub := 0, count := 0, flow := 0,
    partner := 0, itemTn := 0, opened := 0, body := [], part := 0, isMirrored := false,
    doubted := false, doneTok := none, desc := 0,
    token := 0 }

def dup0 : DupWin := { highest := 0, performed := [], fenced := [] }

def slice0 : Slice :=
  { state := 0, sid := 0, part := 0, depth := 0, share := 0, credit := 0, queue := [], waitMbx := none }

def eclass0 : EClass := { slices := [], turn := 0 }

def key0 : Key := { inUse := false, gen := 0, sid := 0, typ := 0, material := [] }

def source0 : Source :=
  { raw := false, asserted := false, openWin := false, samples := 0, rails := 1, pending := false
    injected := false, storm := false, interval := 0, stormEvents := 0, kept := none }

def mailbox0 : Mailbox :=
  { owner := 0, part := 0, transport := none, classes := 0, fingerprint := 0, state := 0, request := [],
    response := [], overrun := false, irqEn := false, block := none, progress := 0, restarted := false,
    newOwner := [] }

def fw0 : FwKind :=
  { active := false, imgA := [], imgB := [], patchA := [], patchB := [], counter := 0, trial := false, trialFails := 0 }

def staging0 : Staging := { bytes := [], complete := false }

def sensor0 : Sensor := { value := 0, low := 0, high := 0, state := 0, seen := false }

def fabPort0 : FabPort := { up := false, state := 0, peer := none }

def evtIn0 : EvtIn :=
  { raw := false, since := 0, level := false, risen := 0, stuck := false, spacing := false, coalesced := 0
    stuckDue := false, rearmDue := false }

/-- The key of a strand slot. -/
def slotKey (c : CellId) (k : SlotId) : Nat := c.toNat * 8 + k.toNat

/-! ### Reading and writing the tables of the state -/

/-- Reading and writing `cells`. -/
def State.cell (s : State) (c : CellId) : CellSt := Map.get cell0 s.cells c.toNat
def State.setCell (s : State) (c : CellId) (v : CellSt) : State := { s with cells := Map.set cell0 s.cells c.toNat v }
def State.modCell (s : State) (c : CellId) (upd : CellSt → CellSt) : State := s.setCell c (upd (s.cell c))

/-- Reading and writing `slots`. -/
def State.slot (s : State) (c : CellId) (k : SlotId) : Slot := Map.get slot0 s.slots (slotKey c k)
def State.setSlot (s : State) (c : CellId) (k : SlotId) (v : Slot) : State := { s with slots := Map.set slot0 s.slots (slotKey c k) v }
def State.modSlot (s : State) (c : CellId) (k : SlotId) (upd : Slot → Slot) : State := s.setSlot c k (upd (s.slot c k))

/-- Reading and writing `frames`. -/
def State.frame (s : State) (f : BitVec 20) : Frame := Map.get frame0 s.frames f.toNat
def State.setFrame (s : State) (f : BitVec 20) (v : Frame) : State := { s with frames := Map.set frame0 s.frames f.toNat v }
def State.modFrame (s : State) (f : BitVec 20) (upd : Frame → Frame) : State := s.setFrame f (upd (s.frame f))

/-- Reading and writing `ctxMap`. -/
def State.ctxEnt (s : State) (f : BitVec 20) : CtxEnt := Map.get ctxEnt0 s.ctxMap f.toNat
def State.setCtxEnt (s : State) (f : BitVec 20) (v : CtxEnt) : State := { s with ctxMap := Map.set ctxEnt0 s.ctxMap f.toNat v }
def State.modCtxEnt (s : State) (f : BitVec 20) (upd : CtxEnt → CtxEnt) : State := s.setCtxEnt f (upd (s.ctxEnt f))

/-- Reading and writing `clusters`. -/
def State.cluster (s : State) (g : BitVec 4) : Cluster := Map.get cluster0 s.clusters g.toNat
def State.setCluster (s : State) (g : BitVec 4) (v : Cluster) : State := { s with clusters := Map.set cluster0 s.clusters g.toNat v }
def State.modCluster (s : State) (g : BitVec 4) (upd : Cluster → Cluster) : State := s.setCluster g (upd (s.cluster g))

/-- Reading and writing `homes`. -/
def State.home (s : State) (h : BitVec 4) : Home := Map.get home0 s.homes h.toNat
def State.setHome (s : State) (h : BitVec 4) (v : Home) : State := { s with homes := Map.set home0 s.homes h.toNat v }
def State.modHome (s : State) (h : BitVec 4) (upd : Home → Home) : State := s.setHome h (upd (s.home h))

/-- A mailbox, and replacing it. -/
def State.mbx (s : State) (m : BitVec 5) : Mailbox := Map.get mailbox0 s.ben.mbx m.toNat
def State.setMbx (s : State) (m : BitVec 5) (b : Mailbox) : State :=
  { s with ben := { s.ben with mbx := Map.set mailbox0 s.ben.mbx m.toNat b } }
def State.modMbx (s : State) (m : BitVec 5) (f : Mailbox → Mailbox) : State := s.setMbx m (f (s.mbx m))

/-- Reading and writing `parts`. -/
def State.part (s : State) (p : BitVec 6) : Part := Map.get part0 s.parts p.toNat
def State.setPart (s : State) (p : BitVec 6) (v : Part) : State := { s with parts := Map.set part0 s.parts p.toNat v }
def State.modPart (s : State) (p : BitVec 6) (upd : Part → Part) : State := s.setPart p (upd (s.part p))

/-- Reading and writing `workqs`. -/
def State.workq (s : State) (p q : BitVec 6) : WorkQ := Map.get workq0 s.workqs (p.toNat * 64 + q.toNat)
def State.setWorkq (s : State) (p q : BitVec 6) (v : WorkQ) : State := { s with workqs := Map.set workq0 s.workqs (p.toNat * 64 + q.toNat) v }
def State.modWorkq (s : State) (p q : BitVec 6) (upd : WorkQ → WorkQ) : State := s.setWorkq p q (upd (s.workq p q))

/-- Reading and writing `flows`. -/
def State.flow (s : State) (f : BitVec 12) : Flow := Map.get flow0 s.flows f.toNat
def State.setFlow (s : State) (f : BitVec 12) (v : Flow) : State := { s with flows := Map.set flow0 s.flows f.toNat v }
def State.modFlow (s : State) (f : BitVec 12) (upd : Flow → Flow) : State := s.setFlow f (upd (s.flow f))

/-- Reading and writing `moves`. -/
def State.move (s : State) (m : BitVec 2) : PageMove := Map.get move0 s.moves m.toNat
def State.setMove (s : State) (m : BitVec 2) (v : PageMove) : State := { s with moves := Map.set move0 s.moves m.toNat v }
def State.modMove (s : State) (m : BitVec 2) (upd : PageMove → PageMove) : State := s.setMove m (upd (s.move m))

/-- Reading and writing `ports`. -/
def State.port (s : State) (p : BitVec 4) : Port := Map.get port0 s.ports p.toNat
def State.setPort (s : State) (p : BitVec 4) (v : Port) : State := { s with ports := Map.set port0 s.ports p.toNat v }
def State.modPort (s : State) (p : BitVec 4) (upd : Port → Port) : State := s.setPort p (upd (s.port p))

/-- The port number of a channel port. -/
def chPort (n : BitVec 3) : BitVec 4 := n.setWidth 4

/-- A subchannel of a channel port, and changing it. -/
def State.sub (s : State) (n : BitVec 3) (b : BitVec 8) : Sub := Map.get sub0 (s.port (chPort n)).subs b.toNat
def State.modSub (s : State) (n : BitVec 3) (b : BitVec 8) (upd : Sub → Sub) : State :=
  s.modPort (chPort n) fun p => { p with subs := Map.set sub0 p.subs b.toNat (upd (Map.get sub0 p.subs b.toNat)) }

/-- A link channel of a port, and changing it. -/
def State.lch (s : State) (n : BitVec 4) (l : BitVec 16) : LinkCh := Map.get linkCh0 (s.port n).lchs l.toNat
def State.modLch (s : State) (n : BitVec 4) (l : BitVec 16) (upd : LinkCh → LinkCh) : State :=
  s.modPort n fun p => { p with lchs := Map.set linkCh0 p.lchs l.toNat (upd (Map.get linkCh0 p.lchs l.toNat)) }

/-- Reading and writing `ledger`. -/
def State.entry (s : State) (i : Nat) : Ledger := Map.get entry0 s.ledger i
def State.setEntry (s : State) (i : Nat) (v : Ledger) : State := { s with ledger := Map.set entry0 s.ledger i v }
def State.modEntry (s : State) (i : Nat) (upd : Ledger → Ledger) : State := s.setEntry i (upd (s.entry i))

/-- Reading and writing `dups`. -/
def State.dup (s : State) (o : Nat) : DupWin := Map.get dup0 s.dups o
def State.setDup (s : State) (o : Nat) (v : DupWin) : State := { s with dups := Map.set dup0 s.dups o v }
def State.modDup (s : State) (o : Nat) (upd : DupWin → DupWin) : State := s.setDup o (upd (s.dup o))

/-- Reading and writing `classes`. -/
def State.eclass (s : State) (k : BitVec 3) : EClass := Map.get eclass0 s.classes k.toNat
def State.setEclass (s : State) (k : BitVec 3) (v : EClass) : State := { s with classes := Map.set eclass0 s.classes k.toNat v }
def State.modEclass (s : State) (k : BitVec 3) (upd : EClass → EClass) : State := s.setEclass k (upd (s.eclass k))

/-- Reading and writing `keys`. -/
def State.key (s : State) (i : Nat) : Key := Map.get key0 s.keys i
def State.setKey (s : State) (i : Nat) (v : Key) : State := { s with keys := Map.set key0 s.keys i v }
def State.modKey (s : State) (i : Nat) (upd : Key → Key) : State := s.setKey i (upd (s.key i))

/-! ### Cells, clusters and addresses -/

/-- The cluster of a cell (02 R79). -/
def clusterOf (c : CellId) : BitVec 4 := (c >>> 4).setWidth 4

/-- The logical cell within its cluster. -/
def cellIndex (c : CellId) : Nat := c.toNat % 16

/-- The cell of a cluster and an index. -/
def cellAt (g : BitVec 4) (n : Nat) : CellId := BitVec.ofNat 8 (g.toNat * 16 + n)

/-- Every cell of a cluster. -/
def cellsOf (g : BitVec 4) : List CellId := (List.range 16).map (cellAt g)

/-- Every cluster, and every cell of the module (01 R22). -/
def allClusters : List (BitVec 4) := (List.range 16).map (BitVec.ofNat 4)
def allCells : List CellId := (List.range 256).map (BitVec.ofNat 8)

/-- The slots of a cell, lowest first (01 R22). -/
def allSlots : List SlotId := (List.range 8).map (BitVec.ofNat 3)

/-- Words of one module's memory: 1 TiB (01 R22). -/
def wordsPerModule : Nat := 2 ^ 38

/-- The sector, and the block, of a machine word (09 R373). -/
def sectorOf (w : Nat) : Nat := w / 16
def blockOf (w : Nat) : Nat := w / 64

/-- One nanosecond passes: the system time and the calendar clock count it (15 R641, 14 R625; assumption 5). -/
def State.tick (s : State) : State :=
  let b := s.ben
  let full := b.taiNs + 1 == 1000000000
  { s with
    now := s.now + 1
    ben := { b with tai := if full then b.tai + 1 else b.tai, taiNs := if full then 0 else b.taiNs + 1 } }

/-! ### Messages, outputs, fresh numbers and free values -/

/-- Put a delivery on its way inside the module. -/
def State.post (s : State) (c : Instr) : State := { s with wire := s.wire ++ [c] }

/-- Put several deliveries on their way, in order. -/
def State.postAll (s : State) (cs : List Instr) : State := { s with wire := s.wire ++ cs }

/-- The delivery arrives: it leaves the wire; none when it is not on its way. -/
def State.arrive (s : State) (c : Instr) : Option State :=
  if c ∈ s.wire then some { s with wire := s.wire.erase c } else none

/-- Send something outside. -/
def State.emit (s : State) (o : Out) : State := { s with out := s.out ++ [o] }

/-- A fresh number. -/
def State.fresh (s : State) : Nat × State := (s.ids, { s with ids := s.ids + 1 })

/-- FREE VALUE: draw the next open value (Config.freeValue, assumption 2). -/
def State.draw (s : State) : BitVec 64 × State :=
  (Config.freeValue s.free, { s with free := s.free + 1 })

/-- FREE VALUE: draw `n` open bytes. -/
def State.drawBytes : Nat → State → List Byte × State
  | 0, s => ([], s)
  | n + 1, s =>
    let (b, s') := s.draw
    let (bs, s'') := State.drawBytes n s'
    (b.setWidth 8 :: bs, s'')

/-- A command whose step cannot come about in this state changes nothing (assumption 3). -/
def idle (s : State) : Outcome := .next s

/-- Do `f` when the delivery `c` is on its way, else nothing (assumption 3). -/
def onArrival (c : Instr) (s : State) (f : State → Outcome) : Outcome :=
  match s.arrive c with
  | some s' => f s'
  | none => idle s

/-- Do `f` when `b` holds, else nothing (assumption 3). -/
def whenever (b : Bool) (s : State) (f : State → Outcome) : Outcome := if b then f s else idle s

/-- Fold a state change over a list. -/
def State.each {α : Type} (s : State) (xs : List α) (f : State → α → State) : State := xs.foldl f s

/-! ### Bit fields and bytes -/

/-- Bits [hi:lo] of a word, as a number (00 R7). -/
def field (w : Word) (hi lo : Nat) : Nat := w.toNat / 2 ^ lo % 2 ^ (hi + 1 - lo)

/-- Replace bits [hi:lo] of a word. -/
def withField (w : Word) (hi lo : Nat) (v : Nat) : Word :=
  let m : Word := BitVec.ofNat 32 ((2 ^ (hi + 1 - lo) - 1) * 2 ^ lo)
  (w &&& ~~~m) ||| (BitVec.ofNat 32 (v * 2 ^ lo) &&& m)

/-- One bit of a word. -/
def bit (w : Word) (i : Nat) : Bool := w.getLsbD i

/-- The bytes of a word, least significant first (00 R8). -/
def wordBytes (w : Word) : List Byte := (List.range 4).map (fun i => (w >>> (8 * i)).setWidth 8)

/-- A number from bytes, least significant first (00 R8). -/
def leNat : List Byte → Nat
  | [] => 0
  | b :: bs => b.toNat + 256 * leNat bs

/-- `n` bytes of a number, least significant first. -/
def natLe (n v : Nat) : List Byte := (List.range n).map (fun i => BitVec.ofNat 8 (v / 256 ^ i))

/-- A number from bytes, most significant first. -/
def beNat (bs : List Byte) : Nat := bs.foldl (fun a b => a * 256 + b.toNat) 0

/-- `n` bytes of a number, most significant first. -/
def natBe (n v : Nat) : List Byte := (natLe n v).reverse

/-- Words from bytes: each four bytes form one word (00 R8). -/
def bytesWords : Nat → List Byte → List Word
  | 0, _ => []
  | n + 1, bs => if bs = [] then [] else BitVec.ofNat 32 (leNat (bs.take 4)) :: bytesWords n (bs.drop 4)

/-- The field of `n` bytes at offset `o`. -/
def bytesAt (bs : List Byte) (o n : Nat) : Nat := leNat ((bs.drop o).take n)

/-- Replace the bytes at offset `o`. -/
def putBytes (bs : List Byte) (o : Nat) (v : List Byte) : List Byte :=
  bs.take o ++ v ++ bs.drop (o + v.length)

/-- Saturating sum of widths below a word. -/
def satAdd (mx v k : Nat) : Nat := min mx (v + k)

end Sys2Proof.Machine
end

