-- ==== Sys2Proof/Machine/Regs.lean ====
section
/-! DEFINITION. The memory-mapped registers (00 R10 to R16): the map of the system window with each
register's access masks and reset value, and reading, writing and counting in them. What a register
command does stands in Registers.lean. -/

namespace Sys2Proof.Machine

/-- A register by the masks of its access types (00 R14): a bit in no mask is RO, WO or RSV. `bus` bits
Benus writes over the management bus (01 R25, 13 R576, 12 R529); `lockAt` is the register whose bit 31
locks the RWL bits (00 R16). -/
structure RegSpec where
  rw : Word := 0
  rwl : Word := 0
  w1c : Word := 0
  w1s : Word := 0
  bus : Word := 0
  busSet : Word := 0
  reset : Word := 0
  lockAt : Nat := 0
  deriving DecidableEq, Repr

/-- The bases of the register blocks. -/
def clcBase (g : Nat) : Nat := 0x00E00000 + g * 0x10000
def trnBase (g : Nat) : Nat := 0x00F00000 + g * 0x1000
def cchBase (g : Nat) : Nat := 0x00F10000 + g * 0x1000
def dirBase (h : Nat) : Nat := 0x00F20000 + h * 0x1000
def chnBase (p : Nat) : Nat := 0x00F30000 + p * 0x1000
def ldgBase : Nat := 0x00F38000
def lfmBase : Nat := 0x00F40000
def cryBase (k : Nat) : Nat := 0x00F50000 + (k - 1) * 0x1000
def tstBase : Nat := 0x00F60000
def fclBase : Nat := 0x00F70000
def pmcBase (g : Nat) : Nat := 0x00F80000 + g * 0x4000

/-- The offset lies in a table of `n` registers that begins at `o`. -/
def within (off o n : Nat) : Bool := decide (o ≤ off) && decide (off < o + 4 * n)

def roReg : RegSpec := {}

/-- Bit 31, the LOCK bit of a register. -/
def lockBit : Word := 0x80000000

/-- Cluster controller block: 02 R87 to R92, 04 R182 to R184, 05 R239 to R241, 06 R278 to R280,
07 R320 to R323, 15 R663, 13 R573 to R575. -/
def clcSpec (b off : Nat) : Option RegSpec :=
  match off with
  | 0x800 => some { w1s := lockBit, rwl := 0x00011FFF, reset := 0x00010000, lockAt := b + 0x800 }
  | 0x804 => some { rwl := 0x0F1F3F3F, reset := 0x040F3820, lockAt := b + 0x800 }
  | 0x808 => some { rwl := 0xFFFFFFC0, lockAt := b + 0x800 }
  | 0x80C => some { rwl := 0x000000FF, lockAt := b + 0x800 }
  | 0xA00 => some { w1s := lockBit, rwl := 0x00000001, lockAt := b + 0xA00 }
  | 0xB00 => some { w1s := lockBit, rwl := 0x00001F3F, reset := 0x0000103F, lockAt := b + 0xB00 }
  | 0xC00 => some { w1s := lockBit, rwl := 0x00010F00, reset := 0x00010A00, lockAt := b + 0xC00 }
  | 0xC04 | 0xC08 | 0xC0C | 0xE00 | 0xE04 | 0xE44 | 0xF04 => some roReg
  | 0xD00 => some { w1s := lockBit, rwl := 0x01F1FFDF, reset := 0x01614A0A, lockAt := b + 0xD00 }
  | 0xD04 => some { rwl := 0xFFFFFF00, reset := 0x04011000, lockAt := b + 0xD00 }
  | 0xE40 => some { w1s := lockBit, rwl := 0x00FF0F00, reset := 0x00000300, lockAt := b + 0xE40 }
  | 0xF00 => some { w1s := lockBit, rwl := 0x00001F03, reset := 0x00000902, lockAt := b + 0xF00 }
  | _ =>
    if within off 0x840 112 then some roReg
    else if within off 0xA40 16 then some roReg
    else if within off 0xB40 16 then some { rw := 0xFFFFFFFF }
    else if within off 0xB80 16 then some { rw := 0x0000FFFF }
    else if within off 0xBC0 16 then some roReg
    else if within off 0xC40 18 then some roReg
    else if within off 0xCA0 18 then some roReg
    else if within off 0xD40 48 then some roReg
    else if within off 0xF40 16 then some { reset := BitVec.ofNat 32 ((off - 0xF40) / 4) }
    else if within off 0xF80 32 then some roReg
    else none

/-- Translation block: 08 R362 to R365. -/
def trnSpec (b off : Nat) : Option RegSpec :=
  match off with
  | 0x000 => some { w1s := lockBit, rwl := 0x0000FFF0, reset := 0x00000AF0, lockAt := b }
  | 0x008 => some { rwl := 0xFFF00000, lockAt := b }
  | 0x00C => some { rwl := 0x000000FF, lockAt := b }
  | 0x010 => some { rwl := 0xFFE00000, lockAt := b }
  | 0x014 => some { rwl := 0x000000FF, lockAt := b }
  | _ => if within off 0x020 6 || within off 0x040 16 then some roReg else none

/-- Cache block: 09 R405 to R410. -/
def cchSpec (b off : Nat) : Option RegSpec :=
  match off with
  | 0x000 => some { w1s := lockBit, rwl := 0x00000003, reset := 0x00000003, lockAt := b }
  | 0x004 => some roReg
  | 0x008 => some { rwl := 0x0000FFFF, reset := 0x00000001, lockAt := b }
  | _ =>
    if within off 0x010 12 then some roReg
    else if within off 0x080 16 then some roReg
    else if within off 0x100 64 then some { rw := 0x0000FFFF, reset := 0x0000FFFF }
    else none

/-- Directory block: 10 R450 to R453. -/
def dirSpec (b off : Nat) : Option RegSpec :=
  match off with
  | 0x000 => some { w1s := lockBit, rwl := 0x001F1F00, reset := 0x000C0A00, lockAt := b }
  | 0x004 => some roReg
  | 0x008 => some { rwl := 0x0000FFFF, reset := 0x00000001, lockAt := b }
  | 0x00C => some { rwl := 0x000000F3, reset := 0x00000010, lockAt := b }
  | 0x010 | 0x014 | 0x018 => some roReg
  | _ => if within off 0x020 10 then some roReg else none

/-- Channel block and ledger registers: 11 R495 to R498. -/
def chnSpec (b off : Nat) : Option RegSpec :=
  match off with
  | 0x000 => some { w1s := lockBit, rwl := 0x0F73FFFF, reset := 0x082088B5, lockAt := b }
  | 0x00C => some { rwl := 0x000000FF, lockAt := b }
  | 0x004 | 0x008 => some roReg
  | _ => if within off 0x020 7 then some roReg else none

/-- Lenfaim and crypto blocks: 12 R529 to R532. -/
def engSpec (off : Nat) : Option RegSpec :=
  if within off 0x000 5 then some roReg
  else if within off 0x400 256 then
    if off % 16 = 0 then some { bus := 0xFFFFFFFF }
    else if off % 16 = 4 then some { bus := 0xC0000000 }
    else some roReg
  else none

/-- Perturbation block: 13 R578, R579. -/
def tstSpec (off : Nat) : Option RegSpec :=
  match off with
  | 0x000 => some roReg
  | 0x004 => some { rw := 0xE00007FF }
  | _ =>
    if within off 0x100 128 then
      match off % 0x20 with
      | 0x00 => some { rw := 0x00000FFF }
      | 0x04 => some { rw := 0x0000FFFF }
      | 0x08 => some { rw := 0x00000FFF }
      | 0x0C => some { rw := 0x8000FFFF, reset := 0x00000001 }
      | 0x10 => some { rw := 0x000FFFFF }
      | _ => none
    else none

/-- Fault collector and platform registers: 13 R576, R577, 16 R707 to R709. -/
def fclSpec (b off : Nat) : Option RegSpec :=
  match off with
  | 0x0000 => some { bus := 0x0000FFFF, reset := 0x00000064 }
  | 0x0004 | 0x000C | 0x0010 | 0x0084 | 0x0088 => some roReg
  | 0x0008 => some { reset := 0xC0000000 }
  | 0x0080 => some { busSet := lockBit }
  | _ =>
    if within off 0x0090 4 then some { bus := 0xFFF800BF, reset := 0x09980000, lockAt := b + 0x80 }
    else if within off 0x00A0 4 then some roReg
    else if within off 0x0200 48 || within off 0x0300 48 || within off 0x0400 48 then some roReg
    else if within off 0x1000 1536 then some { bus := 0xFFE0FF00, reset := 0x85200100 }
    else if within off 0x3000 1536 then some roReg
    else none

/-- PMC block: 15 R664, R665. -/
def pmcSpec (b off : Nat) : Option RegSpec :=
  if off < 0x1000 then
    let o := off % 0x100
    if o < 0x40 then some { rw := 0x0000F0FF, reset := 0x00003000 }
    else if o < 0xC0 then some { rw := if o % 8 = 0 then 0xFFFFFFFF else 0x0000FFFF }
    else if o = 0xC0 then some { rw := 0x00000001, w1c := 0x00000002 }
    else if o = 0xC4 then some { w1c := 0x0000FFFF }
    else none
  else if off < 0x2000 then if off % 0x100 < 0x80 then some roReg else none
  else match off with
    | 0x2000 => some { w1s := lockBit, rwl := 0x0000001F, reset := 0x00000014, lockAt := b + 0x2000 }
    | 0x2004 | 0x2008 | 0x200C | 0x2020 => some roReg
    | _ => none

/-- The map of the system window (00 R10): the register at a byte address, or none. -/
def regSpec (a : Nat) : Option RegSpec :=
  if a % 4 ≠ 0 then none
  else if 0x00E00000 ≤ a ∧ a < 0x00F00000 then
    clcSpec (a / 0x10000 * 0x10000) (a % 0x10000)
  else if a / 0x10000 = 0x00F0 then trnSpec (a / 0x1000 * 0x1000) (a % 0x1000)
  else if a / 0x10000 = 0x00F1 then cchSpec (a / 0x1000 * 0x1000) (a % 0x1000)
  else if a / 0x10000 = 0x00F2 then dirSpec (a / 0x1000 * 0x1000) (a % 0x1000)
  else if 0x00F30000 ≤ a ∧ a < 0x00F38000 then chnSpec (a / 0x1000 * 0x1000) (a % 0x1000)
  else if a = ldgBase ∨ a = ldgBase + 4 ∨ a = ldgBase + 8 then some roReg
  else if lfmBase ≤ a ∧ a < lfmBase + 0x1000 then engSpec (a % 0x1000)
  else if 0x00F50000 ≤ a ∧ a < 0x00F54000 then engSpec (a % 0x1000)
  else if tstBase ≤ a ∧ a < tstBase + 0x1000 then tstSpec (a % 0x1000)
  else if fclBase ≤ a ∧ a < fclBase + 0x10000 then fclSpec fclBase (a - fclBase)
  else if 0x00F80000 ≤ a ∧ a < 0x00FC0000 then pmcSpec (a / 0x4000 * 0x4000) (a % 0x4000)
  else none

/-- What a register takes on module reset (00 R13). -/
def regReset (a : Nat) : Word := match regSpec a with | some r => r.reset | none => 0

/-- The stored bits of a register. -/
def State.reg (s : State) (a : Nat) : Word := Map.get 0 s.regs a ^^^ regReset a

/-- Set the stored bits of a register, as hardware or Benus does. -/
def State.setReg (s : State) (a : Nat) (v : Word) : State :=
  { s with regs := Map.set 0 s.regs a (v ^^^ regReset a) }

/-- Return a register to its reset value (00 R13). -/
def State.resetReg (s : State) (a : Nat) : State := { s with regs := Map.del s.regs a }

/-- A field of a register. -/
def State.regField (s : State) (a hi lo : Nat) : Nat := field (s.reg a) hi lo

/-- Set a field of a register, as hardware or Benus does. -/
def State.setRegField (s : State) (a hi lo v : Nat) : State := s.setReg a (withField (s.reg a) hi lo v)

/-- Count one event in a 32-bit counter that saturates. -/
def State.bump (s : State) (a : Nat) : State :=
  s.setReg a (BitVec.ofNat 32 (satAdd 0xFFFFFFFF (s.reg a).toNat 1))

/-- Count several events. -/
def State.bumpBy (s : State) (a : Nat) : Nat → State
  | 0 => s
  | n + 1 => State.bumpBy (s.bump a) a n

/-- Count one event in a counter field that saturates at its maximum. -/
def State.bumpField (s : State) (a hi lo : Nat) : State :=
  s.setRegField a hi lo (satAdd (2 ^ (hi + 1 - lo) - 1) (s.regField a hi lo) 1)

/-- The lock of a register is set (00 R16). -/
def State.locked (s : State) (r : RegSpec) : Bool := r.lockAt != 0 && bit (s.reg r.lockAt) 31

/-- The bits a write replaces in the register, by access type (00 R14 to R16): RW and, while the lock
is clear, RWL bits take the value; W1C bits clear and W1S bits set where the value has 1; no other bit
changes. The lock takes effect after the write that sets it. -/
def regWritten (r : RegSpec) (isLocked : Bool) (old v : Word) : Word :=
  let m := r.rw ||| (if isLocked then 0 else r.rwl)
  (((old &&& ~~~m) ||| (v &&& m)) &&& ~~~(v &&& r.w1c)) ||| (v &&& r.w1s)

/-- A write through the system window (00 R14). -/
def State.regWrite (s : State) (a : Nat) (v : Word) : State :=
  match regSpec a with
  | none => s
  | some r => s.setReg a (regWritten r (s.locked r) (s.reg a) v)

/-- A write by Benus over the management bus: `bus` bits too, and a lock that only it sets (00 R16; 01 R25, 13 R576, 16
R707). -/
def State.busWrite (s : State) (a : Nat) (v : Word) : State :=
  match regSpec a with
  | none => s
  | some r =>
    let m := if s.locked r then 0 else r.bus
    let w := regWritten r (s.locked r) (s.reg a) v
    s.setReg a ((w &&& ~~~m) ||| (v &&& m) ||| (v &&& r.busSet))

/-- A reset of the block that holds a register returns its fields to their reset values, but for lock bits, and for RWL
fields while their lock is set (00 R13). -/
def State.blockResetReg (s : State) (a : Nat) : State :=
  match regSpec a with
  | none => s
  | some r =>
    let keep := r.w1s ||| r.busSet ||| (if s.locked r then r.rwl ||| r.bus else 0)
    s.setReg a ((r.reset &&& ~~~keep) ||| (s.reg a &&& keep))

/-- A reset of the block whose registers stand in the `n` bytes from `lo` on. -/
def State.blockResetRegs (s : State) (lo n : Nat) : State :=
  ((s.regs.map Prod.fst).filter fun a => decide (lo ≤ a) && decide (a < lo + n)).foldl State.blockResetReg s

/-- NAME_LO registers of a 64-bit pair (00 R12). -/
def isLo (a : Nat) : Bool :=
  if 0x00E00000 ≤ a ∧ a < 0x00F00000 then a % 0x10000 == 0x808
  else if a / 0x10000 = 0x00F0 then a % 0x1000 == 0x008 || a % 0x1000 == 0x010
  else if a / 0x10000 = 0x00F2 then a % 0x1000 == 0x010
  else if 0x00F80000 ≤ a ∧ a < 0x00FC0000 then
    let off := a % 0x4000
    (decide (off < 0x1000) && decide (0x40 ≤ off % 0x100) && decide (off % 0x100 < 0xC0) && off % 8 == 0)
      || (decide (0x1000 ≤ off) && decide (off < 0x2000) && decide (off % 0x100 < 0x80) && off % 8 == 0)
      || off == 0x2008
  else false

/-- NAME_HI registers of a 64-bit pair (00 R12). -/
def isHi (a : Nat) : Bool := decide (4 ≤ a) && isLo (a - 4)

/-- A 64-bit register pair as one number, from its LO address. -/
def State.reg64 (s : State) (lo : Nat) : Nat := (s.reg lo).toNat + (s.reg (lo + 4)).toNat * 2 ^ 32

/-- Set a 64-bit register pair, as hardware or Benus does. -/
def State.setReg64 (s : State) (lo v : Nat) : State :=
  (s.setReg lo (BitVec.ofNat 32 v)).setReg (lo + 4) (BitVec.ofNat 32 (v / 2 ^ 32))

/-- Per-cell registers of the cluster controller. -/
def clcCell (c : CellId) (off : Nat) : Nat := clcBase (clusterOf c).toNat + off + 4 * cellIndex c

/-- The time series of 10 R447, in ns. -/
def seriesNs (v : Nat) : Nat :=
  (if v % 3 = 0 then 1 else if v % 3 = 1 then 2 else 5) * 10 ^ (v / 3) * 1000

/-- One step of a 16-bit LFSR (09 R377). -/
def lfsrStep (x : BitVec 16) : BitVec 16 :=
  let fb := x.getLsbD 15 ^^ x.getLsbD 13 ^^ x.getLsbD 12 ^^ x.getLsbD 10
  (x <<< 1) ||| (if fb then 1 else 0)

end Sys2Proof.Machine
end

