-- ==== Sys2Proof/Machine/Faults.lean ====
section
/-! DEFINITION. How any block reports: asserting a fault source (13 R555, R556), making a fault record
(13 R561 to R564) and writing a log record (14 R615). The collector's own commands stand in
Collector.lean. -/

namespace Sys2Proof.Machine

/-- A detection asserts its source for at least 1 kc (13 R556): the next FAULT_SAMPLE sees it. -/
def State.assertSrc (s : State) (i : Nat) : State :=
  let src := { Map.get source0 s.col.srcs i with raw := true }
  { s with col := { s.col with srcs := Map.set source0 s.col.srcs i src } }

/-- A detection whose event is severe whatever the source's threshold (02 R86). -/
def State.assertSevere (s : State) (i : Nat) : State :=
  let src := { Map.get source0 s.col.srcs i with raw := true, pending := true }
  { s with col := { s.col with srcs := Map.set source0 s.col.srcs i src } }

/-- PART of a log record that concerns no partition (14 R616). -/
abbrev noPart : Byte := 0xFF

/-- The bytes that log records take in the ring or the store: a header of 24 bytes and the padded body (14 R616). -/
def logBytes (rs : List LogRec) : Nat := (rs.map fun (r : LogRec) => 24 + (r.body.length + 7) / 8 * 8).sum

/-- The records that fit in `room` bytes, the newest, and those dropped before them. -/
def logFit (room : Nat) : List LogRec → List LogRec × List LogRec
  | [] => ([], [])
  | r :: rs => if logBytes (r :: rs) ≤ room then ([], r :: rs) else
      let (lost, kept) := logFit room rs
      (r :: lost, kept)

/-- The next log record (14 R616). -/
def State.newLog (s : State) (typ part : Byte) (body : List Byte) (n : BitVec 64) : LogRec :=
  { lseq := n, typ := typ, time := s.now, cal := s.ben.tai.setWidth 32, modn := s.hier.modn, part := part, body := body }

/-- Write a log record (14 R615, R616): it takes the next LSEQ in Benus's RAM ring of 16 MiB. When the ring is
full, its oldest records are dropped, and a gap record names them. -/
def State.log (s : State) (typ : Byte) (part : Byte) (body : List Byte) : State :=
  let n := s.ben.lseq + 1
  let ring := s.ben.ram ++ [s.newLog typ part body n]
  if logBytes ring ≤ 2 ^ 24 then { s with ben := { s.ben with lseq := n, ram := ring } }
  else
    let (lost, kept) := logFit (2 ^ 24 - 32) ring
    let lseqs := lost.map fun (r : LogRec) => natLe 4 r.lseq.toNat
    let gap := s.newLog 15 noPart (lseqs.headD [] ++ lseqs.getLastD []) (n + 1)
    { s with ben := { s.ben with lseq := n + 1, ram := kept ++ [gap], lostRecs := s.ben.lostRecs + lost.length } }

/-- What a record says beyond its number and times (13 R563). -/
structure RecInfo where
  kind : Byte
  source : Nat
  cell : BitVec 16 := 0xFFFF
  sid : BitVec 16 := 0
  ctx : Word := 0
  addr : Nat := 0
  count : Word := 0
  detail : Word := 0
  deriving DecidableEq, Repr

/-- The bytes of a record (13 R563). -/
def recBytes (r : FRec) : List Byte :=
  natLe 4 r.recno.toNat ++ natLe 2 r.source.toNat ++ [r.kind, r.react] ++ natLe 8 r.firstT.toNat
    ++ natLe 8 r.lastT.toNat ++ natLe 2 r.merged.toNat ++ natLe 2 r.lost.toNat
    ++ (((r.more ++ [0xFFFF, 0xFFFF, 0xFFFF, 0xFFFF]).take 4).map (fun (m : BitVec 16) => natLe 2 m.toNat)).flatten
    ++ natLe 2 r.cell.toNat ++ natLe 2 r.sid.toNat ++ natLe 4 r.ctx.toNat ++ natLe 8 r.addr.toNat
    ++ natLe 4 r.count.toNat ++ natLe 4 r.detail.toNat ++ natLe 4 0

/-- The next record number, which is never used again (13 R563). -/
def State.nextRecno (s : State) : Word × State :=
  let n := s.ben.nextRec + 1
  (n, ({ s with ben := { s.ben with nextRec := n } }).setReg (fclBase + 0xC) n)

/-- The record of `i` with number `n`. -/
def RecInfo.toRec (i : RecInfo) (n : Word) (t : BitVec 64) : FRec :=
  { recno := n, source := BitVec.ofNat 16 i.source, kind := i.kind, react := 0, firstT := t, lastT := t,
    merged := 0, lost := 0, more := [], cell := i.cell, sid := i.sid, ctx := i.ctx,
    addr := BitVec.ofNat 64 i.addr, count := i.count, detail := i.detail }

/-- Room in the store of 64 (13 R562): when it is full, the oldest closed record not yet logged is
dropped and counted in FCL_LOST. -/
def State.roomForRecord (s : State) : State :=
  if s.col.store.length < 64 then s
  else
    match s.col.store.findIdx? (fun r => r.isOpen == false && r.logged == false) with
    | some i =>
      ({ s with
          col := { s.col with store := s.col.store.eraseIdx i }
          ben := { s.ben with lostRecs := s.ben.lostRecs + 1 } }).bump (fclBase + 0x10)
    | none =>
      match s.col.store.findIdx? (fun r => r.isOpen == false) with
      | some i => { s with col := { s.col with store := s.col.store.eraseIdx i } }
      | none => s

/-- LOST of the next record (13 R563, 14 R615): the log records lost before it. -/
def State.takeLost (s : State) : BitVec 16 × State :=
  (BitVec.ofNat 16 (min 0xFFFF s.ben.lostRecs), { s with ben := { s.ben with lostRecs := 0 } })

/-- Make a record with no reaction of its own (13 R564): it waits in the store to be logged. -/
def State.makeRecord (s : State) (i : RecInfo) : Word × State :=
  let (n, s) := s.nextRecno
  let (lost, s) := s.roomForRecord.takeLost
  (n, { s with col := { s.col with store := s.col.store ++
      [{ fr := { i.toRec n s.now with lost := lost }, isOpen := false, logged := false, sticky := false }] } })

/-- The CELL field of a record about a logical cell (13 R563). -/
def State.recCell (s : State) (c : CellId) : BitVec 16 :=
  let phys := s.regField (clcCell c 0xF40) 4 0
  BitVec.ofNat 16 (phys * 256) ||| c.setWidth 16

/-- The fault source of the physical cell bound to a logical cell (13 R555). -/
def State.cellSource (s : State) (c : CellId) : Nat :=
  32 * (clusterOf c).toNat + s.regField (clcCell c 0xF40) 4 0

/-- A fault source of a cluster (13 R555). -/
def clusterSource (g : BitVec 4) (b : Nat) : Nat := 32 * g.toNat + b

/-- A fault source of a home agent, a memory group, a port (13 R555). -/
def homeSource (h : BitVec 4) (b : Nat) : Nat := 32 * (16 + h.toNat) + b
def groupSource (m b : Nat) : Nat := 32 * (32 + m) + b
def portSource (p : BitVec 3) (b : Nat) : Nat := 32 * (36 + p.toNat) + b
def ledgerSource (b : Nat) : Nat := 32 * 44 + b
def engineSource (b : Nat) : Nat := 32 * 45 + b
def aesSource (b : Nat) : Nat := 32 * 46 + b
def platSource (b : Nat) : Nat := 32 * 47 + b

/-! ### Roles and epochs (15 R634, R635, R639) -/

/-- The epoch of a role's scope. -/
def State.epochOf (s : State) (role : BitVec 2) : Word := if role = 2 then s.hier.sepoch else s.hier.gepoch

/-- A role record (14 R617). -/
def State.logRole (s : State) (role : BitVec 2) (refused : Bool) (modn : BitVec 12) : State :=
  s.log 10 noPart ([role.setWidth 8, if refused then 1 else 0] ++ natLe 2 modn.toNat ++ wordBytes (s.epochOf role))

/-- A Hart gives up its role (15 R639). -/
def State.abdicate (s : State) : State :=
  ({ s with hier := { s.hier with role := 0, lease := false, heartbeat := false } }).logRole 0 false s.hier.modn

/-- An epoch of a scope is seen: the highest is kept, and a Hart of that scope with a lower one becomes a Hind. The
system Hart is the Hart of its own group too (01 R29). -/
def State.sawEpoch (s : State) (group : Bool) (e : Word) : State :=
  if group then
    if s.hier.gepoch < e then
      let s := { s with hier := { s.hier with gepoch := e } }
      if s.hier.role = 1 ∨ s.hier.role = 2 then s.abdicate else s
    else s
  else if s.hier.sepoch < e then
    let s := { s with hier := { s.hier with sepoch := e } }
    if s.hier.role = 2 then s.abdicate else s
  else s

end Sys2Proof.Machine
end

