-- ==== Sys2Proof/Machine/Caches.lean ====
section
/-! DEFINITION. The cell caches, the cluster caches, the Porch, the miss entries and the Pantry
(chapter 09), and the view of memory they and the homes give (chapter 10): the operations that the
commands of Memory.lean and Coherence.lean are made of. A machine word is numbered with its module:
module × 2^38 + machine address / 4. -/

namespace Sys2Proof.Machine

/-- The module of a machine word, and the word within it. -/
def modOf (w : Nat) : Nat := w / wordsPerModule
def localWord (w : Nat) : Nat := w % wordsPerModule
def State.isOwn (s : State) (w : Nat) : Bool := modOf w == s.hier.modn.toNat

/-- The 2 MiB block number [39:21] of a machine word. -/
def bigBlock (w : Nat) : Nat := localWord w / 2 ^ 19

/-! ### The Pantry -/

/-- The register of a Pantry pair (09 R408). -/
def pantryReg (g : BitVec 4) (j : Nat) : Nat := cchBase g.toNat + 0x10 + 4 * j

/-- The cluster whose Pantry holds the word (09 R390, R394). -/
def State.pantryOf (s : State) (w : Nat) : Option (BitVec 4) :=
  if s.isOwn w then
    allClusters.find? fun g => (List.range 4).any fun j =>
      bit (s.reg (pantryReg g j)) 31 && s.regField (pantryReg g j) 18 0 == bigBlock w
  else none

/-! ### Blocks and sectors -/

/-- The cache set of a block (09 R373): address bits [19:8] xor the module number. -/
def setOf (blk : Nat) : Nat := (blk % 4096).xor (blk / 2 ^ 32 % 4096)

/-- A way of a set. -/
def Cluster.way (cl : Cluster) (k : Nat) : Block := Map.get block0 cl.ways k
def Cluster.setWay (cl : Cluster) (k : Nat) (b : Block) : Cluster :=
  { cl with ways := Map.set block0 cl.ways k b }

/-- The way that holds a block's tag. -/
def Cluster.findWay (cl : Cluster) (blk : Nat) : Option Nat :=
  ((List.range 16).map (setOf blk * 16 + ·)).find? fun k => (cl.way k).used && (cl.way k).block == blk

/-- The sector of a block by number 0 to 3. -/
def Block.sector (b : Block) (i : Nat) : Sector := Map.get sector0 b.sectors i
def Block.setSector (b : Block) (i : Nat) (x : Sector) : Block :=
  { b with sectors := Map.set sector0 b.sectors i x }

/-- A way with no valid sector. -/
def Block.isEmpty (b : Block) : Bool := (List.range 4).all fun i => (b.sector i).st == 0

/-- The sector in the array of a cluster (not valid when absent). -/
def Cluster.sectorAt (cl : Cluster) (sec : Nat) : Sector :=
  match cl.findWay (sec / 4) with
  | some k => (cl.way k).sector (sec % 4)
  | none => sector0

/-- Replace a sector in the array; nothing when the block has no way. -/
def Cluster.putSector (cl : Cluster) (sec : Nat) (x : Sector) : Cluster :=
  match cl.findWay (sec / 4) with
  | some k => cl.setWay k ((cl.way k).setSector (sec % 4) x)
  | none => cl

/-- A word of a sector's data. -/
def wordOf (data : List TWord) (w : Nat) : TWord := data.getD (w % 16) TWord.empty

/-- Replace a word of a sector's data. -/
def putWord (data : List TWord) (w : Nat) (v : TWord) : List TWord := data.set (w % 16) v

/-- The Porch entry that holds an evicted sector. -/
def Cluster.porchOf (cl : Cluster) (sec : Nat) : Option Porch :=
  cl.porch.find? fun p => p.state != .combine && p.block == sec / 4
    && (Map.get sector0 p.sectors (sec % 4)).st != 0

/-- The COMBINE entry of a sector. -/
def Cluster.combineOf (cl : Cluster) (sec : Nat) : Option Porch :=
  cl.porch.find? fun p => p.state == .combine && p.sector == sec

/-- The miss entry of a sector that later requests may join (09 R380, R403). -/
def Cluster.missOf (cl : Cluster) (sec : Nat) : Option Miss :=
  cl.misses.find? fun m => m.sector == sec

/-- Apply a change to the miss entry of a sector. -/
def Cluster.modMiss (cl : Cluster) (sec : Nat) (f : Miss → Miss) : Cluster :=
  { cl with misses := cl.misses.map fun m => if m.sector == sec then f m else m }

/-- Remove the miss entry of a sector. -/
def Cluster.dropMiss (cl : Cluster) (sec : Nat) : Cluster :=
  { cl with misses := cl.misses.filter fun m => m.sector != sec }

/-! ### Cell caches (09 R366 to R369): tags only, for a line always equals its sector -/

/-- The set of a line: address bits [14:6]. -/
def lineSet (sec : Nat) : Nat := sec % 512

/-- The way of a cell cache that holds a sector's line. -/
def CellSt.lineWay (c : CellSt) (sec : Nat) : Option Nat :=
  ((List.range 4).map (lineSet sec * 4 + ·)).find? fun k => Map.get 0 c.lines k == sec + 1

def CellSt.hasLine (c : CellSt) (sec : Nat) : Bool := (c.lineWay sec).isSome

/-- Fill a line (09 R368): the lowest invalid way, else the way the pointer names, which advances. -/
def CellSt.fillLine (c : CellSt) (sec : Nat) : CellSt :=
  if c.hasLine sec then c
  else
    match ((List.range 4).map (lineSet sec * 4 + ·)).find? fun k => Map.get 0 c.lines k == 0 with
    | some k => { c with lines := Map.set 0 c.lines k (sec + 1) }
    | none =>
      let p := Map.get 0 c.linePtr (lineSet sec)
      { c with lines := Map.set 0 c.lines (lineSet sec * 4 + p.toNat) (sec + 1)
               linePtr := Map.set 0 c.linePtr (lineSet sec) (p + 1) }

/-- Invalidate a line. -/
def CellSt.dropLine (c : CellSt) (sec : Nat) : CellSt :=
  match c.lineWay sec with
  | some k => { c with lines := Map.del c.lines k }
  | none => c

/-- Invalidate a line in every cell cache of a cluster, but for one cell (09 R369). -/
def State.dropLines (s : State) (g : BitVec 4) (sec : Nat) (keep : Option CellId) : State :=
  s.each (cellsOf g) fun s c =>
    if keep = some c || !(s.cell c).hasLine sec then s else s.modCell c (·.dropLine sec)

/-- Reservations on a sector end when it leaves the cluster or is probed away, and when another strand
stores to it (10 R442). -/
def State.dropResv (s : State) (g : BitVec 4) (sec : Nat) (keep : Option (CellId × SlotId)) : State :=
  s.each (cellsOf g) fun s c => s.each allSlots fun s k =>
    if keep = some (c, k) || (s.slot c k).resv != some sec then s
    else s.modSlot c k fun x => { x with resv := none }

/-! ### The memory that every agent sees -/

/-- The cluster of an agent of this module. -/
def agentCluster (a : Agent) : BitVec 4 := a.setWidth 4

/-- DRAM of the own module. -/
def State.dram (s : State) (w : Nat) : TWord := Map.get TWord.empty s.mem (localWord w)
def State.setDram (s : State) (w : Nat) (v : TWord) : State :=
  { s with mem := Map.set TWord.empty s.mem (localWord w) v }

/-- The sixteen words of a sector in DRAM. -/
def State.dramSector (s : State) (sec : Nat) : List TWord :=
  (List.range 16).map fun i => s.dram (sec * 16 + i)

/-- Write a sector's sixteen words to DRAM. -/
def State.setDramSector (s : State) (sec : Nat) (data : List TWord) : State :=
  s.each (List.range 16) fun s i => s.setDram (sec * 16 + i) (wordOf data i)

/-- The clusters that hold a sector's newest copy: in X with DIRTY set, or on the Porch. -/
def Cluster.dirtyData (cl : Cluster) (sec : Nat) : Option (List TWord) :=
  match cl.porchOf sec with
  | some p => some (Map.get sector0 p.sectors (sec % 4)).data
  | none => if (cl.sectorAt sec).dirty then some (cl.sectorAt sec).data else none

/-- A request to a block that a page move has copied already goes to its new home (07 R308 step 4). -/
def State.redirect (s : State) (w : Nat) : Nat :=
  if s.isOwn w then
    match s.moves.find? fun e => e.2.active && e.2.source == bigBlock w && decide (w % 2 ^ 19 / 64 < e.2.copied) with
    | some e => e.2.target * 2 ^ 19 + w % 2 ^ 19
    | none => w
  else w

/-- The value every agent agrees a word of memory has: the Pantry's, a dirty copy's, or DRAM's.
FREE VALUE for a word of another module (assumption 6). -/
def State.peek (s : State) (w : Nat) : TWord :=
  let w := s.redirect w
  if s.isOwn w then
    match s.pantryOf w with
    | some g => Map.get TWord.empty (s.cluster g).pantry (localWord w)
    | none =>
      match allClusters.findSome? fun g => (s.cluster g).dirtyData (sectorOf w) with
      | some d => wordOf d w
      | none => s.dram w
  else
    match allClusters.find? fun g => ((s.cluster g).sectorAt (sectorOf w)).st != 0 with
    | some g => wordOf ((s.cluster g).sectorAt (sectorOf w)).data w
    | none =>
      let b := Config.remoteWord w s.free
      ⟨(b >>> 32).setWidth 4, b.setWidth 32⟩

/-- Remove a sector from a cluster: the array's copy and a Porch entry's copy. -/
def Cluster.dropSector (cl : Cluster) (sec : Nat) : Cluster :=
  let cl := cl.putSector sec sector0
  let strip (p : Porch) : Porch :=
    if p.state != .combine && p.block == sec / 4 then { p with sectors := Map.del p.sectors (sec % 4) }
    else p
  { cl with porch := (cl.porch.map strip).filter (fun p => p.state == .combine || p.sectors != []) }

/-- Whether a cluster holds a sector at all. -/
def Cluster.holds (cl : Cluster) (sec : Nat) : Bool :=
  (cl.sectorAt sec).st != 0 || (cl.porchOf sec).isSome

/-- The data of a sector is on its way to a cluster, or has arrived and is not installed yet. -/
def State.granting (s : State) (g : BitVec 4) (sec : Nat) : Bool :=
  match (s.cluster g).missOf sec with
  | none => false
  | some m => m.granted.isSome || s.wire.any fun c =>
      match c with
      | .dataS a x _ => agentCluster a == g && x == sec
      | .dataX a x _ => agentCluster a == g && x == sec
      | .grantX a x => agentCluster a == g && x == sec
      | _ => false

/-- Bring a sector back to DRAM from every cache: dirty data is written, every copy is removed, and a fill on
its way is not installed. -/
def State.recall (s : State) (sec : Nat) : State :=
  s.each allClusters fun s g =>
    let s := if s.granting g sec then
        s.modCluster g fun cl => cl.modMiss sec fun m => { m with doomed := true } else s
    let cl := s.cluster g
    if cl.holds sec then
      let s := match cl.dirtyData sec with
        | some d => s.setDramSector sec d
        | none => s
      ((s.setCluster g (cl.dropSector sec)).dropLines g sec none).dropResv g sec none
    else s

/-- Clear the directory's state of a sector at a home (10 R420). -/
def Home.uncache (h : Home) (sec : Nat) : Home :=
  { h with dir := h.dir.map fun (k, e) =>
      if e.v && e.tag == sec / 4 then
        (k, { e with ds := Map.del e.ds (sec % 4), owner := Map.del e.owner (sec % 4) }) else (k, e) }

/-- A write of one word by a block that is no strand: the Pantry's word, or DRAM after every cached
copy has been recalled (assumption 6). -/
def State.poke (s : State) (w : Nat) (v : TWord) : State :=
  let w := s.redirect w
  if s.isOwn w then
    match s.pantryOf w with
    | some g =>
      ((s.modCluster g fun cl => { cl with pantry := Map.set TWord.empty cl.pantry (localWord w) v }).dropLines
        g (sectorOf w) none).dropResv g (sectorOf w) none
    | none => (s.recall (sectorOf w)).setDram w v
  else s.emit (.notify 0x52 (BitVec.ofNat 32 w))

/-! ### Agents and homes -/

/-- A cluster's agent number in its coherence group (10 R417). -/
def State.agentOf (s : State) (g : BitVec 4) : Agent :=
  BitVec.ofNat 6 (16 * s.regField (dirBase 0 + 0xC) 1 0 + g.toNat)

def State.isOwnAgent (s : State) (a : Agent) : Bool :=
  a.toNat / 16 == s.regField (dirBase 0 + 0xC) 1 0

/-- The home of a machine word under a HOMING field (10 R411). -/
def homeOf (homing : BitVec 3) (w : Nat) : BitVec 4 :=
  let blk := blockOf w
  if homing = 0 then BitVec.ofNat 4 blk
  else BitVec.ofNat 4 (4 * (homing.toNat - 1) + blk % 4)

/-- Send a coherence message to a home: by mesh, or by fabric when the sector is homed on another
module. -/
def State.toHome (s : State) (sec : Nat) (m : Instr) : State :=
  if s.isOwn (sec * 16) then s.post m else s.emit (.message m)

/-- Send a coherence message to an agent. -/
def State.toAgent (s : State) (a : Agent) (m : Instr) : State :=
  if s.isOwnAgent a then s.post m else s.emit (.message m)

/-! ### Victims, evictions and misses -/

/-- The ways of a set that a fill for a partition may take (09 R378): the partition's mask, less the
Pantry ways and the ways with FILL set. -/
def State.allowedWay (s : State) (g : BitVec 4) (p : BitVec 6) (set w : Nat) : Bool :=
  bit (s.reg (cchBase g.toNat + 0x100 + 4 * p.toNat)) w
    && !((8 ≤ w : Bool) && bit (s.reg (pantryReg g ((w - 8) / 2))) 31)
    && !((s.cluster g).way (set * 16 + w)).fill

/-- Select the victim way (09 R378): the lowest allowed way with no valid sector, else after a step of
the LFSR the first allowed way at or after its low four bits. -/
def State.victim (s : State) (g : BitVec 4) (p : BitVec 6) (set : Nat) : Option Nat × State :=
  let ok := (List.range 16).filter (s.allowedWay g p set)
  match ok.find? fun w => ((s.cluster g).way (set * 16 + w)).isEmpty with
  | some w => (some w, s)
  | none =>
    if ok = [] then (none, s)
    else
      let a := cchBase g.toNat + 8
      let x := lfsrStep ((s.reg a).setWidth 16)
      let s := s.setReg a (x.setWidth 32)
      let r := x.toNat % 16
      (((ok.filter (r ≤ ·)) ++ ok).head?, s)

/-- The dirty sectors of a block. -/
def Block.dirtySectors (b : Block) : Map Sector := b.sectors.filter fun e => e.2.dirty

/-- Drop the cell lines and reservations of every valid sector of a block that leaves the array. -/
def State.leaveArray (s : State) (g : BitVec 4) (b : Block) : State :=
  s.each b.sectors fun s e =>
    (s.dropLines g (b.block * 4 + e.1) none).dropResv g (b.block * 4 + e.1) none

/-- Evict what a way holds (09 R379): clean sectors are dropped, dirty ones move to a WAITING Porch
entry. None when the Porch has no free entry. -/
def State.evict (s : State) (g : BitVec 4) (k : Nat) : Option State :=
  let b := (s.cluster g).way k
  let d := b.dirtySectors
  if d = [] then some (s.leaveArray g b)
  else if (s.cluster g).porch.length < 32 then
    some ((s.leaveArray g b).modCluster g fun cl => { cl with porch := cl.porch ++
      [{ state := .waiting, block := b.block, home := b.home, sectors := d, sector := 0, stores := [] }] })
  else none

/-- The request a miss entry sends to its home (10 R422). -/
def missRequest (m : Miss) (a : Agent) : Instr :=
  if m.zero then .zeroX m.home a m.sector
  else if m.upg then .upg m.home a m.sector
  else if m.wantX then .rdX m.home a m.sector .ok else .rdS m.home a m.sector .ok

/-- A miss entry for a sector, before anything of it has arrived. -/
def newMiss (sec : Nat) (h : BitVec 4) (way : Nat) (p : BitVec 6) : Miss :=
  { sector := sec, home := h, way := way, wantX := false, upg := false, zero := false, prefetch := false,
    part := p, reqs := [], firstBeat := 0, beats := 0, granted := none, data := [], doomed := false,
    sent := true, retrying := false, retries := 0 }

/-- Find or make the way for a miss (09 R378, R379): none when the miss must wait for a way or for a
Porch entry. -/
def State.wayFor (s : State) (g : BitVec 4) (p : BitVec 6) (h : BitVec 4) (blk : Nat) :
    Option (Nat × State) :=
  match (s.cluster g).findWay blk with
  | some k => some (k, s.modCluster g fun cl => cl.setWay k { (cl.way k) with fill := true })
  | none =>
    match s.victim g p (setOf blk) with
    | (none, _) => none
    | (some w, s) =>
      let k := setOf blk * 16 + w
      match s.evict g k with
      | none => none
      | some s => some (k, s.modCluster g fun cl => cl.setWay k
          { block := blk, used := true, fill := true, home := h, sectors := [] })

/-- Open a miss entry for a sector and send its request (09 R380). None when it must wait: for one of
the 64 entries, for a way, or for a Porch entry. -/
def State.openMiss (s : State) (g : BitVec 4) (m : Miss) : Option State :=
  if 64 ≤ (s.cluster g).misses.length then none
  else
    match s.wayFor g m.part m.home (m.sector / 4) with
    | none => none
    | some (k, s) =>
      let m := { m with way := k }
      some (((s.modCluster g fun cl => { cl with misses := cl.misses ++ [m] }).bump
        (cchBase g.toNat + 0x24)).toHome m.sector (missRequest m (s.agentOf g)))

/-- Open the prefetches that follow a demand miss (09 R381), as far as entries are free. -/
def State.openPrefetches (s : State) (g : BitVec 4) (p : BitVec 6) (h : BitVec 4) (sec : Nat)
    (hNext : BitVec 4) : State :=
  let ctrl := s.reg (cchBase g.toNat)
  let blk := sec / 4
  let others := if bit ctrl 0 then (List.range 3).map fun i => blk * 4 + (sec % 4 + 1 + i) % 4 else []
  let next := if bit ctrl 1 && sec % 4 == 3 && (blk + 1) % 64 != 0 then [(blk + 1) * 4] else []
  let go (hm : BitVec 4) (s : State) (x : Nat) : State :=
    if ((s.cluster g).sectorAt x).st != 0 || ((s.cluster g).missOf x).isSome
        || ((s.cluster g).porchOf x).isSome then s
    else (s.openMiss g { newMiss x hm 0 p with prefetch := true }).getD s
  s.each next (go hNext) |> fun s => s.each others (go h)

/-- A request joins or opens the miss entry of its sector (09 R380, R403): none when it must wait. A
doomed entry admits nobody new. -/
def State.joinMiss (s : State) (g : BitVec 4) (p : BitVec 6) (h : BitVec 4) (sec : Nat) (wantX : Bool)
    (r : Requester) (word : Nat) (hNext : BitVec 4) : Option State :=
  match (s.cluster g).missOf sec with
  | some m =>
    if m.doomed || 8 ≤ m.reqs.length then none
    else some (s.modCluster g fun cl => cl.modMiss sec fun m =>
      { m with reqs := m.reqs ++ [r], prefetch := false })
  | none =>
    let held := ((s.cluster g).sectorAt sec).st == 1
    match s.openMiss g { newMiss sec h 0 p with
        wantX := wantX, upg := wantX && held, reqs := [r], firstBeat := word % 16 / 4 } with
    | none => none
    | some s => some (s.openPrefetches g p h sec hNext)

/-- Cancel an eviction (09 R389): the block returns to the array in a victim way, whose own dirty
sectors take over the Porch entry. None when no way is allowed. -/
def State.cancelEviction (s : State) (g : BitVec 4) (p : BitVec 6) (blk : Nat) : Option State :=
  match (s.cluster g).porch.find? fun e => e.state == .waiting && e.block == blk with
  | none => some s
  | some e =>
    let place (s : State) (k : Nat) (old : Block) : State :=
      let s := s.leaveArray g old
      s.modCluster g fun cl =>
        let cl := cl.setWay k { block := blk, used := true, fill := false, home := e.home, sectors := e.sectors }
        let swap (q : Porch) : Porch :=
          if q.state == .waiting && q.block == blk then
            { q with block := old.block, home := old.home, sectors := old.dirtySectors } else q
        { cl with porch := (cl.porch.map swap).filter (fun q => q.state == .combine || q.sectors != []) }
    let s := s.bump (cchBase g.toNat + 0x2C)
    match (s.cluster g).findWay blk with
    | some k =>
      some (s.modCluster g fun cl =>
        let b := cl.way k
        let secs := e.sectors.foldl (fun m x => Map.set sector0 m x.1 x.2) b.sectors
        let cl := cl.setWay k { b with sectors := secs }
        { cl with porch := cl.porch.filter fun q => !(q.state == .waiting && q.block == blk) })
    | none =>
      match s.victim g p (setOf blk) with
      | (none, _) => none
      | (some w, s) => some (place s (setOf blk * 16 + w) ((s.cluster g).way (setOf blk * 16 + w)))

/-- A waiting eviction of a sector's block is cancelled where a way can take the block (09 R389). -/
def State.takeBack (s : State) (g : BitVec 4) (p : BitVec 6) (sec : Nat) : State :=
  match (s.cluster g).porchOf sec with
  | some e => if e.state == PorchState.waiting then (s.cancelEviction g p (sec / 4)).getD s else s
  | none => s

/-- What a read of a word at the cluster finds (09 R388, R394): the word, or that it waits for a
write-back in flight or a way, or that it misses. -/
inductive ReadAt where
  | hit (v : TWord)
  | waits
  | miss
  deriving DecidableEq, Repr

/-- Read a word at a cluster cache: Pantry of the own cluster, the array, or the Porch. -/
def State.clusterRead (s : State) (g : BitVec 4) (p : BitVec 6) (w : Nat) : ReadAt × State :=
  if s.pantryOf w = some g then
    (.hit (Map.get TWord.empty (s.cluster g).pantry (localWord w)), s)
  else
    let sec := sectorOf w
    let s := s.takeBack g p sec
    match (s.cluster g).porchOf sec with
    | some _ => (.waits, s)
    | none =>
      let x := (s.cluster g).sectorAt sec
      if x.st != 0 then (.hit (wordOf x.data w), s.bump (cchBase g.toNat + 0x20)) else (.miss, s)

/-- What a write at the cluster finds. -/
inductive WriteAt where
  | done
  | waits
  | miss
  deriving DecidableEq, Repr

/-- Whether the cluster holds a sector with write permission. -/
def Cluster.writable (cl : Cluster) (sec : Nat) : Bool := (cl.sectorAt sec).st == 2

/-- Perform a store in the Pantry or in a sector held in X (09 R372): the new word is computed from the
one that stands; the other cells' lines and the other strands' reservations go. -/
def State.clusterWrite (s : State) (g : BitVec 4) (w : Nat) (by_ : Option (CellId × SlotId))
    (f : TWord → TWord) : State :=
  let sec := sectorOf w
  let s :=
    if s.pantryOf w = some g then
      s.modCluster g fun cl =>
        let v := f (Map.get TWord.empty cl.pantry (localWord w))
        { cl with pantry := Map.set TWord.empty cl.pantry (localWord w) v }
    else
      s.modCluster g fun cl =>
        let x := cl.sectorAt sec
        cl.putSector sec { x with dirty := true, data := putWord x.data w (f (wordOf x.data w)) }
  (s.dropLines g sec (by_.map Prod.fst)).dropResv g sec by_

/-! ### What a store makes of a word -/

/-- Merge the bytes of `m` from `new` into `old`. -/
def mergeBytes (m : BitVec 4) (old new : Word) : Word :=
  let k : Word := (if m.getLsbD 0 then 0x000000FF else 0) ||| (if m.getLsbD 1 then 0x0000FF00 else 0)
    ||| (if m.getLsbD 2 then 0x00FF0000 else 0) ||| (if m.getLsbD 3 then 0xFF000000 else 0)
  (old &&& ~~~k) ||| (new &&& k)

/-- The word a store leaves (03 R149, R710): a word store replaces it; a sub-word store writes INT with
its bytes, over zeros when the word is EMPTY or DEFER and over the word's bytes otherwise. -/
def storedWord (kind : StKind) (mask : BitVec 4) (v old : TWord) : TWord :=
  match kind with
  | .sub =>
    TWord.int (mergeBytes mask (if old.tag = Tag.empty ∨ old.tag = Tag.defer then 0 else old.data) v.data)
  | .zero => if old.tag = Tag.defer then old else TWord.zero
  | .word | .slot .. | .side | .clean | .flush => v

end Sys2Proof.Machine
end

