-- ==== Sys2Proof/Machine/Walks.lean ====
section
/-! DEFINITION. Spaces, partitions and translation (chapter 08): the tables as memory holds them, the
TLBs, the rights of a page, and the accesses of blocks that are no strand (R712). -/

namespace Sys2Proof.Machine

/-- Where Benus lays out the module's own tables in machine memory (DESIGN CHOICE, assumption 7): the
frame store takes the first 1 GiB (02 R43). -/
def spaceTableAt : Nat := 0x40000000
def stage2RootsAt : Nat := 0x40200000
def cellarTableAt : Nat := 0x40600000
def contextMapAt : Nat := 0x40800000
def stage2LeavesAt : Nat := 0x80000000
def firstFreeBlock : Nat := 2048

/-- The machine word of a byte address of the own module. -/
def State.ownWord (s : State) (a : Nat) : Nat := s.hier.modn.toNat * wordsPerModule + a / 4

/-- Data bits of the own module's word at a byte address. -/
def State.peekData (s : State) (a : Nat) : Word := (s.peek (s.ownWord a)).data

/-- A 64-bit table entry at a byte address: word 0 holds the low half (08 R331, R338). -/
def State.peek64 (s : State) (a : Nat) : BitVec 64 :=
  (s.peekData (a + 4)).setWidth 64 <<< 32 ||| (s.peekData a).setWidth 64

/-- Write a 64-bit entry in two SYS-tagged words with one write (08 R338). -/
def State.poke64 (s : State) (a : Nat) (v : BitVec 64) : State :=
  (s.poke (s.ownWord a) ⟨Tag.sys, v.setWidth 32⟩).poke (s.ownWord (a + 4)) ⟨Tag.sys, (v >>> 32).setWidth 32⟩

/-- Bits [hi:lo] of an entry. -/
def bits64 (e : BitVec 64) (hi lo : Nat) : Nat := e.toNat / 2 ^ lo % 2 ^ (hi + 1 - lo)

/-! ### The space table (08 R326) -/

def State.spaceEntryAt (s : State) (sid : BitVec 16) : Nat := s.reg64 (trnBase 0 + 8) + 16 * sid.toNat

/-- The binding of a SID: its root and its partition, when BOUND. -/
def State.spaceEntry (s : State) (sid : BitVec 16) : Option (Nat × BitVec 6) :=
  let a := s.spaceEntryAt sid
  let pw := s.peekData (a + 8)
  if bit pw 7 then some ((s.peek64 a).toNat, pw.setWidth 6) else none

/-- A SID is bound to a partition (08 R325, R329). -/
def State.sidBoundTo (s : State) (sid : BitVec 16) (p : BitVec 6) : Bool :=
  (s.spaceEntry sid).map Prod.snd == some p

/-- The partition to which a SID is bound. -/
def State.partOfSid (s : State) (sid : BitVec 16) : Option (BitVec 6) := (s.spaceEntry sid).map Prod.snd

/-! ### Stage 2 (08 R338, R339) -/

/-- A stage-2 leaf: the block it names. -/
structure S2Leaf where
  modn : BitVec 12
  ma : Nat
  homing : BitVec 3
  dev : Bool
  deriving DecidableEq, Repr

def State.s2RootAt (s : State) (p : BitVec 6) (pa : Nat) : Nat :=
  s.reg64 (trnBase 0 + 16) + 32768 * p.toNat + 8 * (pa / 2 ^ 30 % 4096)

def s2LeafAt (table pa : Nat) : Nat := table + 8 * (pa / 2 ^ 21 % 512)

/-- The leaf table a root entry names, when valid. -/
def s2Table (e : BitVec 64) : Option Nat := if e.getLsbD 0 then some (bits64 e 59 32 * 4096) else none

/-- The modules of a partition's span (07 R291): the own module always. -/
def State.inSpan (s : State) (p : BitVec 6) (m : BitVec 12) : Bool :=
  m == s.hier.modn || (s.part p).span.contains m

/-- Read a leaf entry: none when V = 0 or MOD is outside the span (08 R342). -/
def State.s2Leaf (s : State) (p : BitVec 6) (e : BitVec 64) : Option S2Leaf :=
  let m := BitVec.ofNat 12 (bits64 e 19 8)
  if e.getLsbD 0 && s.inSpan p m then
    some { modn := m, ma := bits64 e 50 32 * 2 ^ 21, homing := BitVec.ofNat 3 (bits64 e 5 3),
           dev := e.getLsbD 2 }
  else none

/-- The stage-2 translation of a partition address as the tables stand. -/
def State.stage2 (s : State) (p : BitVec 6) (pa : Nat) : Option S2Leaf :=
  (s2Table (s.peek64 (s.s2RootAt p pa))).bind fun t => s.s2Leaf p (s.peek64 (s2LeafAt t pa))

/-- A machine word from a leaf and a partition address. -/
def S2Leaf.word (l : S2Leaf) (pa : Nat) : Nat :=
  l.modn.toNat * wordsPerModule + (l.ma + pa % 2 ^ 21) / 4

/-- The leaf entry Benus writes (08 R339). -/
def leafEntry (m : BitVec 12) (blk : Nat) (homing : BitVec 3) (dev isFixed : Bool) : BitVec 64 :=
  BitVec.ofNat 64 (blk * 2 ^ 32 + m.toNat * 2 ^ 8 + homing.toNat * 8
    + (if dev then 4 else 0) + (if isFixed then 2 else 0) + 1)

/-- Free machine blocks of 2 MiB: the lowest run of `n` that no use overlaps (DESIGN CHOICE,
assumption 7). `fuel` bounds the search by the number of uses. -/
def findBlocks (used : List (Nat × Nat)) (n : Nat) : Nat → Nat → Option Nat
  | 0, _ => none
  | fuel + 1, at_ =>
    match used.find? fun u => decide (u.1 < at_ + n) && decide (at_ < u.1 + u.2) with
    | none => if at_ + n ≤ 2 ^ 19 then some at_ else none
    | some u => findBlocks used n fuel (u.1 + u.2)

/-- Take `n` machine blocks of 2 MiB. -/
def State.takeBlocks (s : State) (n : Nat) : Option (Nat × State) :=
  (findBlocks s.ben.blocks n (s.ben.blocks.length + 1) firstFreeBlock).map fun b =>
    (b, { s with ben := { s.ben with blocks := s.ben.blocks ++ [(b, n)] } })

/-- Give machine blocks back. -/
def State.giveBlocks (s : State) (b : Nat) : State :=
  { s with ben := { s.ben with blocks := s.ben.blocks.filter fun u => u.1 != b } }

/-! ### TLBs (08 R354) -/

/-- Whether a combined entry serves a space's page. -/
def TlbEnt.covers (e : TlbEnt) (sid : BitVec 16) (p : BitVec 6) (va : Word) : Bool :=
  e.part == p && (e.glob || e.sid == sid)
    && e.vpn == (if e.big then va.toNat / 2 ^ 19 else va.toNat / 2 ^ 12)

/-- The machine word of a word address through an entry. -/
def TlbEnt.word (e : TlbEnt) (va : Word) : Nat :=
  e.modn.toNat * wordsPerModule + e.ma / 4 + va.toNat % (if e.big then 2 ^ 19 else 2 ^ 12)

/-- The set of an entry in a cluster TLB (08 R354): both sizes stand in the same 256 sets; a global entry carries
its partition's number in place of the SID. -/
def TlbEnt.setIdx (e : TlbEnt) : Nat :=
  (e.vpn % 256).xor (if e.glob then e.part.toNat else e.sid.toNat % 256)

/-- The set of a stage-2 entry in a cluster TLB: its block's low bits (DESIGN CHOICE, assumption 116: 08 R354 names
no index for it). -/
def Tlb2Ent.setIdx (e : Tlb2Ent) : Nat := e.pblk % 256

/-- Put an entry in a full associative list of `n`, displacing one at random (FREE VALUE). -/
def insertRandom {α : Type} (n : Nat) (xs : List α) (x : α) (rnd : Nat) : List α :=
  if xs.length < n then xs ++ [x] else xs.eraseIdx (rnd % n) ++ [x]

/-- Install an entry in a cell TLB. -/
def State.cellTlbInstall (s : State) (c : CellId) (e : TlbEnt) : State :=
  let (r, s) := s.draw
  s.modCell c fun x => { x with tlb := insertRandom 64 (x.tlb.filter (· != e)) e r.toNat }

/-- Make room in a set of a cluster TLB (08 R354): its combined and its stage-2 entries share the eight ways, and a
full set loses one of them at random (FREE VALUE). -/
def Cluster.tlbRoom (cl : Cluster) (set rnd : Nat) : Cluster :=
  let mine := cl.tlb.filter (·.setIdx == set)
  let mine2 := cl.tlb2.filter (·.setIdx == set)
  if mine.length + mine2.length < 8 then cl
  else if rnd % 8 < mine.length then
    { cl with tlb := cl.tlb.filter (·.setIdx != set) ++ mine.eraseIdx (rnd % 8) }
  else { cl with tlb2 := cl.tlb2.filter (·.setIdx != set) ++ mine2.eraseIdx (rnd % 8 - mine.length) }

/-- Install a combined entry in a cluster TLB. -/
def State.clusterTlbInstall (s : State) (g : BitVec 4) (e : TlbEnt) : State :=
  let (r, s) := s.draw
  s.modCluster g fun cl =>
    let cl := ({ cl with tlb := cl.tlb.filter (· != e) } : Cluster).tlbRoom e.setIdx r.toNat
    { cl with tlb := cl.tlb ++ [e] }

/-- Install a stage-2 entry in a cluster TLB. -/
def State.tlb2Install (s : State) (g : BitVec 4) (e : Tlb2Ent) : State :=
  let (r, s) := s.draw
  s.modCluster g fun cl =>
    let cl := ({ cl with tlb2 := cl.tlb2.filter (· != e) } : Cluster).tlbRoom e.setIdx r.toNat
    { cl with tlb2 := cl.tlb2 ++ [e] }

/-- A walk discards what it has and starts again (08 R342, R358). -/
def Walk.restart (w : Walk) : Walk :=
  { w with stage := .space, leaf := none, big := false, tries := 0, torn := false, suspended := false, got := none }

/-- The walks of a partition's strands start again (08 R358 step 3, R360). -/
def State.restartWalks (s : State) (p : BitVec 6) : State :=
  { s with slots := s.slots.map fun e =>
      (e.1, if e.2.part = p then { e.2 with walk := e.2.walk.map Walk.restart } else e.2) }

/-- The other modules of a partition's span are told to invalidate (08 R358, R360, R361). -/
def State.tellSpan (s : State) (p : BitVec 6) : State :=
  s.each ((s.part p).span.filter (· != s.hier.modn)) fun s m => s.emit (.notify 0x54 (m.setWidth 32))

/-- Remove the entries that `f` names from every TLB of the module (08 R358, R360); TRN_INV counts an
invalidation in every cluster (R365). -/
def State.dropTlb (s : State) (f : TlbEnt → Bool) (f2 : Tlb2Ent → Bool) : State :=
  let s := s.each (List.range 16) fun s g => s.bump (trnBase g + 0x34)
  { s with
    cells := s.cells.map fun (k, c) => (k, { c with tlb := c.tlb.filter fun e => !f e })
    clusters := s.clusters.map fun (k, cl) =>
      (k, { cl with tlb := cl.tlb.filter fun e => !f e, tlb2 := cl.tlb2.filter fun e => !f2 e }) }

/-- Invalidate everything derived from a partition's block (08 R360), in this module and in the other modules of the
coherence group that hold entries of the partition, those of its span; walks of the partition start again. -/
def State.dropBlockTlb (s : State) (p : BitVec 6) (pblk : Nat) : State :=
  ((s.restartWalks p).dropTlb (fun e => e.part == p && e.pblk == pblk)
    (fun e => e.part == p && e.pblk == pblk)).tellSpan p

/-- Write a stage-2 leaf and invalidate what derives from it (08 R339, R360); the root entry comes
first where it is not valid yet. -/
def State.writeLeaf (s : State) (p : BitVec 6) (pblk : Nat) (e : BitVec 64) : State :=
  let pa := pblk * 2 ^ 21
  let ra := s.s2RootAt p pa
  let t := stage2LeavesAt + (p.toNat * 4096 + pa / 2 ^ 30 % 4096) * 4096
  let s := if (s2Table (s.peek64 ra)).isSome then s
    else s.poke64 ra (BitVec.ofNat 64 (t / 4096 * 2 ^ 32 + 1))
  (s.poke64 (s2LeafAt ((s2Table (s.peek64 ra)).getD t) pa) e).dropBlockTlb p pblk

/-- The first partition block of the device region: the top 16 MiB of the 42-bit partition address space
maps the system window (DESIGN CHOICE, assumption 24). -/
def devRegion : Nat := 2 ^ 21 - 8

/-- The 2 MiB blocks that a partition's memory size reaches into. -/
def Part.memBlocks (x : Part) : Nat := (x.memMib + 1) / 2

/-- Benus maps the block of a partition address on first touch (08 R342), when the address lies within the
partition's memory size and machine memory is free; a block of the device region is mapped when one of its
four device blocks is granted (08 R340). -/
def State.mapBlock (s : State) (p : BitVec 6) (pa : Nat) : Option State :=
  let pblk := pa / 2 ^ 21
  if devRegion ≤ pblk then
    let b := pblk - devRegion
    if (s.part p).devices.toNat / 16 ^ b % 16 ≠ 0 ∧ pblk < 2 ^ 21 then
      some (s.writeLeaf p pblk (leafEntry s.hier.modn b 0 true true))
    else none
  else if pa < (s.part p).memMib * 2 ^ 20 then
    (s.takeBlocks 1).map fun (b, s) => s.writeLeaf p pblk (leafEntry s.hier.modn b 0 false false)
  else none

/-! ### Rights (08 R336, R341, R348 to R353) -/

/-- An access to be checked: KIND of 08 R352, the right it needs, whether a side-effect page accepts
it, and how its mode is judged. -/
structure Access where
  kind : BitVec 4
  needR : Bool := false
  needW : Bool := false
  needX : Bool := false
  seOk : Bool := false
  deriving DecidableEq, Repr

def accLoad : Access := { kind := 0, needR := true, seOk := true }
def accSubLoad : Access := { kind := 0, needR := true }
def accStore : Access := { kind := 1, needW := true, seOk := true }
def accSubStore : Access := { kind := 1, needW := true }
def accFetch : Access := { kind := 2, needX := true }
def accSplit : Access := { kind := 3, needR := true }
def accHomeW : Access := { kind := 4, needW := true }
def accHomeR : Access := { kind := 4, needR := true }

/-- How an access is judged: by a user, by a supervisor outside the window, or by a supervisor through
the window as a user's (08 R348). -/
inductive Judge where
  | user
  | sup
  | window
  | block
  deriving DecidableEq, Repr

/-- The rights checks, lowest code first (08 R353). `granted` says whether the device block of a DEV
access is granted. -/
def TlbEnt.check (e : TlbEnt) (a : Access) (j : Judge) (granted : Bool) : Option Byte :=
  if a.needR && !e.r then some 0x02
  else if a.needW && !e.w then some 0x03
  else if a.needX && !e.x then some 0x04
  else if (j == .user || j == .window) && !e.u then some 0x05
  else if j == .sup && e.u && a.kind == 2 then some 0x06
  else if j == .sup && e.u then some 0x07
  else if e.se != e.dev || (e.se && !a.seOk) then some 0x08
  else if e.dev && !granted then some 0x0D
  else none

/-- Whether a window byte address lies in a device block granted to a partition (08 R340). -/
def State.devGranted (s : State) (p : BitVec 6) (a : Nat) : Bool := bit (s.part p).devices (a / 2 ^ 19 % 32)

/-! ### Stage-1 entries (08 R331, R332) -/

/-- A malformed entry at a level (2: level 1, 3: level 2). -/
def malformed (e : BitVec 64) (level : Nat) : Bool :=
  let l := e.getLsbD 1
  bits64 e 19 16 != 0 || bits64 e 11 9 != 0
    || (!l && bits64 e 8 2 != 0)
    || (l && bits64 e 15 12 != 0)
    || (level == 3 && !l)
    || (level == 2 && l && bits64 e 38 32 != 0)
    || (e.getLsbD 3 && !e.getLsbD 2)
    || (e.getLsbD 6 && (e.getLsbD 4 || e.getLsbD 7))

/-- The partition address a leaf gives. -/
def leafPa (e : BitVec 64) (big : Bool) (va : Word) : Nat :=
  bits64 e 59 32 * 16384 + va.toNat % (if big then 2 ^ 19 else 2 ^ 12) * 4

/-- The partition address of the level-2 entry that a pointer and a word address name. -/
def level2At (e : BitVec 64) (va : Word) : Nat :=
  bits64 e 59 32 * 16384 + bits64 e 15 12 * 1024 + 8 * (va.toNat / 2 ^ 12 % 128)

/-- What reading a stage-1 entry's two words says (08 R334, R335, R343). -/
inductive S1Read where
  | poison
  | fault (code : Byte)
  | torn
  | entry (e : BitVec 64)
  deriving DecidableEq, Repr

def s1Words (level : Nat) (w0 w1 : TWord) : S1Read :=
  if w0.tag = Tag.poison ∨ w1.tag = Tag.poison then .poison
  else if w0.tag = Tag.empty ∨ w1.tag = Tag.empty then .fault 0x01
  else if w0.tag ≠ Tag.sys ∨ w1.tag ≠ Tag.sys then .fault 0x0A
  else if field w0.data 31 28 ≠ field w1.data 31 28 then .torn
  else
    let e : BitVec 64 := w1.data.setWidth 64 <<< 32 ||| w0.data.setWidth 64
    if !e.getLsbD 0 then .fault 0x01 else if malformed e level then .fault 0x09 else .entry e

/-- The combined entry that a walk installs. -/
def tlbEntry (sid : BitVec 16) (p : BitVec 6) (va : Word) (e : BitVec 64) (big : Bool) (l : S2Leaf) :
    TlbEnt :=
  let pa := leafPa e big 0
  { glob := e.getLsbD 8, sid := sid, part := p, big := big
    vpn := if big then va.toNat / 2 ^ 19 else va.toNat / 2 ^ 12
    pblk := pa / 2 ^ 21, modn := l.modn, ma := l.ma + pa % 2 ^ 21, homing := l.homing
    r := e.getLsbD 2, w := e.getLsbD 3, x := e.getLsbD 4, u := e.getLsbD 5, c := e.getLsbD 7
    se := e.getLsbD 6, dev := l.dev }

/-! ### Accesses of blocks that are no strand (08 R712): both stages at once -/

/-- Why such an access cannot be performed: a fault code of 08 R353, or 0xFF for a POISON table word
(08 R714). -/
abbrev SpaceErr := Byte

/-- Read one stage-1 entry for a block, through stage 2. A torn entry stays torn at every re-read of 08 R334, since
this access is one step and no store falls between its reads. -/
def State.blockS1 (s : State) (p : BitVec 6) (level pa : Nat) : Except SpaceErr (BitVec 64) :=
  match s.stage2 p pa with
  | none => .error 0x0D
  | some l =>
    if l.dev then .error 0x0C
    else
      match s1Words level (s.peek (l.word pa)) (s.peek (l.word pa + 1)) with
      | .poison => .error 0xFF
      | .fault c => .error c
      | .torn => .error 0x0B
      | .entry e => .ok e

/-- The leaf of a space's page: the entry and whether it is a 2 MiB page. -/
def State.blockLeaf (s : State) (sid : BitVec 16) (va : Word) : Except SpaceErr (BitVec 6 × BitVec 64 × Bool) :=
  match s.spaceEntry sid with
  | none => .error 0x0E
  | some (root, p) => do
    let e1 ← s.blockS1 p 2 (root + 8 * (va.toNat / 2 ^ 19))
    if e1.getLsbD 1 then return (p, e1, true)
    else return (p, ← s.blockS1 p 3 (level2At e1 va), false)

/-- The machine word that a block's read or write of a space's word reaches, with the rights R or W and
the side-effect rule checked. -/
def State.spaceWord (s : State) (sid : BitVec 16) (va : Word) (write : Bool) : Except SpaceErr Nat := do
  let (p, e, big) ← s.blockLeaf sid va
  let pa := leafPa e big va
  match s.stage2 p pa with
  | none => throw 0x0D
  | some l =>
    let t := tlbEntry sid p va e big l
    match t.check { kind := 0, needR := !write, needW := write } .block true with
    | some c => throw c
    | none => return t.word va

/-- Map what a block's access to a space's word would touch first (08 R342): Benus maps blocks on
first touch, while it runs. Three blocks at most: two tables and the word. -/
def State.touch (s : State) (sid : BitVec 16) (va : Word) : State :=
  match s.spaceEntry sid with
  | none => s
  | some (root, p) =>
    let fix (s : State) (pa : Nat) : State :=
      if (s.stage2 p pa).isSome || !s.ben.running then s else (s.mapBlock p pa).getD s
    let s := fix s (root + 8 * (va.toNat / 2 ^ 19))
    let s := match s.blockS1 p 2 (root + 8 * (va.toNat / 2 ^ 19)) with
      | .ok e => if e.getLsbD 1 then s else fix s (level2At e va)
      | .error _ => s
    match s.blockLeaf sid va with
    | .ok (_, e, big) => fix s (leafPa e big va)
    | .error _ => s

/-- Map what a block's access to `n` words of a space touches: the pages in rising order. -/
def State.touches (s : State) (sid : BitVec 16) (va : Word) (n : Nat) : State :=
  if n = 0 then s
  else
    (s.each (List.range ((n + 4095) / 4096)) fun s k => s.touch sid (va + BitVec.ofNat 32 (4096 * k))).touch sid
      (va + BitVec.ofNat 32 (n - 1))

/-- Read a word of a space as a block does; an EMPTY or DEFER word reads EMPTY with data 0 (02 R81). -/
def State.spaceRead (s : State) (sid : BitVec 16) (va : Word) : Except SpaceErr TWord :=
  (s.spaceWord sid va false).map fun w =>
    let v := s.peek w
    if v.tag = Tag.defer then TWord.empty else v

/-- Write a word of a space as a block does. -/
def State.spaceWrite (s : State) (sid : BitVec 16) (va : Word) (v : TWord) : Except SpaceErr State :=
  let s := s.touch sid va
  (s.spaceWord sid va true).map fun w => s.poke w v

/-- Read `n` words of a space in rising address order. -/
def State.spaceReads (s : State) (sid : BitVec 16) (va : Word) : Nat → Except SpaceErr (List TWord)
  | 0 => .ok []
  | n + 1 => do
    let v ← s.spaceRead sid va
    return v :: (← State.spaceReads s sid (va + 1) n)

/-- A write of several words that failed: the word that could not be written, why, and the state with the words
before it written (08 R714). -/
abbrev SpaceStop := Word × SpaceErr × State

/-- Write words of a space in rising address order; the first that fails ends it. -/
def State.spaceWrites (s : State) (sid : BitVec 16) : Word → List TWord → Except SpaceStop State
  | _, [] => .ok s
  | va, v :: vs =>
    match s.spaceWrite sid va v with
    | .error c => .error (va, c, s)
    | .ok s => State.spaceWrites s sid (va + 1) vs

/-- The record of a write that a block could not make (08 R714). -/
def State.writeFailed (s : State) (src : Nat) (sid : BitVec 16) (va : Word) (code : SpaceErr) : State :=
  (s.makeRecord { kind := 1, source := src, sid := sid, addr := va.toNat,
                  detail := code.setWidth 32 }).2

end Sys2Proof.Machine
end

