-- ==== Sys2Proof/Machine/Tokens.lean ====
section
/-! DEFINITION. Tokens (02 R36 to R41), retained copies and acknowledgements (02 R86, R715), COUNT and
completion (02 R72 to R75), the Cellar (02 R61 to R66) and the report ring (02 R78, R79). -/

namespace Sys2Proof.Machine

/-! ### The token (02 R36, R39) -/

/-- The flags of a token, as bits of FLAGS (02 R38). -/
abbrev flTrace : BitVec 6 := 0b100000
abbrev flEvt : BitVec 6 := 0b010000
abbrev flDefr : BitVec 6 := 0b001000
abbrev flFwd : BitVec 6 := 0b000100
abbrev flSpilled : BitVec 6 := 0b000010
abbrev flPoisoned : BitVec 6 := 0b000001

abbrev portLeft : BitVec 2 := 0
abbrev portRight : BitVec 2 := 1
abbrev portSingle : BitVec 2 := 2
abbrev portControl : BitVec 2 := 3

/-- One step of a CRC over the most significant bit first (02 R39). -/
def crcBit {n : Nat} (poly : BitVec n) (crc : BitVec n) (b : Bool) : BitVec n :=
  if crc.msb != b then (crc <<< 1) ^^^ poly else crc <<< 1

/-- CRC-8 with generator x^8 + x^2 + x + 1 over `k` bits of `v`, most significant first. -/
def crc8 (k : Nat) (v : Nat) (crc : BitVec 8) : BitVec 8 :=
  (List.range k).foldl (fun c i => crcBit 0x07 c (v.testBit (k - 1 - i))) crc

/-- The two covered parts of a token: bits [127:44], then bits [35:0] (02 R39). -/
def tokenHigh (t : Token) : BitVec 84 := t.ctx ++ t.stmt ++ t.iter ++ t.port ++ t.flags ++ t.sid
def tokenLow (t : Token) : BitVec 36 := t.val.tag ++ t.val.data

/-- The right CHECK of a token (02 R39). -/
def tokenCheck (t : Token) : Byte := crc8 36 (tokenLow t).toNat (crc8 84 (tokenHigh t).toNat 0xFF)

/-- The token with its CHECK computed. -/
def withCheck (t : Token) : Token := { t with check := tokenCheck t }

/-- The token's CHECK is right. -/
def goodCheck (t : Token) : Bool := t.check == tokenCheck t

/-- The token's 128 bits (02 R36) and its four words, lowest first (02 R64). -/
def tokenBits (t : Token) : BitVec 128 := tokenHigh t ++ t.check ++ tokenLow t
def tokenWords (t : Token) : List Word :=
  (List.range 4).map fun i => (tokenBits t >>> (32 * i)).setWidth 32

/-- The token that four words hold. -/
def wordsToken (w0 w1 w2 w3 : Word) : Token :=
  { ctx := w3, stmt := (w2 >>> 16).setWidth 16, iter := (w2 >>> 4).setWidth 12,
    port := (w2 >>> 2).setWidth 2, flags := ((w2.setWidth 2 ++ (w1 >>> 28).setWidth 4 : BitVec 6)),
    sid := (w1 >>> 12).setWidth 16, check := (w1 >>> 4).setWidth 8,
    val := ⟨w1.setWidth 4, w0⟩ }

/-- A token formed by hardware or by a strand. -/
def mkToken (ctx : Word) (stmt : BitVec 16) (iter : BitVec 12) (port : BitVec 2) (flags : BitVec 6)
    (sid : BitVec 16) (v : TWord) : Token :=
  withCheck { ctx := ctx, stmt := stmt, iter := iter, port := port, flags := flags, sid := sid,
              check := 0, val := v }

/-- The frame number, and the module number, of a CTX (02 R42). -/
def frameOf (ctx : Word) : BitVec 20 := ctx.setWidth 20
def ctxModule (ctx : Word) : BitVec 12 := (ctx >>> 20).setWidth 12
def isNullCtx (ctx : Word) : Bool := frameOf ctx == 0

/-- The CTX of a frame of this module. -/
def State.ctxOf (s : State) (f : BitVec 20) : Word := s.hier.modn ++ f

/-- STATE codes of a frame (02 R45). -/
abbrev stFree : BitVec 4 := 0
abbrev stActive : BitVec 4 := 1
abbrev stStalled : BitVec 4 := 2
abbrev stMigrating : BitVec 4 := 3
abbrev stComplete : BitVec 4 := 4
abbrev stFailed : BitVec 4 := 5

/-- The cell on which a frame lives, as the context map says (07 R299). -/
def State.cellOf (s : State) (f : BitVec 20) : CellId := (s.ctxEnt f).cell

/-! ### Retained copies (02 R49, R86) -/

/-- The retained copies of one sender's block. -/
def State.copiesOf (s : State) (w : Who) : List Retained := s.retained.filter fun r => r.snd.who == w

/-- The retained copy that a sender names. -/
def State.copy (s : State) (x : Sender) : Option Retained := s.retained.find? fun r => r.snd == x

/-- Change a retained copy. -/
def State.modCopy (s : State) (x : Sender) (f : Retained → Retained) : State :=
  { s with retained := s.retained.map fun r => if r.snd == x then f r else r }

/-- Free a retained copy. -/
def State.dropCopy (s : State) (x : Sender) : State :=
  { s with retained := s.retained.filter fun r => r.snd != x }

/-- Send a token: the block keeps a retained copy until the destination acknowledges it (02 R86). A
token for another module leaves by the fabric. `ctx` is the context whose COUNT counts the token. -/
def State.send (s : State) (w : Who) (t : Token) (ctx : Option Word) (report split : Bool) : State :=
  let (n, s) := s.fresh
  let r : Retained := { snd := ⟨w, n⟩, tok := t, ctx := ctx, report := report, split := split,
                        state := .flight, fails := 0 }
  let s := { s with retained := s.retained ++ [r] }
  if ctxModule t.ctx = s.hier.modn then s else s.emit (.token r.snd t)

/-- Occupancy of a cell's output queue (02 R49, R91). -/
def State.outqUsed (s : State) (c : CellId) : Nat := (s.copiesOf (.cell c)).length

/-- The acknowledgement of a token leaves for its sender (02 R715). -/
def State.sendAck (s : State) (x : Sender) : State :=
  match x.who with
  | .remote .. => s.emit (.tokenAck x)
  | _ => s.post (.ackReceive x)

/-- A token is returned to its sender (02 R67). -/
def State.sendReturn (s : State) (x : Sender) : State :=
  match x.who with
  | .remote .. => s.emit (.tokenReturn x)
  | _ => s.post (.returnedTokenReceive x)

/-- A token whose CHECK failed is rejected with a retransmission request (02 R86). -/
def State.sendReject (s : State) (x : Sender) : State :=
  match x.who with
  | .remote .. => s.emit (.tokenReject x)
  | _ => s.post (.retransmissionRequest x)

/-! ### COUNT and completion (02 R72 to R75) -/

/-- The completion report of a context with a continuation (02 R74): the value is the completed CTX, or
POISON after a failure (13 R547). -/
def State.report (s : State) (f : BitVec 20) (v : TWord) : State :=
  let x := s.frame f
  if isNullCtx x.contCtx then s
  else s.send (.cell (s.cellOf f))
    (mkToken x.contCtx x.contStmt x.contIter x.contPort 0 x.contSid v) none true false

/-- Whether a context whose COUNT is 0 completes now (02 R74). -/
def Frame.completes (x : Frame) : Bool :=
  x.count == 0 && !x.persist && x.committed && (x.state == stActive || x.state == stStalled)

/-- The forwarding entry of a frame at a cell, and the cell that has one (07 R301). -/
def CellSt.fwdEntry (x : CellSt) (f : BitVec 20) : Option FwdEnt := x.fwd.find? fun e => e.frame == f
def State.leaving (s : State) (f : BitVec 20) : Option (CellId × FwdEnt) :=
  s.cells.findSome? fun e => (e.2.fwdEntry f).map fun y => (BitVec.ofNat 8 e.1, y)

/-- A migration that has not passed its transfer point is cancelled (07 R305): the old cell's entry is free, so SA
takes the frame's activities again, and MOVING is cleared. -/
def State.cancelMigration (s : State) (f : BitVec 20) : State :=
  match s.leaving f with
  | none => s
  | some (c, e) =>
    if e.moved then s
    else
      let s := s.modCell c fun x => { x with fwd := x.fwd.filter fun y => y.frame != f }
      { (s.modCtxEnt f fun y => { y with moving := false }) with
        wire := s.wire.erase (.header f)
        inMove := s.inMove.filter fun y => y.1 != f }

/-- The migrations from or to cells that fail or are drained for a patch, before their transfer point (07 R305). -/
def State.cancelMigrations (s : State) (cs : List CellId) : State :=
  s.each ((s.inMove.filter fun e => cs.contains e.2.1 || cs.contains e.2.2).map Prod.fst) State.cancelMigration

/-- A context completes when a commit or an acknowledgement brings COUNT to 0 (02 R74). While it is MIGRATING that
is kept for END-FWD, which gives it its STATE back. -/
def State.tryComplete (s : State) (f : BitVec 20) : State :=
  let x := s.frame f
  if x.completes then ((s.setFrame f { x with state := stComplete }).cancelMigration f).report f ⟨Tag.ctx, x.ctx⟩
  else if x.state = stMigrating ∧ x.count = 0 then s.setFrame f { x with due := true }
  else s

/-- Frames whose COUNT updates are discarded: FREE ones (02 R715) and FAILED ones (13 R547). -/
def Frame.ignoresCount (x : Frame) : Bool := x.state == stFree || x.state == stFailed

/-- Raise the COUNT of a frame. -/
def State.addCount (s : State) (f : BitVec 20) (k : Word) : State :=
  s.modFrame f fun x => if x.ignoresCount then x else { x with count := x.count + k, due := false }

/-- Lower the COUNT of a frame with no completion: a withdrawal (02 R67). -/
def State.withdraw (s : State) (f : BitVec 20) : State :=
  s.modFrame f fun x => if x.ignoresCount then x else { x with count := x.count - 1 }

/-- An acknowledgement or a resolved request lowers COUNT and may complete the context (02 R72). -/
def State.lowerCount (s : State) (f : BitVec 20) : State :=
  if (s.frame f).ignoresCount then s else (s.withdraw f).tryComplete f

/-- A split-phase response that a FAILED context discards resolves its request (02 R715). -/
def State.resolveFailed (s : State) (f : BitVec 20) : State :=
  s.modFrame f fun x => if x.state = stFailed then { x with count := x.count - 1 } else x

/-- A COUNT update or an acknowledgement for a moved frame that reaches its old cell is forwarded and counted (07
R301 step 3, R322); it takes effect in the same step (DESIGN CHOICE, assumption 95). -/
def State.forwardUpdate (s : State) (c : CellId) (f : BitVec 20) : State :=
  match (s.cell c).fwdEntry f with
  | some e => if e.moved then s.bump (clcCell c 0xDC0) else s
  | none => s

/-! ### The Cellar (02 R61 to R66) -/

/-- The address of a partition's Cellar descriptor (02 R62). -/
def State.cellarDesc (s : State) (p : BitVec 6) : Nat := s.reg64 (clcBase 0 + 0x808) + 64 * p.toNat

/-- A 32-bit field of a Cellar descriptor, and writing one: every word is tagged SYS. -/
def State.descWord (s : State) (p : BitVec 6) (byte : Nat) : Word := s.peekData (s.cellarDesc p + byte)
def State.setDescWord (s : State) (p : BitVec 6) (byte : Nat) (v : Word) : State :=
  s.poke (s.ownWord (s.cellarDesc p + byte)) ⟨Tag.sys, v⟩

def State.cellarBase (s : State) (p : BitVec 6) : Nat := (s.peek64 (s.cellarDesc p)).toNat
def State.cellarPool (s : State) (p : BitVec 6) : Nat := (s.descWord p 12).toNat
def State.cellarFree (s : State) (p : BitVec 6) : Nat := (s.descWord p 20).toNat
def State.eventCtx (s : State) (p : BitVec 6) : Word := s.descWord p 24
def State.eventStmt (s : State) (p : BitVec 6) : BitVec 16 := (s.descWord p 28).setWidth 16
def State.quietSel (s : State) (p : BitVec 6) : Nat := field (s.descWord p 28) 20 16
def State.ringAddr (s : State) (p : BitVec 6) : Word := s.descWord p 32
def State.ringSid (s : State) (p : BitVec 6) : BitVec 16 := (s.descWord p 36).setWidth 16
def State.ringLog2 (s : State) (p : BitVec 6) : Nat := field (s.descWord p 36) 23 16

/-- The quiet time of a partition in ns, or none when stall detection is disabled (02 R62). -/
def State.quietNs (s : State) (p : BitVec 6) : Option Nat :=
  if s.quietSel p = 31 then none else some (2 ^ (min 20 (s.quietSel p)) * 1000)

/-- The position of a cell in its partition's cell list (02 R63). -/
def State.cellRank (s : State) (p : BitVec 6) (c : CellId) : Nat := (s.part p).cells.idxOf c

/-- The spill-directory word of a cell and a set, and a bucket's address (02 R63). -/
def State.spillDir (s : State) (p : BitVec 6) (c : CellId) (set : Nat) : Nat :=
  s.cellarBase p + 32768 * s.cellRank p c + 4 * set
def State.bucketAt (s : State) (p : BitVec 6) (k : Nat) : Nat :=
  s.cellarBase p + 32768 * (s.part p).cells.length + 64 * k

/-- Word `i` of bucket `k`, and writing it (02 R64). -/
def State.bucketWord (s : State) (p : BitVec 6) (k i : Nat) : Word := s.peekData (s.bucketAt p k + 4 * i)
def State.setBucketWord (s : State) (p : BitVec 6) (k i : Nat) (v : Word) : State :=
  s.poke (s.ownWord (s.bucketAt p k + 4 * i)) ⟨Tag.sys, v⟩

def State.bucketCount (s : State) (p : BitVec 6) (k : Nat) : Nat := field (s.bucketWord p k 0) 27 26
def State.bucketNext (s : State) (p : BitVec 6) (k : Nat) : Nat := (s.bucketWord p k 1).toNat

/-- The bucket kinds of 02 R64. -/
abbrev kindSpill : Nat := 1
abbrev kindQueue : Nat := 2
abbrev kindHold : Nat := 3
abbrev kindDefer : Nat := 4

/-- Entry `e` of bucket `k`, and writing it. -/
def State.bucketToken (s : State) (p : BitVec 6) (k e : Nat) : Token :=
  let w := fun i => s.bucketWord p k (4 + 4 * e + i)
  wordsToken (w 0) (w 1) (w 2) (w 3)
def State.setBucketToken (s : State) (p : BitVec 6) (k e : Nat) (t : Token) : State :=
  s.each ((List.range 4).zip (tokenWords t)) fun s (i, w) => s.setBucketWord p k (4 + 4 * e + i) w

/-- A bucket's control word (02 R64). -/
def bucketHead (kind count : Nat) : Word := BitVec.ofNat 32 (kind * 2 ^ 28 + count * 2 ^ 26)

/-! ### The report ring (02 R78, R79) -/

/-- Who a token of hardware comes from when a cell reports. -/
def whoCell (w : Who) : BitVec 16 :=
  match w with
  | .cell c => c.setWidth 16
  | _ => 0xFFFF

/-- A Control token with EVT set to a partition's event context (02 R78, R717). -/
def State.eventToken (s : State) (w : Who) (p : BitVec 6) (stmt : BitVec 16) (v : TWord) : State :=
  let ctx := s.eventCtx p
  if isNullCtx ctx then s
  else s.send w (mkToken ctx stmt 0 portControl flEvt (s.ringSid p) v) none false false

/-- A completion token of a channel program, an engine command, an LCOMMIT or a mailbox response: to the
partition's event context at the named statement and port, with EVT set (02 R717, 03 R166). -/
def State.completionToken (s : State) (w : Who) (p : BitVec 6) (stmt : BitVec 16) (port : BitVec 2)
    (v : TWord) : State :=
  let ctx := s.eventCtx p
  if isNullCtx ctx then s
  else s.send w (mkToken ctx stmt 0 port flEvt (s.ringSid p) v) none false false

/-- The words of a report record (02 R79). -/
structure Report where
  typ : Nat
  info : Nat := 0
  ctx : Word := 0
  sid : BitVec 16 := 0
  cell : BitVec 16
  count : Word := 0
  inStore : Nat := 0
  inCellar : Nat := 0
  held : Nat := 0
  requests : Nat := 0
  entries : List (BitVec 64) := []
  time : Option (BitVec 64) := none
  deriving DecidableEq, Repr

/-- The 32 words of a record (02 R79). -/
def Report.words (r : Report) (now : BitVec 64) : List Word :=
  let n := min 12 r.entries.length
  let sat (v : Nat) := BitVec.ofNat 16 (min 0xFFFF v)
  [BitVec.ofNat 32 (r.typ + n * 256 + r.info * 65536), r.ctx, (r.cell ++ r.sid : BitVec 32), r.count,
   now.setWidth 32, (now >>> 32).setWidth 32, (sat r.inCellar ++ sat r.inStore : BitVec 32),
   (sat r.requests ++ sat r.held : BitVec 32)]
    ++ (((r.entries.take 12) ++ List.replicate (12 - n) 0).map
          fun (e : BitVec 64) => [e.setWidth 32, (e >>> 32).setWidth 32]).flatten

/-- An entry of a record (02 R79). -/
def recEntry (t : Token) (kind : Nat) : BitVec 64 :=
  t.stmt ++ t.iter ++ t.port ++ BitVec.ofNat 2 kind ++ t.val.data

/-- Write one record to its ring, when it has room (02 R78): the indices run freely and a record's place
is its index modulo the ring's size (DEDUCED, assumption 8). Some state when it was written or dropped
(08 R714: a write that failed leaves a fault record with the word that failed; where the indices cannot be read the
record is dropped), none when the ring is full. -/
def State.ringWrite (s : State) (w : Who) (p : BitVec 6) (rec : List Word) : Option State :=
  let sid := s.ringSid p
  let a := s.ringAddr p
  let src := match w with
    | .cell c => s.cellSource c
    | .home h => homeSource h 0
    | .channel q => portSource q 0
    | .benus => platSource 0
    | _ => platSource 15
  let s := s.touches sid a 2
  match s.spaceRead sid a, s.spaceRead sid (a + 1) with
  | .ok wi, .ok ri =>
    if (wi.data - ri.data).toNat ≥ 2 ^ s.ringLog2 p then none
    else
      let at_ := a + 16 + BitVec.ofNat 32 (32 * (wi.data.toNat % 2 ^ s.ringLog2 p))
      match s.spaceWrites sid at_ (rec.map TWord.int) with
      | .error (at_, c, s) => some (s.writeFailed src sid at_ c)
      | .ok s =>
        match s.spaceWrite sid a (TWord.int (wi.data + 1)) with
        | .error c => some (s.writeFailed src sid a c)
        | .ok s => some (s.eventToken w p (s.eventStmt p) ⟨Tag.ptr, at_⟩)
  | _, _ => some s

/-- A writer reports (02 R78): a record waits in its writer while the ring is full, behind that writer's earlier
records for the same ring. Between writers the order is not kept: what another writer has waiting holds nothing up
(DESIGN CHOICE, assumption 108). -/
def State.reportRecord (s : State) (w : Who) (p : BitVec 6) (r : Report) : State :=
  let rec_ := r.words (r.time.getD s.now)
  let wait := { s with waitRecs := s.waitRecs ++ [(w, { part := p, words := rec_ })] }
  if s.waitRecs.any fun x => x.1 == w && x.2.part == p then wait
  else (s.ringWrite w p rec_).getD wait

/-! ### Buckets and chains (02 R64 to R66) -/

/-- Low-space levels and exhaustion, after FREE_COUNT fell (02 R66). -/
def State.checkSpace (s : State) (p : BitVec 6) (w : Who) : State :=
  let pool := s.cellarPool p
  let free := s.cellarFree p
  let low := [8, 7, 6, 5, 4, 3, 2].filter fun k => free < pool * k / 64 && !(s.part p).lowLevels.contains k
  let s := s.each low fun s k =>
    let s := s.modPart p fun x => { x with lowLevels := x.lowLevels ++ [k] }
    (s.reportRecord w p { typ := 4, cell := whoCell w, count := BitVec.ofNat 32 free }).log 4
      (p.setWidth 8) ([4, 0, 0, 0] ++ natLe 4 free)
  if free ≤ pool / 64 && !(s.part p).exhausted then
    let s := s.modPart p fun x => { x with exhausted := true }
    (s.reportRecord w p { typ := 5, cell := whoCell w, count := BitVec.ofNat 32 free }).log 4
      (p.setWidth 8) ([5, 0, 0, 0] ++ natLe 4 free)
  else s

/-- Levels report again only after FREE_COUNT has risen to the next level up (02 R66). -/
def State.raiseSpace (s : State) (p : BitVec 6) : State :=
  let pool := s.cellarPool p
  let free := s.cellarFree p
  s.modPart p fun x =>
    { x with lowLevels := x.lowLevels.filter fun k => free < pool * (k + 1) / 64
             exhausted := x.exhausted && decide (free ≤ pool / 64) }

/-- The bucket after `k` in the free list. Benus makes the list without touching its buckets: one whose word 1
still is EMPTY is followed by the next number (DESIGN CHOICE, assumption 7). -/
def State.freeNext (s : State) (p : BitVec 6) (k : Nat) : Word :=
  if (s.peek (s.ownWord (s.bucketAt p k + 4))).tag = Tag.empty then
    if k + 1 < s.cellarPool p then BitVec.ofNat 32 (k + 1) else 0
  else s.bucketWord p k 1

/-- Take a bucket from the free list (02 R66): the last 1/64 of the pool serves only Control tokens and
deferral records. -/
def State.takeBucket (s : State) (p : BitVec 6) (w : Who) (reserve : Bool) : Option (Nat × State) :=
  let free := s.cellarFree p
  let k := (s.descWord p 16).toNat
  if k = 0 ∨ free = 0 ∨ (!reserve && decide (free ≤ s.cellarPool p / 64)) then none
  else
    let s := s.setDescWord p 16 (s.freeNext p k)
    some (k, (s.setDescWord p 20 (BitVec.ofNat 32 (free - 1))).checkSpace p w)

/-- A bucket that is free, or never was used, reads as SYS zeros below its link, as every word of the Cellar is SYS
(02 R63, R64; assumption 109): what `p`'s Cellar shows where nothing has written. -/
def State.cellarWord (s : State) (p : BitVec 6) (a : Nat) : Option TWord :=
  let base := s.cellarBase p
  let first := base + 32768 * (s.part p).cells.length
  let size := first - base + 64 * s.cellarPool p
  if (s.part p).cellar = 0 ∨ a < base ∨ base + size ≤ a then none
  else if first + 64 ≤ a ∧ (a - first) % 64 = 4 then some ⟨Tag.sys, s.freeNext p ((a - first) / 64)⟩
  else some ⟨Tag.sys, 0⟩

/-- Return a bucket to the free list (02 R65). -/
def State.freeBucket (s : State) (p : BitVec 6) (k : Nat) : State :=
  let s := (s.setBucketWord p k 0 0).setBucketWord p k 1 (s.descWord p 16)
  let s := s.setDescWord p 16 (BitVec.ofNat 32 k)
  (s.setDescWord p 20 (BitVec.ofNat 32 (s.cellarFree p + 1))).raiseSpace p

/-- Add a token to a chain at its head bucket (02 R65): the chain's new head and the state, or none
when a bucket is needed and none may be taken. -/
def State.chainAdd (s : State) (p : BitVec 6) (w : Who) (kind : Nat) (key head : Word) (t : Token)
    (reserve : Bool) : Option (Word × State) :=
  let h := head.toNat
  let n := s.bucketCount p h
  if h ≠ 0 ∧ n < 3 then
    some (head, (s.setBucketToken p h n t).setBucketWord p h 0 (bucketHead kind (n + 1)))
  else
    match s.takeBucket p w reserve with
    | none => none
    | some (k, s) =>
      let s := s.setBucketWord p k 0 (bucketHead kind 1)
      let s := s.setBucketWord p k 1 head
      let s := (s.setBucketWord p k 2 key).setBucketWord p k 3 0
      some (BitVec.ofNat 32 k, s.setBucketToken p k 0 t)

/-- The buckets of a chain from its head; `fuel` is the pool's size. -/
def State.chainBuckets (s : State) (p : BitVec 6) : Nat → Nat → List Nat
  | 0, _ => []
  | n + 1, k => if k = 0 then [] else k :: State.chainBuckets s p n (s.bucketNext p k)

/-- The entries of a chain, the first added first: its bucket, its place, and its token. -/
def State.chainList (s : State) (p : BitVec 6) (head : Word) : List (Nat × Nat × Token) :=
  (((s.chainBuckets p (s.cellarPool p) head.toNat).reverse).map fun k =>
    (List.range (s.bucketCount p k)).map fun e => (k, e, s.bucketToken p k e)).flatten

/-- Remove entry `e` of bucket `k` from the chain that begins at `head`: the chain's new head and the
state. A bucket whose COUNT falls to 0 returns to the free list (02 R65). -/
def State.chainRemove (s : State) (p : BitVec 6) (head : Word) (k e : Nat) : Word × State :=
  let n := s.bucketCount p k
  let kind := field (s.bucketWord p k 0) 31 28
  if n ≤ 1 then
    let next := s.bucketWord p k 1
    let pred := (s.chainBuckets p (s.cellarPool p) head.toNat).find? fun b => s.bucketNext p b == k
    let s := match pred with
      | some b => s.setBucketWord p b 1 next
      | none => s
    ((if head.toNat = k then next else head), s.freeBucket p k)
  else
    let later := ((List.range n).filter (e < ·)).map fun i => (i - 1, s.bucketToken p k i)
    let s := s.each later fun s (i, t) => s.setBucketToken p k i t
    (head, s.setBucketWord p k 0 (bucketHead kind (n - 1)))

/-- The matching-store set of a token (02 R54) under a cluster's salt. -/
def msSet (salt : BitVec 13) (t : Token) : BitVec 13 :=
  let f := frameOf t.ctx
  let a : BitVec 13 := f.setWidth 13 ^^^ ((f >>> 13).setWidth 13 <<< 6)
  let b : BitVec 13 := t.stmt.setWidth 13 ^^^ ((t.stmt >>> 13).setWidth 13 <<< 10)
  let rb : BitVec 13 := (b <<< 5) ||| (b >>> 8)
  let c : BitVec 13 := (t.iter.setWidth 13 <<< 1) ^^^ (if t.iter.getLsbD 11 then 1 else 0)
  a ^^^ rb ^^^ c ^^^ salt

/-- The salt of a cell's cluster (02 R88). -/
def State.saltOf (s : State) (c : CellId) : BitVec 13 :=
  (s.reg (clcBase (clusterOf c).toNat + 0x800)).setWidth 13

end Sys2Proof.Machine
end

