-- ==== Sys2Proof/Machine/Ledger.lean ====
section
/-! DEFINITION. Sending a link frame (11 R480, R486), the ledger (11 R463 to R476, R719) and mirroring
(11 R477): what opens, changes and closes an entry. -/

namespace Sys2Proof.Machine

/-! ### Frames (11 R480, R481, R486) -/

abbrev tyData : BitVec 4 := 0
abbrev tyAck : BitVec 4 := 1
abbrev tyE2e : BitVec 4 := 2
abbrev tyReq : BitVec 4 := 3
abbrev tyQuery : BitVec 4 := 4
abbrev tyAnswer : BitVec 4 := 5
abbrev tyAbort : BitVec 4 := 6
abbrev tyCredit : BitVec 4 := 7
abbrev tyPause : BitVec 4 := 8
abbrev tyHello : BitVec 4 := 9
abbrev tyResolve : BitVec 4 := 10

/-- Frames with an FSEQ of their own; types 1 and 7 to 10 repeat the last FSEQ sent (11 R481). -/
def hasFseq (t : BitVec 4) : Bool := decide (t.toNat ≤ 6) && t != tyAck

/-- A frame before its link fields are set. -/
def frame11 (lch : BitVec 16) (tn : BitVec 64) (code : Byte) (payload : List Byte) : CFrame :=
  { ver := 1, first := false, last := false, retx := false, cmp := false, enc := false, prio := Config.lchPriority lch,
    lch := lch, tn := tn, fseq := 0, ackseq := 0, offset := 0, flow := 0, session := 0, code := code,
    payload := payload, crcOk := true }

abbrev linkDown : BitVec 2 := 0
abbrev linkHello : BitVec 2 := 1
abbrev linkUp : BitVec 2 := 2

/-- A port's registers and counters stand in the channel block; a fabric port has none. -/
def State.chnBump (s : State) (n : BitVec 4) (off : Nat) : State :=
  if n.toNat < 8 then s.bump (chnBase n.toNat + off) else s

/-- Put one frame on the link: it carries ACKSEQ and SESSION, and the next FSEQ where it has one of its
own; then it stays until it is acknowledged (11 R486). -/
def State.putFrame (s : State) (n : BitVec 4) (typ : BitVec 4) (f : CFrame) : State :=
  let p := s.port n
  let own := hasFseq typ
  let f := { f with fseq := if own then p.fseq else p.lastFseq, ackseq := p.ackseq, session := p.session }
  let s := s.modPort n fun p =>
    { p with fseq := if own then p.fseq + 1 else p.fseq
             lastFseq := f.fseq
             sinceAck := 0
             unacked := if own then p.unacked ++ [{ fseq := f.fseq, typ := typ, frame := f }] else p.unacked }
  (s.emit (.frame n typ f)).chnBump n 0x20

/-- The port may send now (11 R488, R491): not during a switch-over, nor while the frame's priority is
paused. -/
def Port.maySend (p : Port) (f : CFrame) : Bool :=
  !p.switching && (p.pausedPrios == 0 || !p.pausedPrios.getLsbD f.prio.toNat)

/-- Send what waits, in order, while the peer's window has room (11 R482, R486); `fuel` is the queue's
length. -/
def State.pump (s : State) (n : BitVec 4) : Nat → State
  | 0 => s
  | k + 1 =>
    let p := s.port n
    match p.txq with
    | [] => s
    | (t, f) :: rest =>
      if p.link ≠ linkUp ∨ !p.maySend f ∨ (hasFseq t ∧ p.unacked.length ≥ p.window.toNat) then s
      else State.pump ((s.setPort n { p with txq := rest }).putFrame n t f) n k

/-- Send a frame: at once when it is link-only, else in its turn. Nothing leaves a port whose link is not
UP (11 R485). -/
def State.sendFrame (s : State) (n : BitVec 4) (typ : BitVec 4) (f : CFrame) : State :=
  let p := s.port n
  if p.link ≠ linkUp then s
  else if !hasFseq typ && p.maySend f then s.putFrame n typ f
  else (s.setPort n { p with txq := p.txq ++ [(typ, f)] }).pump n (p.txq.length + 1)

/-! ### Paths and credit (11 R458, R487, R489) -/

/-- The path that a word of `chan.path.set` names for a link channel of port `n`, where it may serve
(11 R489, R497): a channel port that CHN_ALT allows, or a fabric port whose peer is the module named. -/
def State.altPath (s : State) (n : BitVec 3) (w : BitVec 16) : Option (BitVec 4) :=
  let q : BitVec 3 := (w >>> 12).setWidth 3
  if w = 0xFFFF then none
  else if w.getLsbD 15 then
    let f : BitVec 4 := 8 + q.setWidth 4
    if (s.port f).peer = w.setWidth 12 then some f else none
  else if (s.reg (chnBase n.toNat + 0xC)).getLsbD q.toNat then some (q.setWidth 4) else none

/-- The paths of a link channel: its own port, then its alternates in order. -/
def State.pathsOf (s : State) (n : BitVec 3) (l : BitVec 16) : List (BitVec 4) :=
  chPort n :: (s.lch (chPort n) l).alts.filterMap (s.altPath n)

/-- The first path in UP state. -/
def State.upPath (s : State) (n : BitVec 3) (l : BitVec 16) : Option (BitVec 4) :=
  (s.pathsOf n l).find? fun q => (s.port q).link == linkUp

/-- The READ STREAM that serves a link channel as it arrives at port `n` (11 R457). -/
def State.streamAt (s : State) (n : BitVec 4) (l : BitVec 16) : Option (BitVec 3 × BitVec 8 × Sub) :=
  ((List.range 8).map (BitVec.ofNat 3)).findSome? fun q =>
    if (s.pathsOf q l).contains n then
      (s.port (chPort q)).subs.findSome? fun (b, u) =>
        if u.lch = l ∧ u.prog.running ∧ u.prog.streaming then some (q, BitVec.ofNat 8 b, u) else none
    else none

/-- The queue, and the flow, of a READ STREAM order (11 R456). -/
def streamQueue (ws : List Word) : BitVec 6 := (ws.getD 4 0).setWidth 6
def streamFlow (ws : List Word) : Option (BitVec 12) :=
  if bit (ws.headD 0) 3 then some (BitVec.ofNat 12 (field (ws.headD 0) 23 12)) else none

/-- Transactions that will still take a descriptor of a queue: those not taken in yet, and those that the
peers may start. -/
def State.promised (s : State) (p q : BitVec 6) (but : BitVec 4 × BitVec 16) : Nat :=
  (s.ports.map fun (k, y) =>
    let n := BitVec.ofNat 4 k
    (y.rx.filter fun r => r.part == p && streamQueue r.words == q).length
      + (y.lchs.map fun (l, c) =>
          match s.streamAt n (BitVec.ofNat 16 l) with
          | some (_, _, u) =>
            if (n, BitVec.ofNat 16 l) ≠ but ∧ u.part = p ∧ streamQueue u.prog.words = q then
              (c.creditIn - c.startedIn).toNat else 0
          | none => 0).sum).sum

/-- The limit that the module may grant on a link channel (11 R458, R487): from the free descriptors of the
stream's queue; none where it grants no further CREDIT. -/
def State.creditLimit (s : State) (n : BitVec 4) (l : BitVec 16) : Option Word :=
  let c := s.lch n l
  match s.streamAt n l with
  | none => none
  | some (_, _, u) =>
    let ws := u.prog.words
    let q := streamQueue ws
    let noPause := !(s.port n).caps.getLsbD 2 && ((streamFlow ws).map fun f => (s.flow f).full).getD false
    if c.draining || c.ending || (s.part u.part).quiesced || noPause then none
    else
      some (c.startedIn + BitVec.ofNat 32 ((s.workq u.part q).free.length - s.promised u.part q (n, l)))

/-- Send CREDIT with the limit of a link channel. -/
def State.sendCredit (s : State) (n : BitVec 4) (l : BitVec 16) : State :=
  s.sendFrame n tyCredit (frame11 l 0 0 (natBe 4 (s.lch n l).creditIn.toNat))

/-- Raise the limit where it may rise, and send CREDIT then; a limit is never lowered (11 R487). -/
def State.grantCredit (s : State) (n : BitVec 4) (l : BitVec 16) : State :=
  let c := s.lch n l
  match s.creditLimit n l with
  | none => s
  | some v =>
    if (s.port n).link = linkUp ∧ 0 < (v - c.creditIn).toNat ∧ (v - c.creditIn).toNat < 2 ^ 31 then
      (s.modLch n l fun c => { c with creditIn := v }).sendCredit n l
    else s

/-- Raise the limits of every link channel that a queue feeds. -/
def State.grantQueue (s : State) (p q : BitVec 6) : State :=
  s.each s.ports fun s (k, y) =>
    s.each y.lchs fun s (l, _) =>
      let n := BitVec.ofNat 4 k
      match s.streamAt n (BitVec.ofNat 16 l) with
      | some (_, _, u) =>
        if u.part = p ∧ streamQueue u.prog.words = q then s.grantCredit n (BitVec.ofNat 16 l) else s
      | none => s

/-! ### Transaction numbers (11 R463, R464) -/

/-- The next TN of the module. -/
def State.newTn (s : State) : BitVec 64 × State :=
  let c := s.tn.toNat % 2 ^ 52
  (BitVec.ofNat 64 (s.hier.modn.toNat * 2 ^ 52 + c), { s with tn := BitVec.ofNat 64 ((c + 1) % 2 ^ 52) })

/-! ### Entries (11 R468, R469) -/

abbrev ldFree : BitVec 4 := 0
abbrev ldOpen : BitVec 4 := 1
abbrev ldMirroring : BitVec 4 := 2
abbrev ldAccepted : BitVec 4 := 3
abbrev ldInDoubt : BitVec 4 := 4
abbrev ldClosed : BitVec 4 := 5

abbrev ocPerformed : Byte := 1
abbrev ocNotPerformed : Byte := 2
abbrev ocUnprocessed : Byte := 3
abbrev ocPartial : Byte := 4
abbrev ocAbandoned : Byte := 5
abbrev ocRejected : Byte := 6

/-- The lowest index of a list of rising keys that is free. -/
def firstGap {α : Type} : Map α → Nat → Nat
  | [], n => n
  | (k, _) :: m, n => if k = n then firstGap m (n + 1) else n

/-- The entry of a TN, inbound or not. -/
def State.findEntry (s : State) (tn : BitVec 64) (inbound : Bool) : Option (Nat × Ledger) :=
  s.ledger.find? fun e => e.2.tn == tn && e.2.state != ldFree && (e.2.kind.getLsbD 0) == inbound
    && !e.2.kind.getLsbD 3

/-- Entries in use by a partition (11 R475). -/
def State.ledgerUse (s : State) (p : BitVec 6) : Nat :=
  (s.ledger.filter fun e => e.2.state != ldFree && e.2.part == p).length

/-- The ledger takes a further entry of a partition: within its quota and the 16,777,216 entries, of which an eighth
is set aside for a mirror partner (11 R477). -/
def State.ledgerRoom (s : State) (p : BitVec 6) : Bool :=
  decide (s.ledgerUse p < (s.part p).ledgerQuota) && decide (s.ledger.length < if s.hier.partner.isSome then 2 ^ 24 - 2 ^ 21 else 2 ^ 24)

/-- Open an entry at the lowest free index. -/
def State.openEntry (s : State) (e : Ledger) : Nat × State :=
  let i := firstGap s.ledger 0
  (i, s.setEntry i { e with opened := s.now })

/-- The 16 words of an entry (11 R468), as a notice copies it. -/
def Ledger.words (e : Ledger) : List Word :=
  bytesWords 16 (natLe 8 e.tn.toNat ++ [e.state.setWidth 8, e.outcome, e.kind] ++ [e.path.setWidth 8]
    ++ natLe 2 e.sid.toNat ++ natLe 2 e.sub.toNat ++ natLe 4 e.count.toNat ++ natLe 2 e.flow.toNat
    ++ natLe 2 (if e.isMirrored then e.partner.toNat else 0xFFFF) ++ natLe 8 e.itemTn.toNat
    ++ natLe 8 e.opened.toNat
    ++ ((e.body ++ List.replicate (6 - e.body.length) 0).map wordBytes).flatten)

/-- Write a notice to a partition's notice ring (11 R474): some state when it was written or dropped (08 R714),
none when the ring is full. -/
def State.noticeWrite (s : State) (p : BitVec 6) (rec_ : List Word) : Option State :=
  match (s.part p).notice with
  | none => some s
  | some (a, sid, log2, stmt) =>
    let s := s.touches sid a 2
    match s.spaceRead sid a, s.spaceRead sid (a + 1) with
    | .ok wi, .ok ri =>
      if (wi.data - ri.data).toNat ≥ 2 ^ log2 then none
      else
        let at_ := a + 16 + BitVec.ofNat 32 (16 * (wi.data.toNat % 2 ^ log2))
        match s.spaceWrites sid at_ (rec_.map TWord.int) with
        | .error (at_, c, s) => some (s.writeFailed (ledgerSource 0) sid at_ c)
        | .ok s =>
          match s.spaceWrite sid a (TWord.int (wi.data + 1)) with
          | .error c => some (s.writeFailed (ledgerSource 0) sid a c)
          | .ok s => some (s.eventToken (.threshold 5) p stmt ⟨Tag.ptr, at_⟩)
    | _, _ => some s

/-- Send a notice: behind earlier ones of the partition that wait for room. -/
def State.sendNotice (s : State) (p : BitVec 6) (rec_ : List Word) : State :=
  let wait := s.modPart p fun x => { x with noticeWait := x.noticeWait ++ [rec_] }
  if (s.part p).noticeWait != [] then wait else (s.noticeWrite p rec_).getD wait

/-- Copy an entry to the mirror partner over the fabric (11 R477). -/
def State.mirrorCopy (s : State) (e : Ledger) : State :=
  if e.isMirrored then s.emit (.mirror e.partner e.words) else s

/-- An entry returns to FREE, and its copy with it (11 R475, R477). -/
def State.freeEntry (s : State) (i : Nat) : State :=
  (s.setEntry i entry0).mirrorCopy { s.entry i with state := ldFree }

/-- The link channel of a subchannel by its number (11 R454). -/
def State.lchOf (s : State) (n : BitVec 16) : BitVec 16 := (s.sub ((n >>> 8).setWidth 3) (n.setWidth 8)).lch

/-- Send RESOLVE, now or when the next session opens (11 R474, R485). -/
def State.sendResolve (s : State) (n : BitVec 4) (tn : BitVec 64) (l : BitVec 16) (outcome : Byte) : State :=
  if (s.port n).link = linkUp then s.sendFrame n tyResolve (frame11 l tn outcome [])
  else s.modPort n fun p => { p with resolves := p.resolves ++ [(tn, l, outcome)] }

/-- Close an entry with a definite outcome (11 R470, R474): a notice for outcomes 3 to 6 and for an
outbound entry that was IN_DOUBT, RESOLVE to the far end for an inbound one with outcome 3 to 6. -/
def State.closeEntry (s : State) (i : Nat) (outcome : Byte) : State :=
  let e := { s.entry i with state := ldClosed, outcome := outcome }
  let s := (s.setEntry i e).mirrorCopy e
  let inbound := e.kind.getLsbD 0
  let late : Bool := decide (3 ≤ outcome.toNat) && decide (outcome.toNat ≤ 6)
  let s := if late || (!inbound && e.doubted) then s.sendNotice e.part e.words else s
  if inbound && late then s.sendResolve (e.path.setWidth 4) e.tn (s.lchOf e.sub) outcome else s

/-- An entry of the mirror partner that is closed here (11 R478): the notice goes through the Hart's log. -/
def State.closeCopy (s : State) (tn : BitVec 64) (outcome : Byte) : State :=
  s.each (s.copies.filter fun e => e.tn == tn && e.state != ldClosed) fun s e =>
    let e' := { e with state := ldClosed, outcome := outcome }
    let s := { s with copies := s.copies.map fun (x : Ledger) => if x.tn == tn && x.kind == e.kind then e' else x }
    (s.bump (ldgBase + 8)).log 13 (e.part.setWidth 8) (e'.words.map wordBytes).flatten

/-- An outbound entry becomes IN_DOUBT (11 R472). -/
def State.doubtEntry (s : State) (i : Nat) : State :=
  let e := { s.entry i with state := ldInDoubt, doubted := true }
  ((s.setEntry i e).mirrorCopy e).bump (ldgBase + 4)

/-! ### The entry of a channel order (11 R455 to R457, R470) -/

abbrev codeRead : Nat := 1
abbrev codeWrite : Nat := 2
abbrev codeSense : Nat := 3
abbrev codeControl : Nat := 4
abbrev codeJump : Nat := 5
abbrev codeWait : Nat := 6

/-- CODE of an order, and its bytes. -/
def orderCode (ws : List Word) : Nat := field (ws.headD 0) 31 28
def orderStream (ws : List Word) : Bool := bit (ws.headD 0) 4
def orderBytes (ws : List Word) : Word :=
  if orderCode ws = codeSense then 32 else if orderCode ws = codeControl then 0 else ws.getD 1 0

/-- Change the program of a subchannel. -/
def State.modProg (s : State) (n : BitVec 3) (b : BitVec 8) (f : Program → Program) : State :=
  s.modSub n b fun u => { u with prog := f u.prog }

/-- A program ends: its report is due (11 R462). -/
def State.endProgram (s : State) (n : BitVec 3) (b : BitVec 8) (outcome : Byte) (residual : Word) : State :=
  s.modProg n b fun g => { g with due := 2, outcome := outcome, residual := residual, held := false, words := []
                                  streaming := false, event := none, entry := none }

/-- The entry of the fetched order of a program opens (11 R470, 07 R316): mirrored where MIRROR says so.
With no room in the ledger the program ends (assumption 32). -/
def State.openOrder (s : State) (n : BitVec 3) (b : BitVec 8) (itemTn : BitVec 64) (flow : BitVec 12) : State :=
  let u := s.sub n b
  let ws := u.prog.words
  let isMirrored := bit (ws.headD 0) 5
  if !s.ledgerRoom u.part then s.endProgram n b ocNotPerformed (orderBytes ws)
  else
    let (tn, s) := s.newTn
    let (i, s) := s.openEntry
      { entry0 with
        tn := tn, state := if isMirrored then ldMirroring else ldOpen
        kind := (if isMirrored then 2 else 0) ||| (if u.prog.item.isSome then 4 else 0)
        path := n.setWidth 16, sid := u.sid, part := u.part, sub := n.setWidth 16 <<< 8 ||| b.setWidth 16
        count := orderBytes ws, flow := flow, itemTn := itemTn
        isMirrored := isMirrored, partner := (s.hier.partner).getD 0 }
    (s.mirrorCopy (s.entry i)).modProg n b fun g => { g with entry := some i, held := false, tn := tn }

/-! ### LCOMMIT (11 R476, R719) -/

/-- Fields of an LCOMMIT descriptor's word 0. -/
def lcOp (w : Word) : Nat := field w 31 28
def lcMirror (w : Word) : Bool := bit w 27
def lcFinal (w : Word) : Bool := bit w 26
def lcItem (w : Word) : Bool := bit w 25

/-- A malformed descriptor (11 R719): a wrong tag, a reserved field that is not 0, an OP other than 1
or 2, or FINAL without ITEM. -/
def lcMalformed (ws : List TWord) : Bool :=
  let d := ws.map TWord.data
  let w0 := d.headD 0
  let tagsOk := (List.range 12).all fun i =>
    let t := (ws.getD i TWord.zero).tag
    if i = 1 ∧ lcItem w0 then t == Tag.ptr else t == Tag.int
  !tagsOk || field w0 24 18 != 0 || (lcOp w0 != 1 && lcOp w0 != 2) || (lcFinal w0 && !lcItem w0)
    || (!lcItem w0 && (d.getD 1 0) != 0) || (d.getD 4 0) != 0 || (d.getD 5 0) != 0

/-- The record a RETIRE names: a record of the SID that is closed. -/
def State.findRecord (s : State) (tn : BitVec 64) (sid : BitVec 16) : Option Nat :=
  (s.ledger.find? fun e => e.2.tn == tn && e.2.kind.getLsbD 3 && e.2.sid == sid
    && e.2.state != ldFree).map Prod.fst

def wordsTn (ws : List Word) : BitVec 64 := ws.getD 3 0 ++ ws.getD 2 0

/-- The completion token of an LCOMMIT: the descriptor's address, tagged PTR (11 R476). -/
def State.lcommitToken (s : State) (p : BitVec 6) (desc : Word) (w0 : Word) : State :=
  s.completionToken (.threshold 5) p (w0.setWidth 16) ((w0 >>> 16).setWidth 2) ⟨Tag.ptr, desc⟩

/-- An LCOMMIT passes (11 R316, R719): a RECORD opens and writes its entry, and completes unless it is
mirrored; a RETIRE frees the record it names. -/
def State.lcommitPass (s : State) (desc : Word) (sid : BitVec 16) (p : BitVec 6) (ws : List Word)
    (itemTn : BitVec 64) : State :=
  let w0 := ws.headD 0
  if lcOp w0 = 1 then
    let (tn, s) := s.newTn
    let (i, s) := s.openEntry
      { entry0 with
        tn := tn, state := if lcMirror w0 then ldMirroring else ldOpen
        kind := (if lcMirror w0 then 2 else 0) ||| (if lcItem w0 then 4 else 0) ||| 8
        sid := sid, part := p, itemTn := itemTn, body := ws.drop 6, desc := desc
        isMirrored := lcMirror w0, partner := (s.hier.partner).getD 0, token := w0.setWidth 18 }
    let wr (s : State) (k : Word) (v : Word) : State :=
      match s.spaceWrite sid (desc + k) (TWord.int v) with
      | .ok s => s
      | .error c => s.writeFailed (ledgerSource 0) sid (desc + k) c
    let s := wr (wr s 2 (tn.setWidth 32)) 3 ((tn >>> 32).setWidth 32)
    if lcMirror w0 then s.mirrorCopy (s.entry i)
    else (s.setEntry i { s.entry i with state := ldClosed, outcome := ocPerformed }).lcommitToken p desc w0
  else
    let s := match s.findRecord (wordsTn ws) sid with
      | some i => s.freeEntry i
      | none => s
    s.lcommitToken p desc w0

end Sys2Proof.Machine
end

