-- ==== Sys2Proof/Machine/Flows.lean ====
section
/-! DEFINITION. Work items, ordered flows and the Threshold (07 R310 to R319), and contexts that fail
(13 R547). -/

namespace Sys2Proof.Machine

/-- An item by its number. -/
def State.item (s : State) (n : Nat) : Option WItem := s.items.find? fun i => i.id == n

/-- Change an item. -/
def State.modItem (s : State) (n : Nat) (f : WItem → WItem) : State :=
  { s with items := s.items.map fun i => if i.id == n then f i else i }

/-- The item of a partition and space that a descriptor's address names, while it is not finished. -/
def State.itemAt (s : State) (p : BitVec 6) (sid : BitVec 16) (desc : Word) : Option WItem :=
  s.items.find? fun i => i.part == p && i.sid == sid && i.desc == desc && !i.finished

/-- The Threshold slice of a flow (07 R313). -/
def flowSlice (f : BitVec 12) : BitVec 4 := f.setWidth 4

/-- The flow's occupancy (07 R313). -/
def Flow.occupancy (f : Flow) : Nat := (f.nextSeq - f.nextRel).toNat

/-- Write STATE of an item's descriptor, word 7 (07 R311). -/
def State.itemState (s : State) (i : WItem) (v : Word) : State :=
  match s.spaceWrite i.sid (i.desc + 7) (TWord.int v) with
  | .ok s => s
  | .error c => s.writeFailed (clusterSource (flowSlice (i.flow.getD 0)) 27) i.sid (i.desc + 7) c

/-- The inbound entry of an item closes (11 R470). -/
def State.closeInbound (s : State) (i : WItem) (outcome : Byte) : State :=
  match s.findEntry i.tn true with
  | some (k, e) => if e.state == ldAccepted then s.closeEntry k outcome else s
  | none => s

/-- A descriptor returns to its ring, and its item is finished (07 R312), when the item has ended and
every release of it has passed, or when it is abandoned. -/
def State.tryFinish (s : State) (n : Nat) : State :=
  match s.item n with
  | none => s
  | some i =>
    if !i.finished && (i.abandoned || (i.ended && i.releases == 0)) then
      let s := s.modItem n fun x => { x with finished := true }
      let s := s.modWorkq i.part i.queue fun q =>
        { q with free := q.free ++ [i.desc], items := q.items.filter (· != n) }
      s.grantQueue i.part i.queue
    else s

/-- An item ends: its descriptor STATE becomes 1 (07 R311, R315) and its inbound transaction is
complete (11 R470). -/
def State.markEnded (s : State) (n : Nat) : State :=
  match s.item n with
  | none => s
  | some i =>
    if i.ended then s
    else
      let s := s.modItem n fun x => { x with ended := true }
      (((s.itemState i 1).closeInbound i ocPerformed)).tryFinish n

/-- Answer every deferral record of a DEFER word with a value, and free the records. Word 13 of the header of a
reader of this module falls with its response (02 R82). -/
def State.answerReaders (s : State) (h : BitVec 4) (p : BitVec 6) (head : Word) (v : TWord) : State :=
  let recs := s.chainList p head
  let bks := s.chainBuckets p (s.cellarPool p) head.toNat
  let s := s.each recs fun s (_, _, t) =>
    let s := if ctxModule t.ctx = s.hier.modn then
        s.modFrame (frameOf t.ctx) fun x => { x with deferCnt := x.deferCnt - 1 }
      else s
    s.send (.home h) (withCheck { t with val := v }) none false false
  s.each bks fun s k => s.freeBucket p k

/-- Perform one store of a block on memory: the readers that it finds waiting are answered with the word
it leaves (03 R710). -/
def State.performStore (s : State) (p : BitVec 6) (e : StEnt) : State :=
  match e.kind with
  | .zero =>
    s.each (List.range 16) fun s j =>
      let w := sectorOf e.addr * 16 + j
      s.poke w (storedWord .zero 0 TWord.zero (s.peek w))
  | k =>
    let old := s.peek e.addr
    let v := storedWord k e.mask e.val old
    let s := if old.tag = Tag.defer then s.answerReaders e.home p old.data v else s
    s.poke e.addr v

/-- A held memory commit takes effect: its stores in their program order (07 R318). -/
def State.performStores (s : State) (p : BitVec 6) (es : List StEnt) : State :=
  s.each es fun s e => s.performStore p e

/-- A release takes effect (07 R316): it no longer counts against its item; a FINAL one, or a memory
commit, ends it. -/
def State.passRelease (s : State) (n : Nat) (r : Release) : State :=
  let tn := ((s.item n).map WItem.tn).getD 0
  let itemPart := ((s.item n).map WItem.part).getD 0
  let s := s.modItem n fun x => { x with releases := x.releases - 1 }
  let (s, fin) : State × Bool :=
    match r with
    | .memory es => (s.performStores itemPart es, true)
    | .program p b f => (s.openOrder p b tn (((s.item n).bind WItem.flow).getD 0), f)
    | .ledger d sid p ws => (s.lcommitPass d sid p ws tn, lcFinal (ws.headD 0))
  (if fin then s.markEnded n else s).tryFinish n

/-- Pause, or resume, a full flow (07 R314, 11 R488): FLOWPAUSE on every link channel whose stream feeds
it; where the peer did not agree to FLOWPAUSE, its CREDIT is withheld meanwhile (11 R483). -/
def State.pauseFlow (s : State) (f : BitVec 12) (on : Bool) : State :=
  s.each s.ports fun s (k, y) =>
    s.each y.lchs fun s (l, c) =>
      let n := BitVec.ofNat 4 k
      let lc := BitVec.ofNat 16 l
      let feeds := match s.streamAt n lc with
        | some (_, _, u) => streamFlow u.prog.words == some f
        | none => false
      let send (s : State) : State :=
        if y.caps.getLsbD 2 then
          s.sendFrame n tyPause { frame11 lc 0 (if on then 1 else 0) [] with flow := f }
        else s
      if on then
        if feeds then send (s.modLch n lc fun c => { c with pausing := f :: c.pausing.filter (· != f) }) else s
      else if c.pausing.contains f then
        let s := s.modLch n lc fun c =>
          { c with pausing := c.pausing.filter (· != f)
                   resumed := (f, s.now + 1000000) :: c.resumed.filter fun r => r.1 != f }
        (send s).grantCredit n lc
      else s

/-- Resume a flow that is full no longer (07 R314, 11 R488). -/
def State.resumeFlow (s : State) (f : BitVec 12) : State :=
  let fl := s.flow f
  if fl.full && fl.occupancy < 1024 then (s.setFlow f { fl with full := false }).pauseFlow f false else s

/-- The item of a flow with a sequence number. -/
def State.flowItem (s : State) (f : BitVec 12) (q : Word) : Option WItem :=
  s.items.find? fun i => i.flow == some f && i.seq == q

/-- Let the held releases of one item pass in the order they were submitted (07 R316). -/
def State.passHeld (s : State) (f : BitVec 12) (n : Nat) : State :=
  let mine := (s.flow f).held.filter fun h => h.1 == n
  let s := s.modFlow f fun x => { x with held := x.held.filter fun h => h.1 != n }
  s.each mine fun s h => s.passRelease n h.2

/-- Advance NEXT_REL while the head item has ended (07 R316): the held releases of each item passed over
and of the new head pass. `fuel` is the window of 1,024 items. -/
def State.advanceFlow (s : State) (f : BitVec 12) : Nat → State
  | 0 => s
  | k + 1 =>
    match s.flowItem f (s.flow f).nextRel with
    | none => s.resumeFlow f
    | some i =>
      let s := s.passHeld f i.id
      match s.item i.id with
      | none => s
      | some i =>
        if i.ended || i.abandoned then
          let s := s.modFlow f fun x => { x with nextRel := x.nextRel + 1, headSince := s.now }
          let s := { s with items := s.items.filter fun x => x.id != i.id || !x.finished }
          State.advanceFlow s f k
        else s.resumeFlow f

/-- An item ends, and the flow advances when it is the head (07 R315, R316). -/
def State.endItem (s : State) (n : Nat) : State :=
  match s.item n with
  | none => s
  | some i =>
    let s := s.markEnded n
    match i.flow with
    | none => { s with items := s.items.filter fun x => x.id != n || !x.finished }
    | some f => s.advanceFlow f 1025

/-- The item is at the head, or belongs to no flow (07 R316). -/
def State.isHead (s : State) (i : WItem) : Bool :=
  match i.flow with
  | none => true
  | some f => (s.flow f).nextRel == i.seq

/-- Entries of the release store that a release takes (07 R318). -/
def Release.entries : Release → Nat
  | .memory es => (es.length + 3) / 4
  | _ => 1

/-- Entries of the release store in use (07 R318). -/
def State.storeUsed (s : State) : Nat :=
  (s.flows.map fun f => (f.2.held.map fun h => h.2.entries).sum).sum

/-- What becomes of a release (07 R316, R318). -/
inductive Submitted where
  | passed
  | held
  | waits
  deriving DecidableEq, Repr

/-- Submit a release of an item (07 R316): a head item's passes at once, another's is held while the
release store has room, and else waits. -/
def State.submitRelease (s : State) (i : WItem) (r : Release) : Submitted × State :=
  let s1 := s.modItem i.id fun x => { x with releases := x.releases + 1 }
  if s.isHead i then
    let s2 := s1.passRelease i.id r
    (.passed, match i.flow with
      | none => { s2 with items := s2.items.filter fun x => x.id != i.id || !x.finished }
      | some f => s2.advanceFlow f 1025)
  else if s.storeUsed + r.entries ≤ 65536 then
    (.held, s1.modFlow (i.flow.getD 0) fun f => { f with held := f.held ++ [(i.id, r)] })
  else (.waits, s)

/-- Abandon an item (07 R319): its held releases are discarded, its descriptor STATE becomes 2 and
returns to its ring, its inbound entry closes with ABANDONED, and a Control token tells the
partition's event context. Benus logs it. A channel program whose release is discarded ends (assumption 32). -/
def State.abandonItem (s : State) (n : Nat) : State :=
  match s.item n with
  | none => s
  | some i =>
    if i.abandoned || i.finished then s
    else
      let s := s.modItem n fun x => { x with abandoned := true, releases := 0 }
      let gone := match i.flow with
        | some f => ((s.flow f).held.filter fun h => h.1 == n).map Prod.snd
        | none => []
      let s := match i.flow with
        | some f => s.modFlow f fun x => { x with held := x.held.filter fun h => h.1 != n }
        | none => s
      let s := s.each gone fun s r =>
        match r with
        | .program p b _ => s.endProgram p b ocNotPerformed (orderBytes (s.sub p b).prog.words)
        | _ => s
      let s := ((s.itemState i 2).closeInbound i ocAbandoned).tryFinish n
      let fl := i.flow.getD 0
      let w : Word := (fl ++ i.seq.setWidth 20 : BitVec 32)
      let slice := flowSlice fl
      let s := s.eventToken (.threshold slice) i.part (s.eventStmt i.part) (TWord.int w)
      let s := (s.bump (clcBase slice.toNat + 0xE04)).log 3 (i.part.setWidth 8)
        (natLe 2 fl.toNat ++ natLe 4 i.seq.toNat ++ natLe 2 i.sid.toNat)
      match i.flow with
      | some f => s.advanceFlow f 1025
      | none => { s with items := s.items.filter fun x => x.id != n || !x.finished }

/-! ### Failed contexts (13 R547) -/

/-- A parked strand leaves its work queue (03 R144). -/
def State.leaveQueue (s : State) (c : CellId) (k : SlotId) : State :=
  let s := match (s.slot c k).wait with
    | .work p q _ _ => s.modWorkq p q fun y => { y with parked := y.parked.filter (· != (c, k)) }
    | _ => s
  s.modCell c fun x => { x with parked := x.parked.filter (· != k) }

/-- End a slot's firing without commit: no unsealed item leaves; its unsealed stores go. -/
def State.endFiring (s : State) (c : CellId) (k : SlotId) : State :=
  let s := (s.leaveQueue c k).modCell c fun x =>
    { x with stbuf := x.stbuf.filter fun e => e.slot != k || e.isSealed }
  s.setSlot c k { slot0 with regs := [] }

/-- A context becomes FAILED (13 R547): its running firings end without commit, its open items are
abandoned, and its continuation receives POISON with the record number. -/
def State.failContext (s : State) (f : BitVec 20) (recno : Word) : State :=
  let x := s.frame f
  if x.state = stFree ∨ x.state = stComplete ∨ x.state = stFailed then s
  else
    let s := (s.setFrame f { x with state := stFailed, due := false }).cancelMigration f
    let s := s.each allCells fun s c => s.each allSlots fun s k =>
      let t := s.slot c k
      if t.state != .idle && frameOf t.act.ctx == f then s.endFiring c k else s
    let mine := (s.items.filter fun i => i.taker == some x.ctx && !i.ended).map WItem.id
    let s := s.each mine State.abandonItem
    s.report f ⟨Tag.poison, recno⟩

/-- Every context with a frame on a cell and a COUNT that is not 0 fails, after the loss of a key half
(02 R60): one record of KIND 4 whatever its source's threshold, and one event of the source. -/
def State.keyLost (s : State) (c : CellId) : State :=
  let (n, s) := s.makeRecord { kind := 4, source := s.cellSource c, cell := s.recCell c }
  let s := s.assertSrc (s.cellSource c)
  let lost := s.frames.filter fun e =>
    s.cellOf (BitVec.ofNat 20 e.1) == c && (s.ctxEnt (BitVec.ofNat 20 e.1)).valid && e.2.count != 0
  s.each lost fun s e => s.failContext (BitVec.ofNat 20 e.1) n

end Sys2Proof.Machine
end

