-- ==== Sys2Proof/Machine/FrontEnd.lean ====
section
/-! DEFINITION. The front end of a cell (02, 05 R206 to R208): token accept, matching, spilling, holding,
refilling, acknowledgements and returns, stall reports and window adaptation. -/

namespace Sys2Proof.Machine

/-! ### Performance counters (15 R648, R650) -/

/-- The partition that a cell serves. -/
def State.partOfCell (s : State) (c : CellId) : BitVec 6 :=
  match s.parts.find? fun e => e.2.isLive && e.2.cells.contains c with
  | some e => BitVec.ofNat 6 e.1
  | none => 0

/-- The PMC window of a cell. -/
def pmcCell (c : CellId) : Nat := pmcBase (clusterOf c).toNat + 0x100 * cellIndex c

/-- Counter `n` of a cell wraps (15 R650): its bit in PMC_OVF, a token when OVF_TOK is 1, and FROZEN when
FREEZE is 1. -/
def State.pmcWrapped (s : State) (c : CellId) (n : Nat) : State :=
  let b := pmcCell c
  let sel := s.reg (b + 4 * n)
  let s := s.setReg64 (b + 0x40 + 8 * n) 0
  let s := s.setReg (b + 0xC4) (s.reg (b + 0xC4) ||| BitVec.ofNat 32 (2 ^ n))
  let s := if bit sel 14 then
      let p := s.partOfCell c
      let v := (clusterOf c).toNat * 4096 + cellIndex c * 256 + n
      s.eventToken (.cell c) p (s.eventStmt p) ⟨Tag.user0, BitVec.ofNat 32 v⟩
    else s
  if bit sel 15 then s.setReg (b + 0xC0) (s.reg (b + 0xC0) ||| 2) else s

/-- Counter `n` may count: EN, not FROZEN, and the mode its selection permits; an event of no strand counts
in either mode (assumption 13). -/
def State.pmcCounts (s : State) (c : CellId) (n : Nat) (sup : Option Bool) : Bool :=
  let sel := s.reg (pmcCell c + 4 * n)
  let ctrl := s.reg (pmcCell c + 0xC0)
  bit ctrl 0 && !bit ctrl 1
    && (match sup with
        | some m => bit sel (if m then 13 else 12)
        | none => bit sel 12 || bit sel 13)

/-- Count one event in every counter of a cell that selects it (15 R648). -/
def State.pmc (s : State) (c : CellId) (sup : Option Bool) (ev : Nat) : State :=
  if s.reg (pmcCell c + 0xC0) = 0 then s
  else
    s.each (List.range 16) fun s n =>
      let a := pmcCell c + 0x40 + 8 * n
      if s.regField (pmcCell c + 4 * n) 7 0 != ev || !s.pmcCounts c n sup then s
      else if s.reg64 a = 2 ^ 48 - 1 then s.pmcWrapped c n else s.setReg64 a (s.reg64 a + 1)

/-! ### Shared operations -/

/-- The attachment cluster of engine `e` of a class (01 R24): compression and cryptography in each cluster, public-key
in 5, 6, 9 and 10, random in 6 and 9, key store in 10. -/
def engineCluster (cls : BitVec 3) (e : BitVec 4) : BitVec 4 :=
  if cls.toNat ≤ 1 then e
  else if cls = 2 then BitVec.ofNat 4 ([5, 6, 9, 10].getD e.toNat 10)
  else if cls = 3 then BitVec.ofNat 4 ([6, 9].getD e.toNat 9)
  else 10

/-- The clusters from whose router a sender's tokens enter the mesh (01 R24, 07 R296). -/
def sourceOk (w : Who) (g : BitVec 4) : Bool :=
  match w with
  | .cell c => g == clusterOf c
  | .remote .. => g.toNat < 4 || 12 ≤ g.toNat
  | .channel n => if n.toNat < 4 then g.toNat == 4 * n.toNat else g.toNat == 4 * (n.toNat - 4) + 3
  | .engine k e => g == engineCluster k e
  | .home h => g == h
  | .threshold t => g == t
  | .collector => g == 15
  | .benus => true

/-- A token as the Cellar holds it: SPILLED is set (02 R38). -/
def spilled (t : Token) : Token := withCheck { t with flags := t.flags ||| flSpilled }

/-- A token forwarded from a frame's previous cell (02 R38). -/
def forwarded (t : Token) : Token := withCheck { t with flags := t.flags ||| flFwd }

/-- A token whose payload was lost (02 R60). -/
def payloadLost (t : Token) : Token := withCheck { t with val := ⟨Tag.poison, 0⟩ }

/-- The forwarding entry of a frame at a cell, past the transfer point (07 R301). -/
def CellSt.movedEntry (x : CellSt) (f : BitVec 20) : Option FwdEnt :=
  x.fwd.find? fun e => e.frame == f && e.moved

/-- What stands in a cell's input queue of 1,024 entries (02 R46): the tokens for MT and those that wait at TK for
their header (05 R207); and the data tokens among them (02 R47). -/
def CellSt.queued (x : CellSt) : List QTok := x.inq ++ x.hdrWait
def CellSt.dataQueued (x : CellSt) : Nat := (x.queued.filter fun q => q.tok.port != portControl).length

/-- Data tokens that arrive go to the overflow chain (02 R47). -/
def CellSt.overflows (x : CellSt) : Bool := decide (960 ≤ x.dataQueued) || !x.ovf.isEmpty

/-- Acknowledge a token, when a copy of it is still kept (02 R715). -/
def State.ackTok (s : State) (q : QTok) : State := if q.snd.id = 0 then s else s.sendAck q.snd

/-- Return a token to its sender (02 R67): a +1 already taken is withdrawn; a token that the context
sent to itself stays counted as sent. -/
def State.returnTok (s : State) (q : QTok) (counted : Bool) : State :=
  let f := frameOf q.tok.ctx
  let s :=
    if q.selfSent then s.modCopy q.snd fun r => { r with ctx := some q.tok.ctx }
    else if counted && !q.report && (q.tok.flags &&& flDefr) == 0 then s.withdraw f else s
  s.sendReturn q.snd

/-- Refuse a token (02 R41): a TYPE 2 record to the ring of the sending partition, a count in
CLC_REFUSE_n and the acknowledgement. -/
def State.refuseTok (s : State) (c : CellId) (q : QTok) (reason : Nat) : State :=
  let f := frameOf q.tok.ctx
  let ownPart : Option (BitVec 6) :=
    match q.snd.who with
    | .cell _ => (((s.copy q.snd).bind Retained.ctx).map fun x => (s.frame (frameOf x)).part).orElse
        fun _ => s.partOfSid q.tok.sid
    | _ => s.partOfSid q.tok.sid
  let s := s.bump (clcCell c 0x940)
  let s := match ownPart with
    | some p => s.reportRecord (.cell c) p
        { typ := 2, info := reason, ctx := q.tok.ctx, sid := q.tok.sid, cell := c.setWidth 16
          entries := [recEntry q.tok 0] }
    | none => s
  let s := if (q.tok.flags &&& flDefr) != 0 then s.lowerCount f else s
  s.ackTok q

/-- Why a token is refused (02 R41). Where several of the three cases hold, the first of the rule's list gives the
reason; the header of a freed frame is 0, so its SID is compared as 0 (DESIGN CHOICE, assumption 110). -/
def Frame.refuses (x : Frame) (t : Token) : Option Nat :=
  if x.sid ≠ t.sid then some 1
  else if x.state = stFree then some 2
  else if x.state = stComplete ∧ x.persist = false then some 3
  else none

/-- The iteration distance of a token from a frame's BASE (02 R68). -/
def Frame.distance (x : Frame) (i : BitVec 12) : Nat := (i - x.base).toNat

/-- What the window says of an arriving token (02 R68). -/
inductive WindowSays where
  | takes
  | hold
  | late
  deriving DecidableEq, Repr

def Frame.window (x : Frame) (t : Token) : WindowSays :=
  if x.win = 0 ∨ t.port = portControl then .takes
  else if x.distance t.iter < x.weff.toNat then .takes
  else if x.distance t.iter < 1024 then .hold
  else .late

/-- The traffic counters of 07 R296. -/
def Frame.traffic (x : Frame) (own k : BitVec 4) : Frame :=
  let x := { x with total := BitVec.ofNat 16 (satAdd 0xFFFF x.total.toNat 1)
                    remote := if k ≠ own then BitVec.ofNat 16 (satAdd 0xFFFF x.remote.toNat 1) else x.remote }
  if x.candCnt = 0 then { x with candCl := k, candCnt := 1 }
  else if x.candCl = k then { x with candCnt := BitVec.ofNat 8 (satAdd 255 x.candCnt.toNat 1) }
  else { x with candCnt := x.candCnt - 1 }

/-- The 16 bytes of a trace entry (15 R653). -/
def traceBytes (now : BitVec 64) (c : CellId) (k : BitVec 4) (t : Token) : List Byte :=
  natLe 4 now.toNat ++ natLe 4 t.ctx.toNat ++ natLe 2 t.stmt.toNat
    ++ natLe 2 (t.iter.toNat + t.port.toNat * 4096) ++ [c, k.setWidth 8, 0, 0]

/-- A TRACE token writes an entry into its cluster's ring (15 R653). -/
def State.traceTok (s : State) (c : CellId) (q : QTok) : State :=
  if (q.tok.flags &&& flTrace) = 0 then s
  else
    let g := clusterOf c
    if (s.cluster g).trace.length < 1024 then
      s.modCluster g fun cl => { cl with trace := cl.trace ++ [traceBytes s.now c q.src q.tok] }
    else s.bumpField (pmcBase g.toNat + 0x2020) 31 16

/-- Count an accepted token (02 R72): a self-sent token's acceptance and acknowledgement cancel, a
completion report changes nothing, and a split-phase response resolves its request. -/
def State.countTok (s : State) (q : QTok) : State :=
  if q.selfSent then s.modCopy q.snd fun r => { r with ctx := none }
  else if q.report || (q.tok.flags &&& flDefr) != 0 then s
  else s.addCount (frameOf q.tok.ctx) 1

/-- The answer to a read that another module's home deferred has come: word 13 falls now, for that home cannot lower it
(02 R82; DESIGN CHOICE, assumption 115). -/
def State.countAnswer (s : State) (q : QTok) : State :=
  match q.snd.who with
  | .remote .. =>
    if (q.tok.flags &&& flDefr) = 0 then s
    else s.modFrame (frameOf q.tok.ctx) fun x => { x with deferCnt := if x.deferCnt = 0 then 0 else x.deferCnt - 1 }
  | _ => s

/-- Put an admitted token in the input queue; Control and Single tokens are acknowledged (02 R715). -/
def State.enqueueTok (s : State) (c : CellId) (q : QTok) : State :=
  let s := s.modCell c fun x => { x with inq := x.inq ++ [q] }
  if q.tok.port = portSingle ∨ q.tok.port = portControl then s.ackTok q else s

/-- Append a token to its context's hold chain (02 R68): some state, or none when the Cellar is
exhausted. -/
def State.holdTok (s : State) (c : CellId) (q : QTok) : Option State :=
  let f := frameOf q.tok.ctx
  let p := (s.frame f).part
  (s.chainAdd p (.cell c) kindHold (f.setWidth 32) (s.frame f).holdHead (spilled q.tok) false).map
    fun (h, s) => s.modFrame f fun x => { x with holdHead := h }

/-- Accept an admitted, held or late token whose frame this cell serves: the part of TK after R41. -/
def State.tkAdmit (s : State) (c : CellId) (q : QTok) : State :=
  let f := frameOf q.tok.ctx
  let taken (s : State) : State :=
    ((((s.countTok q).countAnswer q).modFrame f fun x => x.traffic (clusterOf c) q.src).traceTok c q).pmc c none 0x05
  match (s.frame f).window q.tok with
  | .takes => (taken s).enqueueTok c q
  | .late => ((taken s).bump (clcCell c 0x9C0)).enqueueTok c q
  | .hold =>
    match s.holdTok c q with
    | some s => (taken s).ackTok q
    | none => s.returnTok q false

/-- TK of a cell for a token with a good CHECK whose frame header the cell holds (05 R206): forwarding,
refusal, discarding, window and count. -/
def State.tk (s : State) (c : CellId) (q : QTok) : State :=
  let f := frameOf q.tok.ctx
  match (s.cell c).movedEntry f with
  | some e =>
    ((s.bump (clcCell c 0xDC0)).pmc c none 0x43).post
      (.tokenAccept e.target (forwarded q.tok) q.snd q.src (.forwarded q.report))
  | none =>
    match (s.frame f).refuses q.tok with
    | some r => s.refuseTok c q r
    | none =>
      if (s.frame f).state = stFailed then
        (if (q.tok.flags &&& flDefr) != 0 then s.resolveFailed f else s).ackTok q
      else s.tkAdmit c q

/-- The token waits at TK for its frame header (05 R207), or passes. -/
def State.tkHeader (s : State) (c : CellId) (q : QTok) : State :=
  let f := frameOf q.tok.ctx
  if (s.cell c).hdr.contains f || ((s.cell c).movedEntry f).isSome then s.tk c q
  else s.modCell c fun x => { x with hdrWait := x.hdrWait ++ [q] }

/-- A token as TK takes it from its retained copy: whether its context sent it to itself, and whether it
is a completion report (02 R72). -/
def State.qtok (s : State) (t : Token) (snd : Sender) (src : BitVec 4) : QTok :=
  let r := s.copy snd
  { tok := t, snd := snd, src := src
    selfSent := (r.bind Retained.ctx) == some t.ctx
    report := (r.map Retained.report).getD false
    counted := false }

/-- The copy is marked as arrived: it is not sent again unless it is returned or rejected. -/
def State.markArrived (s : State) (snd : Sender) : State :=
  s.modCopy snd fun r => { r with state := .arrived }

/-- The cell's overflow chain takes a data token (02 R47); none when the Cellar is exhausted. -/
def State.overflowAdd (s : State) (c : CellId) (q : QTok) : Option State :=
  let p := s.partOfCell c
  (s.chainAdd p (.cell c) kindQueue (BitVec.ofNat 32 (s.cellRank p c)) (s.cell c).ovfHead (spilled q.tok) false).map
    fun (h, s) =>
      ((s.modCell c fun x => { x with ovfHead := h, ovf := x.ovf ++ [{ q with tok := spilled q.tok }] }).bump
        (clcCell c 0x8C0)).pmc c none 0x06

/-- The cell's overflow chain takes an arriving data token (02 R47), or it is returned. -/
def State.overflowTok (s : State) (c : CellId) (q : QTok) : State := (s.overflowAdd c q).getD (s.returnTok q false)

/-- A token that has passed TK elsewhere or earlier joins the queue (07 R303, 02 R69) under R46 and R47; none when the
queue, or for a data token the Cellar, has no room. -/
def State.admitCounted (s : State) (c : CellId) (q : QTok) : Option State :=
  let x := s.cell c
  if q.tok.port = portControl then
    if 1024 ≤ x.queued.length then none else some (s.enqueueTok c q)
  else if x.overflows then s.overflowAdd c { q with counted := true }
  else some (s.enqueueTok c q)

/-- A token that stands at TK for the first time (05 R206): a data token may go to the overflow chain; none while a
Control token finds the queue full. -/
def State.tkArrive (s : State) (c : CellId) (q : QTok) : Option State :=
  let x := s.cell c
  if q.tok.port = portControl then
    if 1024 ≤ x.queued.length then none else some (s.tkHeader c q)
  else some (if x.overflows then s.overflowTok c q else s.tkHeader c q)

/-- Whether the token belongs to the sender's copy: any token of another module's, and any with a wrong
CHECK, may arrive. -/
def State.copyMatches (s : State) (t : Token) (snd : Sender) : Bool :=
  match snd.who with
  | .remote .. => true
  | _ =>
    match s.copy snd with
    | some r => r.state == .flight && (r.tok == t || !goodCheck t)
    | none => false

/-- An earlier token of the same cell for the same destination cell is still on its way (03 R134). -/
def State.overtakes (s : State) (snd : Sender) (cell : CellId) : Bool :=
  match snd.who with
  | .cell _ => (s.retained.takeWhile (·.snd != snd)).any fun r =>
      r.snd.who == snd.who && r.state == .flight && ctxModule r.tok.ctx == s.hier.modn
        && s.cellOf (frameOf r.tok.ctx) == cell
  | _ => false

/-- The router of cluster `g` brings a token for frame `f` to `cell` (07 R300): by the entry it has cached, stale or
not. A token for a frame of the sending cell, or for one that leaves it, takes no router (02 R48, 07 R306). -/
def State.routesTo (s : State) (snd : Sender) (g : BitVec 4) (f : BitVec 20) (cell : CellId) : Bool :=
  let near : Option CellId :=
    match snd.who with
    | .cell c => if s.cellOf f == c || ((s.cell c).fwdEntry f).isSome then some c else none
    | _ => none
  match near with
  | some c => c == cell
  | none => (s.cluster g).mapCache.contains (f, cell)

/-- Something of a moved frame still is at its old cell: a token in its input queue, its side buffer or its overflow
chain, or a firing that has not committed, whose tokens to its own context would go there (07 R304, R306). -/
def State.leftAt (s : State) (c : CellId) (f : BitVec 20) : Bool :=
  let x := s.cell c
  let mine (q : QTok) : Bool := frameOf q.tok.ctx == f
  x.queued.any mine || x.side.any mine || x.ovf.any mine
    || (allSlots.any fun k => (s.slot c k).state != .idle && frameOf (s.slot c k).act.ctx == f)
    || s.retained.any fun r => r.snd.who == .cell c && r.state == .flight && frameOf r.tok.ctx == f
        && ctxModule r.tok.ctx == s.hier.modn

/-- END-FWD leaves when the scan is done, every router's MAP-MARK has come (07 R301 step 8), and nothing of the frame
is left at its old cell (DEDUCED, assumption 95). -/
def State.tryEndFwd (s : State) (c : CellId) (f : BitVec 20) : State :=
  match (s.cell c).movedEntry f with
  | none => s
  | some e =>
    if e.scanned && e.marks.length == 16 && !s.leftAt c f then
      (s.modCell c fun x => { x with fwd := x.fwd.filter fun e => e.frame != f }).post (.endFwd f)
    else s

/-- TOKEN_ACCEPT (05 R206, 02 R39, R41, R46, R47, R48, R68, R72, R86; 07 R296, R300, R301, R303; 13 R547). A token that
finds no room waits where it is. -/
def execTokenAccept (cell : CellId) (t : Token) (snd : Sender) (srcCluster : BitVec 4) (how : Arrival)
    (s : State) : Outcome :=
  let f := frameOf t.ctx
  let me : Instr := .tokenAccept cell t snd srcCluster how
  let fromOutside (isReport : Bool) : Outcome :=
    let remote : Bool := match snd.who with | .remote .. => true | _ => false
    if !(s.copyMatches t snd) || !(sourceOk snd.who srcCluster) || ctxModule t.ctx != s.hier.modn
        || !(s.routesTo snd srcCluster f cell) || (s.cell cell).stopped || s.overtakes snd cell
        || (isReport && !remote) then idle s
    else
      let s1 := s.markArrived snd
      if !goodCheck t then
        .next ((s1.assertSrc (clusterSource (clusterOf cell) 25)).sendReject snd)
      else
        let q := s1.qtok t snd srcCluster
        .next (((s1.tkArrive cell { q with report := q.report || isReport }).getD s).tryEndFwd cell f)
  match how with
  | .transferred =>
    onArrival me s fun s1 =>
      let q := s1.qtok t snd srcCluster
      if (s1.frame f).state = stFailed ∨ (s1.frame f).state = stFree then .next (s1.ackTok q)
      else .next ((s1.admitCounted cell { q with selfSent := false }).getD s)
  | .forwarded isReport =>
    onArrival me s fun s1 =>
      let q := s1.qtok t snd srcCluster
      .next ((s1.tkArrive cell { q with report := q.report || isReport }).getD s)
  | .direct => fromOutside false
  | .report => fromOutside true

/-- What the error code of a chain entry, or its CHECK and key, say of it (02 R60, R65). -/
def entryEcc (ecc : Ecc) (t : Token) (keyOk : Bool) : Ecc :=
  if ecc = .key || !keyOk then .key
  else if ecc = .payload || !goodCheck t then .payload
  else ecc

/-- A token that the queue takes back from the overflow chain passes TK, unless it had passed it before. -/
def State.tkAgain (s : State) (c : CellId) (q : QTok) : State :=
  if q.counted then s.enqueueTok c q else s.tkHeader c q

/-- QUEUE_REFILL (02 R47): the queue takes back the oldest token of the overflow chain; it passes TK. -/
def execQueueRefill (cell : CellId) (ecc : Ecc) (s : State) : Outcome :=
  let x := s.cell cell
  match x.ovf with
  | [] => idle s
  | q :: rest =>
    let p := s.partOfCell cell
    if 512 ≤ x.dataQueued ∨ x.stopped then idle s
    else
      match s.chainList p x.ovfHead with
      | [] => idle s
      | (k, e, t) :: _ =>
        let (h, s) := s.chainRemove p x.ovfHead k e
        let s := s.modCell cell fun y => { y with ovfHead := h, ovf := rest }
        let s := (s.bump (clcCell cell 0x900)).pmc cell none 0x07
        let s := if ecc = .ok then s else s.assertSrc (s.cellSource cell)
        match entryEcc ecc t (t.ctx == q.tok.ctx && t.stmt == q.tok.stmt && t.iter == q.tok.iter) with
        | .key => .next ((s.keyLost cell).ackTok q)
        | .payload => .next ((s.tkAgain cell { q with tok := payloadLost t }).tryEndFwd cell (frameOf q.tok.ctx))
        | .ok | .corrected => .next ((s.tkAgain cell { q with tok := t }).tryEndFwd cell (frameOf q.tok.ctx))

/-- FRAME_HEADER_FILL (05 R207, 07 R295): the header replaces a random entry when the cache is full
(FREE VALUE), its counters start at 0, and the tokens that waited for it pass TK. -/
def execFrameHeaderFill (cell : CellId) (frame : BitVec 20) (s : State) : Outcome :=
  let x := s.cell cell
  let mine := x.hdrWait.filter fun q => frameOf q.tok.ctx == frame
  if mine = [] then idle s
  else
    let (r, s) := s.draw
    let s := s.modCell cell fun x =>
      { x with hdr := if x.hdr.contains frame then x.hdr else insertRandom 512 x.hdr frame r.toNat
               hdrWait := x.hdrWait.filter fun q => frameOf q.tok.ctx != frame }
    let s := if x.hdr.contains frame then s
      else s.modFrame frame fun y => { y with total := 0, remote := 0, candCl := 0, candCnt := 0 }
    .next ((s.each mine fun s q => s.tk cell q).tryEndFwd cell frame)

/-! ### Matching (02 R52 to R60) -/

def ms0 : MsSet := { ways := [], spill := 0, locked := false }

/-- Two tokens with one key and opposite operand ports (02 R55). -/
def partners (a b : Token) : Bool :=
  a.ctx == b.ctx && a.stmt == b.stmt && a.iter == b.iter
    && ((a.port == portLeft && b.port == portRight) || (a.port == portRight && b.port == portLeft))

/-- The activity of a matched pair, and of a token that fires alone (02 R37, R72). -/
def pairActivity (a b : Token) : Activity :=
  let l := if a.port = portLeft then a else b
  let r := if a.port = portLeft then b else a
  { ctx := a.ctx, stmt := a.stmt, iter := a.iter, port := portLeft, g1 := l.val, g2 := r.val, used := 2 }
def loneActivity (a : Token) : Activity :=
  { ctx := a.ctx, stmt := a.stmt, iter := a.iter, port := a.port, g1 := a.val, g2 := TWord.zero, used := 1 }

def State.modSet (s : State) (c : CellId) (k : Nat) (f : MsSet → MsSet) : State :=
  s.modCell c fun x => { x with ms := Map.set ms0 x.ms k (f (Map.get ms0 x.ms k)) }

/-- DS: the activity enters the ready list (02 R50). -/
def State.dispatch (s : State) (c : CellId) (a : Activity) : State :=
  let s := if a.used = 2 then s.pmc c none 0x08 else s
  s.modCell c fun x => { x with ready := x.ready ++ [a] }

/-- The spill count after an entry left a chain (02 R57). -/
def spillLess (n : BitVec 6) (chainEmpty : Bool) : BitVec 6 :=
  if chainEmpty then 0 else if n = 63 then 63 else n - 1

/-- Lock a set while its chain is searched or written (02 R58). -/
def State.lockSet (s : State) (c : CellId) (k : Nat) : State :=
  (s.modSet c k fun m => { m with locked := true }).modCell c fun x => { x with locks := x.locks ++ [k] }

/-- Write the spill directory's word of a set (02 R63). -/
def State.setSpillDir (s : State) (p : BitVec 6) (c : CellId) (k : Nat) (v : Word) : State :=
  s.poke (s.ownWord (s.spillDir p c k)) ⟨Tag.sys, v⟩

/-- Search a set's chain for the partner spilled first (02 R57): the partner and the state without it.
An empty chain resets the count. -/
def State.searchChain (s : State) (p : BitVec 6) (c : CellId) (k : Nat) (t : Token) :
    Option Token × State :=
  let head := s.peekData (s.spillDir p c k)
  let chain := s.chainList p head
  if chain = [] then (none, s.modSet c k fun m => { m with spill := 0 })
  else
    match chain.find? fun e => partners t e.2.2 with
    | none => (none, s)
    | some (b, e, y) =>
      let (h, s) := s.chainRemove p head b e
      let s := ((s.setSpillDir p c k h).bump (clcCell c 0x900)).pmc c none 0x07
      (some y, s.modSet c k fun m => { m with spill := spillLess m.spill (h == 0) })

/-- Store a token in a way (02 R56): the longest resident of a full set is spilled first. None when the
Cellar is exhausted. -/
def State.storeWay (s : State) (p : BitVec 6) (c : CellId) (k : Nat) (t : Token) : Option State :=
  match (Map.get ms0 (s.cell c).ms k).ways with
  | old :: w1 :: w2 :: w3 :: _ =>
    (s.chainAdd p (.cell c) kindSpill (BitVec.ofNat 32 k) (s.peekData (s.spillDir p c k)) (spilled old)
      false).map fun (h, s) =>
      let s := ((s.setSpillDir p c k h).bump (clcCell c 0x8C0)).pmc c none 0x06
      let s := s.modSet c k fun m =>
        { m with ways := [w1, w2, w3, t], spill := if m.spill = 63 then 63 else m.spill + 1 }
      s.lockSet c k
  | ways => some (s.modSet c k fun m => { m with ways := ways ++ [t] })

/-- The error code of the entry that a look-up without a partner reads first, the longest resident of its set, gave
`ecc` (02 R60; DESIGN CHOICE, assumption 111): a lost payload becomes POISON, and an entry whose key is lost goes. -/
def State.entryRead (s : State) (c : CellId) (k : Nat) (ecc : Ecc) : State :=
  if (Map.get ms0 (s.cell c).ms k).ways = [] then s
  else
    match ecc with
    | .ok => s
    | .corrected => s.assertSrc (s.cellSource c)
    | .payload =>
      (s.modSet c k fun m => { m with ways := (m.ways.take 1).map payloadLost ++ m.ways.drop 1 }).assertSrc
        (s.cellSource c)
    | .key => (s.modSet c k fun m => { m with ways := m.ways.drop 1 }).keyLost c

/-- MT takes one token that stands at its head (02 R55 to R58): the state after it, or none when it must
wait for the ready list, for a locked set or for one of the four locks. `out` takes the token out of
where it stood. A set is locked by a spill and by a search of its chain. A token without a sender, released from
the hold chain or sent on by a frame's former cell, that would have to spill under exhaustion goes to the hold chain,
or to the end of the queue where that too needs a bucket (R67; DESIGN CHOICE, assumption 87). -/
def State.matchOne (s : State) (c : CellId) (q : QTok) (ecc : Ecc) (out : State → State) : Option State :=
  let f := frameOf q.tok.ctx
  let x := s.cell c
  let full := decide (128 ≤ x.ready.length)
  match x.movedEntry f with
  | some e =>
    some ((((out s).bump (clcCell c 0xDC0)).pmc c none 0x43).post
      (.tokenAccept e.target (forwarded q.tok) q.snd q.src .transferred))
  | none =>
    if (s.frame f).state = stFailed ∨ (s.frame f).state = stFree then
      some (if q.tok.port = portSingle ∨ q.tok.port = portControl then out s else (out s).ackTok q)
    else if q.tok.port = portSingle ∨ q.tok.port = portControl then
      if full then none else some ((out s).dispatch c (loneActivity q.tok))
    else
      let p := (s.frame f).part
      let k := (msSet (s.saltOf c) q.tok).toNat
      let m := Map.get ms0 x.ms k
      match m.ways.find? fun y => partners q.tok y with
      | some y =>
        if full then none
        else
          let s := (out s).modSet c k fun m => { m with ways := m.ways.erase y }
          let s := if ecc = .ok then s else s.assertSrc (s.cellSource c)
          match ecc with
          | .key => some ((s.keyLost c).ackTok q)
          | .payload => some ((s.dispatch c (pairActivity q.tok (payloadLost y))).ackTok q)
          | .ok | .corrected => some ((s.dispatch c (pairActivity q.tok y)).ackTok q)
      | none =>
        let busy := decide (4 ≤ x.locks.length)
        if (m.spill != 0 && (full || busy)) || (decide (4 ≤ m.ways.length) && busy) then none
        else
          let (hit, s1) : Option Token × State :=
            if m.spill = 0 then (none, s) else s.searchChain p c k q.tok
          match hit with
          | some y =>
            let e := entryEcc .ok y (msSet (s.saltOf c) y == BitVec.ofNat 13 k)
            let s2 := (out s1).lockSet c k
            if e = .key then some ((s2.keyLost c).ackTok q)
            else some ((s2.dispatch c (pairActivity q.tok (if e = .payload then payloadLost y else y))).ackTok q)
          | none =>
            let searched := m.spill != 0
            let s1 := s1.entryRead c k ecc
            let lock (s : State) : State := if searched then s.lockSet c k else s
            match s1.storeWay p c k q.tok with
            | some s2 =>
              let spilt := decide (4 ≤ (Map.get ms0 (s1.cell c).ms k).ways.length)
              some ((out (if spilt then s2 else lock s2)).ackTok q)
            | none =>
              if q.snd.id ≠ 0 then some (lock ((out s1).returnTok q true))
              else
                some (lock (((out s1).holdTok c q).getD
                  ((out s1).modCell c fun x => { x with inq := x.inq ++ [q] })))

/-- The set in which a token of the input queue would be looked up is locked, or an earlier token for it
waits in the side buffer (02 R58). -/
def State.setBusy (s : State) (c : CellId) (t : Token) : Bool :=
  let k := msSet (s.saltOf c) t
  let sameSet (q : QTok) : Bool := msSet (s.saltOf c) q.tok == k
  (t.port == portLeft || t.port == portRight)
    && ((Map.get ms0 (s.cell c).ms k.toNat).locked || (s.cell c).side.any sameSet)

/-- MATCH (02 R55 to R58, R60, R67; 07 R301): MT takes the token at the head of the input queue. A token
for a locked set moves to the side buffer; MT stops while that buffer is full. -/
def execMatchTok (cell : CellId) (ecc : Ecc) (s : State) : Outcome :=
  let x := s.cell cell
  match x.inq with
  | [] => idle s
  | q :: rest =>
    if 4 ≤ x.side.length ∨ x.stopped then idle s
    else
      let out (s : State) : State := s.modCell cell fun y => { y with inq := rest }
      if s.setBusy cell q.tok then
        .next ((out s).modCell cell fun y => { y with side := y.side ++ [q] })
      else .next (((s.matchOne cell q ecc out).getD s).tryEndFwd cell (frameOf q.tok.ctx))

/-- SIDE_BUFFER_RELEASE (02 R58): the oldest lock ends, and MT takes the first token of the side buffer
whose set is not locked. -/
def execSideBufferRelease (cell : CellId) (ecc : Ecc) (s : State) : Outcome :=
  let x := s.cell cell
  let s := match x.locks with
    | [] => s
    | k :: ls => (s.modSet cell k fun m => { m with locked := false }).modCell cell fun y => { y with locks := ls }
  let free (q : QTok) : Bool :=
    !(Map.get ms0 (s.cell cell).ms (msSet (s.saltOf cell) q.tok).toNat).locked
  match (s.cell cell).side.find? free with
  | none => .next s
  | some q =>
    let out (s : State) : State := s.modCell cell fun y => { y with side := y.side.erase q }
    .next (((s.matchOne cell q ecc out).getD s).tryEndFwd cell (frameOf q.tok.ctx))

/-- The set that REFILL serves (02 R59): the first at or after the refill pointer, and else from set 0, with
fewer than two residents and a chain. -/
def State.refillSet (s : State) (c : CellId) : Option Nat :=
  let x := s.cell c
  let p := s.partOfCell c
  let fits (e : Nat × MsSet) : Bool :=
    decide (e.2.ways.length < 2) && e.2.spill != 0 && s.peekData (s.spillDir p c e.1) != 0
  let after := x.ms.filter fun e => decide (x.refillPtr.toNat ≤ e.1)
  ((after ++ x.ms).find? fits).map Prod.fst

/-- REFILL (02 R59, R57, R65): with no token at MT, the oldest entry of the first qualifying set at or
after the refill pointer returns to a free way. -/
def execRefill (cell : CellId) (ecc : Ecc) (s : State) : Outcome :=
  let x := s.cell cell
  let p := s.partOfCell cell
  match s.refillSet cell with
  | none => idle s
  | some k =>
    let head := s.peekData (s.spillDir p cell k)
    match s.chainList p head with
    | [] => idle s
    | (b, e, t) :: _ =>
      if x.inq != [] then idle s
      else
        let (h, s) := s.chainRemove p head b e
        let s := ((s.setSpillDir p cell k h).bump (clcCell cell 0x900)).pmc cell none 0x07
        let s := s.modSet cell k fun m => { m with spill := spillLess m.spill (h == 0) }
        let s := s.modCell cell fun y => { y with refillPtr := BitVec.ofNat 13 (k + 1) }
        let s := if ecc = .ok then s else s.assertSrc (s.cellSource cell)
        let put (s : State) (t : Token) : State := s.modSet cell k fun m => { m with ways := m.ways ++ [t] }
        match entryEcc ecc t ((msSet (s.saltOf cell) t).toNat == k) with
        | .key => .next (s.keyLost cell)
        | .payload => .next (put s (payloadLost t))
        | .ok | .corrected => .next (put s t)

/-! ### Returns, resends and acknowledgements (02 R67, R86, R715) -/

/-- An answer to a token comes from its destination: over the wire, or for a token that has left for another module
from there (02 R67, R86). -/
def onReply (c : Instr) (snd : Sender) (s : State) (f : State → Outcome) : Outcome :=
  match s.arrive c with
  | some s' => f s'
  | none =>
    match s.copy snd with
    | some r => if ctxModule r.tok.ctx ≠ s.hier.modn ∧ r.state = .flight then f s else idle s
    | none => idle s

/-- RETURNED_TOKEN_RECEIVE (02 R67): the copy moves to the head of its sender's buffer. -/
def execReturnedTokenReceive (snd : Sender) (s : State) : Outcome :=
  onReply (.returnedTokenReceive snd) snd s fun s =>
    match s.copy snd with
    | none => idle s
    | some r => .next { s with retained := { r with state := .returned } :: s.retained.filter (·.snd != snd) }

/-- A token for another module leaves by the fabric; any other is in flight. -/
def State.resend (s : State) (snd : Sender) (t : Token) : State :=
  let s := s.modCopy snd fun r => { r with tok := t, state := .flight }
  if ctxModule t.ctx = s.hier.modn then s else s.emit (.token snd t)

/-- TOKEN_RESEND (02 R67): after the back-off the sender resends a returned token. -/
def execTokenResend (snd : Sender) (s : State) : Outcome :=
  match s.copy snd with
  | some r => if r.state = .returned then .next (s.resend snd r.tok) else idle s
  | none => idle s

/-- The partition to whose ring a sender's TYPE 3 record goes (02 R86). -/
def State.senderPart (s : State) (w : Who) (t : Token) : Option (BitVec 6) :=
  match w with
  | .cell c => some (s.partOfCell c)
  | _ => s.partOfSid t.sid

/-- The cluster whose token transport carries a sender's tokens: that of its attachment (01 R24); Benus sends by the
collector's cluster (DESIGN CHOICE, assumption 112). -/
def whoCluster (w : Who) : BitVec 4 :=
  match w with
  | .cell c => clusterOf c
  | .channel n => BitVec.ofNat 4 (if n.toNat < 4 then 4 * n.toNat else 4 * (n.toNat - 4) + 3)
  | .engine k e => engineCluster k e
  | .home h => h
  | .threshold t => t
  | .remote .. | .collector | .benus => 15

/-- Resend a token with POISON substituted (FREE VALUE: its data), POISONED set and a TYPE 3 record (02 R86). -/
def State.substitute (s : State) (snd : Sender) (t : Token) : State :=
  let (v, s) := s.draw
  let s := s.resend snd (withCheck { t with val := ⟨Tag.poison, v.setWidth 32⟩, flags := t.flags ||| flPoisoned })
  match s.senderPart snd.who t with
  | none => s
  | some p => s.reportRecord snd.who p
      { typ := 3, ctx := t.ctx, sid := t.sid, cell := whoCell snd.who, entries := [recEntry t 0] }

/-- RETRANSMISSION_REQUEST (02 R86): the sender resends its copy; after three failed resends with POISON
substituted; after that the transport source is severe. -/
def execRetransmissionRequest (snd : Sender) (s : State) : Outcome :=
  onReply (.retransmissionRequest snd) snd s fun s =>
    match s.copy snd with
    | none => idle s
    | some r =>
      let s := s.modCopy snd fun r => { r with fails := r.fails + 1 }
      if r.fails < 3 then .next (s.resend snd r.tok)
      else if r.fails = 3 then .next (s.substitute snd r.tok)
      else
        .next ((s.assertSevere (clusterSource (whoCluster snd.who) 25)).resend snd r.tok)

/-- ACK_RECEIVE (02 R715, R49, R72, R74; 11 R475): the copy is freed and the sending context's COUNT
falls; a closed ledger entry whose completion token this was is freed. -/
def execAckReceive (snd : Sender) (s : State) : Outcome :=
  onReply (.ackReceive snd) snd s fun s =>
    match s.copy snd with
    | none => idle s
    | some r =>
      let s := s.dropCopy snd
      let s := { s with ledger := s.ledger.filter fun e => e.2.doneTok != some snd.id }
      match r.ctx, snd.who with
      | some x, .cell c => .next ((s.forwardUpdate c (frameOf x)).lowerCount (frameOf x))
      | some x, _ => .next (s.lowerCount (frameOf x))
      | none, _ => .next s

/-! ### The hold chain (02 R69) -/

/-- Whether a held token leaves the chain: within the window, unbounded, or late. -/
def Frame.letsGo (x : Frame) (t : Token) : Bool :=
  x.win == 0 || decide (x.distance t.iter < x.weff.toNat) || decide (1024 ≤ x.distance t.iter)

/-- A released token would have to spill while the Cellar is exhausted (02 R67): its set is full, it finds no partner,
and neither the head bucket of the set's chain nor the free list has room. -/
def State.wouldStick (s : State) (c : CellId) (p : BitVec 6) (t : Token) : Bool :=
  let k := (msSet (s.saltOf c) t).toNat
  let m := Map.get ms0 (s.cell c).ms k
  (t.port == portLeft || t.port == portRight) && !m.ways.any (partners t)
    && !(m.spill != 0 && (s.chainList p (s.peekData (s.spillDir p c k))).any fun e => partners t e.2.2)
    && (s.storeWay p c k t).isNone

/-- Release held tokens of a frame in the order they were held (02 R69, R92); one that finds no room in the queue stays
in the chain. `fuel` is the chain's length. -/
def State.releaseSome (s : State) (f : BitVec 20) : Nat → State
  | 0 => s
  | n + 1 =>
    let s0 := s
    let x := s.frame f
    let c := s.cellOf f
    match (s.chainList x.part x.holdHead).find? fun e => x.letsGo e.2.2 && !s.wouldStick c x.part e.2.2 with
    | none => s
    | some (b, e, t) =>
      let (h, s) := s.chainRemove x.part x.holdHead b e
      let s := s.modFrame f fun x => { x with holdHead := h }
      let late : Bool := x.win != 0 && decide (1024 ≤ x.distance t.iter)
      let s := if late then s.bump (clcCell c 0x9C0) else s
      let q : QTok := { tok := t, snd := ⟨.cell c, 0⟩, src := clusterOf c, selfSent := false, report := false
                        counted := true }
      match s.admitCounted c q with
      | none => s0
      | some s => State.releaseSome (s.bump (clcCell c 0x900)) f n

/-- Re-evaluate every held token of a context (02 R69). -/
def State.releaseHeld (s : State) (f : BitVec 20) : State :=
  let x := s.frame f
  if x.holdHead = 0 then s else s.releaseSome f (s.chainList x.part x.holdHead).length

/-- HELD_RELEASE_RETRY (02 R67): the release of held tokens is tried again. -/
def execHeldReleaseRetry (cell : CellId) (frame : BitVec 20) (s : State) : Outcome :=
  if s.cellOf frame = cell ∧ (s.frame frame).state ≠ stFree then .next (s.releaseHeld frame) else idle s

/-! ### Stalls (02 R76, R77, R79) -/

/-- A strand of the context is halted on the cell. -/
def State.haltedOn (s : State) (c : CellId) (f : BitVec 20) : Bool :=
  allSlots.any fun k => let t := s.slot c k; t.halted.isSome && t.state != .idle && frameOf t.act.ctx == f

/-- STALL_DETECT (02 R76): an active context with a COUNT and no commit for the quiet time, which a draining cell
and a halted strand stop (06 R272 step 3, 15 R659). -/
def execStallDetect (cell : CellId) (frame : BitVec 20) (s : State) : Outcome :=
  let x := s.frame frame
  match s.quietNs x.part with
  | none => idle s
  | some q =>
    if s.cellOf frame = cell ∧ !(s.cell cell).draining ∧ !s.haltedOn cell frame ∧ x.state = stActive ∧ x.count ≠ 0
        ∧ q ≤ (s.now - x.lastCommit).toNat then
      let s := s.setFrame frame { x with state := stStalled }
      .next (s.modCell cell fun y => { y with scans := y.scans ++ [(frame, s.now)] })
    else idle s

/-- Tokens of a frame that wait in the input queue, the side buffer or the store of a cell. -/
def CellSt.waiting (x : CellSt) (f : BitVec 20) : List Token :=
  ((x.ms.map fun e => e.2.ways).flatten ++ (x.side.map QTok.tok) ++ (x.inq.map QTok.tok)).filter
    fun t => frameOf t.ctx == f

/-- Tokens of a frame in the spill chains and the overflow chain of its cell. -/
def State.inCellar (s : State) (c : CellId) (f : BitVec 20) : List Token :=
  let p := s.partOfCell c
  let x := s.cell c
  let spilledToks := (x.ms.filter fun e => e.2.spill != 0).map fun e =>
    (s.chainList p (s.peekData (s.spillDir p c e.1))).map fun y => y.2.2
  (spilledToks.flatten ++ x.ovf.map QTok.tok).filter fun t => frameOf t.ctx == f

/-- The deferral record of a frame's most recent deferred read, which header word 12 names (02 R79, R82); none when that
read has been answered, though an older one may still wait (DESIGN CHOICE, assumption 113). -/
def State.deferred (s : State) (f : BitVec 20) : Option Token :=
  let x := s.frame f
  if x.deferCnt = 0 then none
  else
    match s.spaceWord x.sid x.deferAddr false with
    | .error _ => none
    | .ok w =>
      let v := s.peek w
      if v.tag = Tag.defer then
        ((s.chainList x.part v.data).map fun e => e.2.2).find? fun t => t.ctx == x.ctx
      else none

/-- Requests of a context outstanding in any cell (its frame may have migrated), and its deferred reads (02 R79): a
read counts once, by word 13 of the header from the moment its record is made. -/
def State.requestsOf (s : State) (x : Frame) : Nat :=
  (s.cells.map fun e => (e.2.reqs.filter fun r => r.resp.ctx == x.ctx && !r.deferred).length).sum + x.deferCnt.toNat

/-- STALL_SCAN_DONE (02 R77 to R79, R92): the TYPE 1 record. -/
def execStallScanDone (cell : CellId) (frame : BitVec 20) (s : State) : Outcome :=
  let x := s.frame frame
  match (s.cell cell).scans.find? fun e => e.1 == frame with
  | none => idle s
  | some (_, t) =>
    let store := (s.cell cell).waiting frame
    let cellar := s.inCellar cell frame
    let held := (s.chainList x.part x.holdHead).map fun e => e.2.2
    let entries := store.map (recEntry · 0) ++ cellar.map (recEntry · 1) ++ held.map (recEntry · 2)
    let dread := match s.deferred frame with
      | some d => [recEntry { d with val := ⟨d.val.tag, x.deferAddr⟩ } 3]
      | none => []
    let reqs := s.requestsOf x
    let s := (s.modCell cell fun y => { y with scans := y.scans.erase (frame, t) }).bump (clcCell cell 0x980)
    .next (s.reportRecord (.cell cell) x.part
      { typ := 1, info := if 12 < entries.length + dread.length then 1 else 0, ctx := x.ctx, sid := x.sid
        cell := cell.setWidth 16, count := x.count, inStore := store.length, inCellar := cellar.length
        held := held.length, requests := reqs
        entries := entries.take (12 - dread.length) ++ dread, time := some t })

/-- Write the records that wait in one writer for one ring, oldest first, while they find room; `fuel` is
their number. -/
def State.drainRecs (s : State) (w : Who) (p : BitVec 6) : Nat → State
  | 0 => s
  | n + 1 =>
    match s.waitRecs.find? fun e => e.1 == w && e.2.part == p with
    | none => s
    | some e =>
      match s.ringWrite w p e.2.words with
      | none => s
      | some s => State.drainRecs { s with waitRecs := s.waitRecs.erase e } w p n

/-- Write the ledger notices of a partition that wait for room (11 R474). -/
def State.drainNotices (s : State) (p : BitVec 6) : Nat → State
  | 0 => s
  | n + 1 =>
    match (s.part p).noticeWait with
    | [] => s
    | r :: rest =>
      match s.noticeWrite p r with
      | none => s
      | some s => State.drainNotices (s.modPart p fun x => { x with noticeWait := rest }) p n

/-- RING_RECHECK (02 R78): a writer reads the read index again and writes what waits. -/
def execRingRecheck (writer : Who) (part : BitVec 6) (s : State) : Outcome :=
  let s := s.drainRecs writer part s.waitRecs.length
  .next (if writer = .threshold 5 then s.drainNotices part (s.part part).noticeWait.length else s)

/-! ### Window adaptation (02 R71) -/

/-- Occupancy of a cell's matching store. -/
def CellSt.occupancy (x : CellSt) : Nat := (x.ms.map fun e => e.2.ways.length).sum

/-- Narrowing and widening of one context's window. -/
def Frame.narrow (x : Frame) (shift : Nat) : Frame :=
  let floor := max 1 (x.win.toNat / 2 ^ shift)
  { x with weff := BitVec.ofNat 10 (max floor (x.weff.toNat / 2)) }
def Frame.widen (x : Frame) : Frame := { x with weff := BitVec.ofNat 10 (min x.win.toNat (x.weff.toNat * 2)) }

/-- Frames that live on a cell. -/
def State.framesOn (s : State) (c : CellId) : List (BitVec 20) :=
  (s.frames.map fun e => BitVec.ofNat 20 e.1).filter fun f =>
    s.cellOf f == c && (s.ctxEnt f).valid && (s.frame f).state != stFree

/-- WINDOW_ADAPT_SAMPLE (02 R71, R69). -/
def execWindowAdaptSample (cell : CellId) (s : State) : Outcome :=
  let b := clcBase (clusterOf cell).toNat
  if !bit (s.reg (b + 0x800)) 16 then idle s
  else
    let occ := (s.cell cell).occupancy
    let high := s.regField (b + 0x804) 13 8 * 512
    let low := s.regField (b + 0x804) 5 0 * 512
    let shift := s.regField (b + 0x804) 27 24
    let mine := (s.framesOn cell).filter fun f => (s.frame f).win != 0
    if high ≤ occ then
      let s := s.each mine fun s f => s.modFrame f fun x => x.narrow shift
      .next (s.modCell cell fun x => { x with narrowed := true })
    else
      let s := s.modCell cell fun x => { x with narrowed := false }
      if occ < low then .next (s.each mine fun s f => (s.modFrame f Frame.widen).releaseHeld f) else .next s

/-- An ordinary load's value (02 R81). -/
def loadedWord (v : TWord) : TWord := if v.tag = Tag.empty ∨ v.tag = Tag.defer then TWord.empty else v

/-- A split-phase request is answered: it leaves the request table, and its response token leaves for the
issuing context (03 R155, 09 R382). -/
def State.answerRequest (s : State) (c : CellId) (n : Nat) (v : TWord) : State :=
  match (s.cell c).reqs.find? fun r => r.id == n with
  | none => s
  | some r =>
    (s.modCell c fun x => { x with reqs := x.reqs.filter fun y => y.id != n }).send (.cell c)
      (withCheck { r.resp with val := v }) none false false

/-- A request that finds no room is reissued later. -/
def State.deferRequest (s : State) (c : CellId) (n : Nat) : State :=
  let late (y : Request) : Request := if y.id = n then { y with reissue := true } else y
  s.modCell c fun x => { x with reqs := x.reqs.map late }

/-- A split-phase request goes out (03 R155, 09 R367, R382): an LDP of a page with C to the cluster cache, any
other to the word's home (10 R422). -/
def State.sendRequest (s : State) (c : CellId) (r : Request) : State :=
  let g := clusterOf c
  let sec := sectorOf r.addr
  let h := homeOf r.homing r.addr
  if r.fetch || !r.cacheable then
    let op : HomeOp := if r.fetch then .ifetch c r.id r.part r.va r.resp else .ldp c r.id
    s.toHome sec (.hop h (s.agentOf g) r.addr op)
  else
    match s.clusterRead g r.part r.addr with
    | (.hit v, s) => s.answerRequest c r.id (loadedWord v)
    | (.waits, s) => s.deferRequest c r.id
    | (.miss, s) =>
      (s.joinMiss g r.part h sec false (.request c r.id r.addr) r.addr (homeOf r.homing (r.addr + 16))).getD
        (s.deferRequest c r.id)

/-- IFETCH_REISSUE (02 R83): the cell reissues a request that its home answered with RETRY. -/
def execIfetchReissue (cell : CellId) (req : Nat) (s : State) : Outcome :=
  match (s.cell cell).reqs.find? fun r => r.id == req && r.reissue with
  | none => idle s
  | some r =>
    let fix (y : Request) : Request := if y.id = req then { y with reissue := false } else y
    .next ((s.modCell cell fun x => { x with reqs := x.reqs.map fix }).sendRequest cell { r with reissue := false })

end Sys2Proof.Machine
end

