-- ==== Sys2Proof/Machine/Flags.lean ====
section
/-! DEFINITION. The arithmetic results and the floating-point flags of chapter 04: integer multiply,
divide and their cycle counts (R171 to R176) and IEEE 754-2019 binary32 and binary64 (R185 to R205),
computed exactly on `Nat` and rounded once. -/

namespace Sys2Proof.Machine

/-! ### Integers -/

/-- Leading zero bits of a word (03 R124): 32 for 0. -/
def clz32 (w : Word) : Nat := if w = 0 then 32 else 31 - w.toNat.log2

/-- The positions of a word's set bits, lowest first. -/
def setBits (w : Word) : List Nat := (List.range 32).filter (fun i => w.getLsbD i)

/-- Trailing zero bits of a word (03 R124): 32 for 0. -/
def ctz32 (w : Word) : Nat := (setBits w).head?.getD 32

/-- Number of set bits (03 R124). -/
def popc32 (w : Word) : Nat := (setBits w).length

/-- High 32 bits of the signed product (04 R173). -/
def mulhS (a b : Word) : Word := ((a.signExtend 64 * b.signExtend 64) >>> 32).setWidth 32

/-- High 32 bits of the unsigned product (04 R173). -/
def mulhU (a b : Word) : Word := ((a.setWidth 64 * b.setWidth 64) >>> 32).setWidth 32

/-- The most negative word. -/
def wordMin : Word := 0x80000000

/-- DIV (04 R174). -/
def divS (a b : Word) : Word :=
  if b = 0 then 0xFFFFFFFF else if a = wordMin ∧ b = 0xFFFFFFFF then wordMin
  else BitVec.ofInt 32 (Int.tdiv a.toInt b.toInt)

/-- REM (04 R174). -/
def remS (a b : Word) : Word :=
  if b = 0 then a else if a = wordMin ∧ b = 0xFFFFFFFF then 0
  else BitVec.ofInt 32 (Int.tmod a.toInt b.toInt)

/-- DIVU (04 R174). -/
def divU (a b : Word) : Word := if b = 0 then 0xFFFFFFFF else BitVec.ofNat 32 (a.toNat / b.toNat)

/-- REMU (04 R174). -/
def remU (a b : Word) : Word := if b = 0 then a else BitVec.ofNat 32 (a.toNat % b.toNat)

/-- Cycles of MUL and MULH, from B alone (04 R171). -/
def mulCycles (b : Word) : Nat :=
  if -128 ≤ b.toInt ∧ b.toInt ≤ 127 then 1 else if -32768 ≤ b.toInt ∧ b.toInt ≤ 32767 then 2
  else if -8388608 ≤ b.toInt ∧ b.toInt ≤ 8388607 then 3 else 4

/-- Cycles of MULHU, from B alone (04 R171). -/
def mulhuCycles (b : Word) : Nat :=
  if b.toNat < 2 ^ 8 then 1 else if b.toNat < 2 ^ 16 then 2 else if b.toNat < 2 ^ 24 then 3 else 4

/-- The magnitude of a signed word, as an unsigned value (04 R175). -/
def magnitude (w : Word) : Word := if w.msb then -w else w

/-- Cycles of the divider (04 R175). -/
def divCycles (signed : Bool) (a b : Word) : Nat :=
  let ma := if signed then magnitude a else a
  let mb := if signed then magnitude b else b
  if mb = 0 ∨ (signed = true ∧ a = wordMin ∧ b = 0xFFFFFFFF) then 1
  else if ma.toNat < mb.toNat then 1
  else 1 + (clz32 mb - clz32 ma + 1 + 1) / 2

/-! ### Floating point -/

/-- A binary format: exponent and trailing significand widths. -/
structure FFmt where
  ebits : Nat
  mbits : Nat
  deriving DecidableEq, Repr

/-- binary32. -/
def binary32 : FFmt := ⟨8, 23⟩

/-- binary64. -/
def binary64 : FFmt := ⟨11, 52⟩

/-- Bit 4 of an enable mask or flag set is inexact, bit 0 invalid (04 R188). -/
abbrev FFlags := BitVec 5
abbrev FFlags.v : FFlags := 0b00001
abbrev FFlags.z : FFlags := 0b00010
abbrev FFlags.o : FFlags := 0b00100
abbrev FFlags.u : FFlags := 0b01000
abbrev FFlags.x : FFlags := 0b10000

/-- An unpacked datum: a NaN keeps its bits, a finite value is `m * 2^e`. -/
inductive FVal where
  | nan (bits : Nat)
  | inf (neg : Bool)
  | fin (neg : Bool) (m : Nat) (e : Int)
  deriving DecidableEq, Repr

/-- A result: the bits written and the flags raised. -/
structure FRes where
  bits : Nat
  flags : FFlags
  deriving DecidableEq, Repr

/-- The control an operation runs under: rounding direction as SSR_FPC[1:0] codes it (03 R106),
flush-to-zero (04 R189) and whether the underflow trap is enabled (04 R186). -/
structure FCtl where
  rm : BitVec 2
  ftz : Bool
  utrap : Bool
  deriving DecidableEq, Repr

def FFmt.bias (f : FFmt) : Nat := 2 ^ (f.ebits - 1) - 1
def FFmt.signBit (f : FFmt) : Nat := 2 ^ (f.ebits + f.mbits)
def FFmt.expMax (f : FFmt) : Nat := 2 ^ f.ebits - 1
def FFmt.quietBit (f : FFmt) : Nat := 2 ^ (f.mbits - 1)
def FFmt.infBits (f : FFmt) : Nat := f.expMax * 2 ^ f.mbits
def FFmt.maxBits (f : FFmt) : Nat := f.infBits - 1
/-- The default NaN (04 R187). -/
def FFmt.defaultNaN (f : FFmt) : Nat := f.infBits + f.quietBit
/-- The exponent of the unit of the smallest subnormal. -/
def FFmt.tinyExp (f : FFmt) : Int := 1 - (f.bias : Int) - (f.mbits : Int)

/-- Sign, biased exponent and trailing significand of a datum. -/
def FFmt.neg (f : FFmt) (b : Nat) : Bool := b / f.signBit % 2 = 1
def FFmt.exp (f : FFmt) (b : Nat) : Nat := b / 2 ^ f.mbits % 2 ^ f.ebits
def FFmt.frac (f : FFmt) (b : Nat) : Nat := b % 2 ^ f.mbits

def FFmt.isNaN (f : FFmt) (b : Nat) : Bool := f.exp b = f.expMax ∧ f.frac b ≠ 0
/-- A signalling NaN has its quiet bit clear (04 R187). -/
def FFmt.isSNaN (f : FFmt) (b : Nat) : Bool := f.isNaN b && f.frac b < f.quietBit
def FFmt.isSubnormal (f : FFmt) (b : Nat) : Bool := f.exp b = 0 ∧ f.frac b ≠ 0

/-- Set the quiet bit (04 R187). -/
def FFmt.quiet (f : FFmt) (b : Nat) : Nat :=
  if f.frac b < f.quietBit then b + f.quietBit else b

def FFmt.withSign (f : FFmt) (neg : Bool) (b : Nat) : Nat := if neg then b + f.signBit else b

/-- Unpack an operand; a subnormal reads as zero when flush-to-zero applies (04 R189). R204 says of flush-to-zero that
all other rows of its tables stand; where such a row has a subnormal operand, that and R189 differ, and the model follows
R189, which rules the operands of every operation (DESIGN CHOICE, assumption 124). -/
def FFmt.unpack (f : FFmt) (ftz : Bool) (b : Nat) : FVal :=
  if f.isNaN b then .nan b
  else if f.exp b = f.expMax then .inf (f.neg b)
  else if f.exp b = 0 then
    .fin (f.neg b) (if ftz then 0 else f.frac b) f.tinyExp
  else .fin (f.neg b) (f.frac b + 2 ^ f.mbits) ((f.exp b : Int) + f.tinyExp - 1)

/-- Drop `d` bits of `m` (with `st`: more non-zero bits follow), rounding in direction `rm` for the
given sign; the second component says whether anything was lost. -/
def roundOff (rm : BitVec 2) (neg : Bool) (m d : Nat) (st : Bool) : Nat × Bool :=
  let q := m / 2 ^ d
  let r := m % 2 ^ d
  let lost : Bool := r != 0 || st
  let half := 2 ^ d / 2
  let up : Bool :=
    match rm.toNat with
    | 0 => if d = 0 then false
           else (r > half) || (r == half && (st || q % 2 == 1))
    | 1 => false
    | 2 => lost && !neg
    | _ => lost && neg
  (if up then q + 1 else q, lost)

def bitLen (m : Nat) : Nat := if m = 0 then 0 else m.log2 + 1

/-- Round `m * 2^e` to quantum `2^k`, giving the multiple of the quantum. -/
def roundTo (rm : BitVec 2) (neg : Bool) (m : Nat) (e k : Int) (st : Bool) : Nat × Bool :=
  if e ≥ k then (m * 2 ^ (e - k).toNat, st) else roundOff rm neg m (k - e).toNat st

/-- Round an exact non-zero magnitude `m * 2^e` (plus less than one unit when `st`) into the format
(04 R185, R186, R189, R203): tininess is detected after rounding. -/
def FFmt.round (f : FFmt) (c : FCtl) (neg : Bool) (m : Nat) (e : Int) (st : Bool) : FRes :=
  let p := f.mbits + 1
  let k := e + (bitLen m : Int) - (p : Int)
  let (q, lost) := roundTo c.rm neg m e k st
  let top : Int := k + (bitLen q : Int) - 1
  if top < 1 - (f.bias : Int) then
    if c.ftz then ⟨f.withSign neg 0, FFlags.u ||| FFlags.x⟩
    else
      let (t, lostT) := roundTo c.rm neg m e f.tinyExp st
      ⟨f.withSign neg t, (if lostT then FFlags.u ||| FFlags.x else if c.utrap then FFlags.u else 0)⟩
  else if top > (f.bias : Int) then
    let toInf : Bool := match c.rm.toNat with | 0 => true | 1 => false | 2 => !neg | _ => neg
    ⟨f.withSign neg (if toInf then f.infBits else f.maxBits), FFlags.o ||| FFlags.x⟩
  else
    let q' := if bitLen q > p then q / 2 else q
    let be := (top + (f.bias : Int)).toNat
    ⟨f.withSign neg (be * 2 ^ f.mbits + (q' - 2 ^ f.mbits)), if lost then FFlags.x else 0⟩

/-- Round a signed exact value; zero takes the given sign. -/
def FFmt.roundInt (f : FFmt) (c : FCtl) (zeroNeg : Bool) (v : Int) (e : Int) : FRes :=
  if v = 0 then ⟨f.withSign zeroNeg 0, 0⟩ else f.round c (decide (v < 0)) v.natAbs e false

/-- The NaN result of an operation with operands `ops` in the order A, B, D (04 R187), or none. -/
def FFmt.nanOf (f : FFmt) (ops : List Nat) : Option FRes :=
  (ops.find? f.isNaN).map fun b => ⟨f.quiet b, if ops.any f.isSNaN then FFlags.v else 0⟩

/-- An invalid operation with no NaN operand (04 R187). -/
def FFmt.invalid (f : FFmt) : FRes := ⟨f.defaultNaN, FFlags.v⟩

def sgn (neg : Bool) (m : Nat) : Int := if neg then -(m : Int) else (m : Int)

/-- The exact sum of two finite values, as a multiple of the smaller exponent. -/
def addExact (n1 : Bool) (m1 : Nat) (e1 : Int) (n2 : Bool) (m2 : Nat) (e2 : Int) : Int × Int :=
  let e := min e1 e2
  (sgn n1 (m1 * 2 ^ (e1 - e).toNat) + sgn n2 (m2 * 2 ^ (e2 - e).toNat), e)

/-- The sign of an exact zero sum (04 R203): the common sign, else minus only toward −∞. -/
def zeroSumNeg (rm : BitVec 2) (n1 n2 : Bool) : Bool := if n1 = n2 then n1 else rm = 0b11

/-- The sum of two unpacked non-NaN values. -/
def FFmt.addVal (f : FFmt) (c : FCtl) : FVal → FVal → FRes
  | .inf n, .inf n' => if n = n' then ⟨f.withSign n f.infBits, 0⟩ else f.invalid
  | .inf n, _ => ⟨f.withSign n f.infBits, 0⟩
  | _, .inf n => ⟨f.withSign n f.infBits, 0⟩
  | .fin n1 m1 e1, .fin n2 m2 e2 =>
    let s := addExact n1 m1 e1 n2 m2 e2
    f.roundInt c (zeroSumNeg c.rm n1 n2) s.1 s.2
  | _, _ => f.invalid

/-- FADD (04 R196). -/
def FFmt.add (f : FFmt) (c : FCtl) (a b : Nat) : FRes :=
  match f.nanOf [a, b] with
  | some r => r
  | none => f.addVal c (f.unpack c.ftz a) (f.unpack c.ftz b)

def FFmt.flipSign (f : FFmt) (b : Nat) : Nat := if f.neg b then b - f.signBit else b + f.signBit

/-- FSUB A, B is FADD A, −B (04 R196); a NaN B keeps its sign (04 R187). -/
def FFmt.sub (f : FFmt) (c : FCtl) (a b : Nat) : FRes :=
  match f.nanOf [a, b] with
  | some r => r
  | none => f.addVal c (f.unpack c.ftz a) (f.unpack c.ftz (f.flipSign b))

/-- The exact product of two non-NaN values, or none when it is 0 × ∞. -/
def mulVal : FVal → FVal → Option FVal
  | .fin n1 m1 e1, .fin n2 m2 e2 => some (.fin (n1 != n2) (m1 * m2) (e1 + e2))
  | .inf n1, .inf n2 => some (.inf (n1 != n2))
  | .inf n1, .fin n2 m2 _ => if m2 = 0 then none else some (.inf (n1 != n2))
  | .fin n1 m1 _, .inf n2 => if m1 = 0 then none else some (.inf (n1 != n2))
  | _, _ => none

/-- Round one unpacked value. -/
def FFmt.pack (f : FFmt) (c : FCtl) : FVal → FRes
  | .nan b => ⟨f.quiet b, 0⟩
  | .inf n => ⟨f.withSign n f.infBits, 0⟩
  | .fin n m e => if m = 0 then ⟨f.withSign n 0, 0⟩ else f.round c n m e false

/-- FMUL (04 R197). -/
def FFmt.mul (f : FFmt) (c : FCtl) (a b : Nat) : FRes :=
  match f.nanOf [a, b] with
  | some r => r
  | none =>
    match mulVal (f.unpack c.ftz a) (f.unpack c.ftz b) with
    | none => f.invalid
    | some v => f.pack c v

/-- FMA: A × B + D with one rounding (03 R128, 04 R198). -/
def FFmt.fma (f : FFmt) (c : FCtl) (a b d : Nat) : FRes :=
  let nanAB := f.isNaN a || f.isNaN b
  let prod := if nanAB then none else mulVal (f.unpack c.ftz a) (f.unpack c.ftz b)
  match f.nanOf [a, b, d] with
  | some r => if !nanAB && prod.isNone then { r with flags := r.flags ||| FFlags.v } else r
  | none =>
    match prod with
    | none => f.invalid
    | some v => f.addVal c v (f.unpack c.ftz d)

/-- FDIV (04 R199). -/
def FFmt.div (f : FFmt) (c : FCtl) (a b : Nat) : FRes :=
  match f.nanOf [a, b] with
  | some r => r
  | none =>
    match f.unpack c.ftz a, f.unpack c.ftz b with
    | .inf _, .inf _ => f.invalid
    | .inf n1, .fin n2 _ _ => ⟨f.withSign (n1 != n2) f.infBits, 0⟩
    | .fin n1 _ _, .inf n2 => ⟨f.withSign (n1 != n2) 0, 0⟩
    | .fin n1 m1 e1, .fin n2 m2 e2 =>
      let n := n1 != n2
      if m2 = 0 then
        if m1 = 0 then f.invalid else ⟨f.withSign n f.infBits, FFlags.z⟩
      else if m1 = 0 then ⟨f.withSign n 0, 0⟩
      else
        let sh := f.mbits + 4 + bitLen m2
        f.round c n (m1 * 2 ^ sh / m2) (e1 - e2 - (sh : Int)) (m1 * 2 ^ sh % m2 != 0)
    | _, _ => f.invalid

/-- Integer square root, bit by bit from bit `k - 1` down. -/
def isqrtFrom : Nat → Nat → Nat → Nat
  | 0, _, r => r
  | k + 1, n, r => let t := r + 2 ^ k; isqrtFrom k n (if t * t ≤ n then t else r)

/-- FSQRT (04 R200). -/
def FFmt.sqrt (f : FFmt) (c : FCtl) (a : Nat) : FRes :=
  match f.nanOf [a] with
  | some r => r
  | none =>
    match f.unpack c.ftz a with
    | .inf n => if n then f.invalid else ⟨f.infBits, 0⟩
    | .fin n m e =>
      if m = 0 then ⟨f.withSign n 0, 0⟩
      else if n then f.invalid
      else
        let sh := 2 * (f.mbits + 4) + (if e % 2 = 0 then 0 else 1)
        let m' := m * 2 ^ sh
        let r := isqrtFrom (bitLen m' / 2 + 1) m' 0
        f.round c false r ((e - (sh : Int)) / 2) (r * r != m')
    | _ => f.invalid

/-- Order of two finite or infinite values: as integers on a common scale. -/
def FFmt.key (f : FFmt) (b : Nat) : Int :=
  if f.neg b then -((b - f.signBit : Nat) : Int) else (b : Int)

/-- A comparison's BOOL and flags (04 R194): `quiet` comparisons raise invalid only for a
signalling NaN. -/
def FFmt.cmp (f : FFmt) (quiet : Bool) (test : Int → Int → Bool) (a b : Nat) : Bool × FFlags :=
  let nan := f.isNaN a || f.isNaN b
  let snan := f.isSNaN a || f.isSNaN b
  if nan then (false, if snan || !quiet then FFlags.v else 0) else (test (f.key a) (f.key b), 0)

/-- FUN: BOOL 1 when an operand is a NaN (04 R194). -/
def FFmt.unordered (f : FFmt) (a b : Nat) : Bool × FFlags :=
  (f.isNaN a || f.isNaN b, if f.isSNaN a || f.isSNaN b then FFlags.v else 0)

/-- FMIN or FMAX (04 R194, R201): minimumNumber and maximumNumber, with −0 less than +0. -/
def FFmt.minmax (f : FFmt) (wantMax : Bool) (a b : Nat) : FRes :=
  let fl : FFlags := if f.isSNaN a || f.isSNaN b then FFlags.v else 0
  match f.isNaN a, f.isNaN b with
  | true, true => ⟨f.quiet a, fl⟩
  | true, false => ⟨b, fl⟩
  | false, true => ⟨a, fl⟩
  | false, false =>
    let less : Bool := decide (f.key a < f.key b) || (f.key a == f.key b && f.neg a && !f.neg b)
    ⟨if less != wantMax then a else b, 0⟩

/-- An integer to a floating format (03 R128). -/
def FFmt.ofInt (f : FFmt) (c : FCtl) (w : Word) : FRes := f.roundInt c false w.toInt 0

/-- A floating value to a signed INT (04 R195). -/
def FFmt.toInt (f : FFmt) (rm : BitVec 2) (a : Nat) : Word × FFlags :=
  match f.unpack false a with
  | .nan _ => (0x80000000, FFlags.v)
  | .inf n => (if n then 0x80000000 else 0x7FFFFFFF, FFlags.v)
  | .fin n m e =>
    let (q, lost) := roundTo rm n m e 0 false
    let v := sgn n q
    if v > 2147483647 then (0x7FFFFFFF, FFlags.v)
    else if v < -2147483648 then (0x80000000, FFlags.v)
    else (BitVec.ofInt 32 v, if lost then FFlags.x else 0)

/-- One floating format to another (04 R187, R202). -/
def FFmt.convert (f g : FFmt) (c : FCtl) (a : Nat) : FRes :=
  if f.isNaN a then
    let q := f.frac (f.quiet a)
    let fr := if f.mbits ≤ g.mbits then q * 2 ^ (g.mbits - f.mbits) else q / 2 ^ (f.mbits - g.mbits)
    ⟨g.withSign (f.neg a) (g.infBits + fr), if f.isSNaN a then FFlags.v else 0⟩
  else g.pack c (f.unpack c.ftz a)

/-- FCLASS (04 R195). -/
def FFmt.classMask (f : FFmt) (a : Nat) : Word :=
  let n := f.neg a
  let i :=
    if f.isSNaN a then 8 else if f.isNaN a then 9
    else if f.exp a = f.expMax then (if n then 0 else 7)
    else if f.exp a = 0 then
      if f.frac a = 0 then (if n then 3 else 4) else (if n then 2 else 5)
    else (if n then 1 else 6)
  BitVec.ofNat 32 (2 ^ i)

/-- SSR_EINFO of a floating-point trap (04 R191), or none when no enabled flag was raised. -/
def fpTrapInfo (enables flags : FFlags) : Option Word :=
  let hit := enables &&& flags
  if hit = 0 then none
  else
    let first := ((List.range 5).find? (fun i => hit.getLsbD i)).getD 0
    some (BitVec.ofNat 32 first ||| (flags.setWidth 32 <<< 16))

end Sys2Proof.Machine
end

