-- ==== Sys2Proof/Machine/Values.lean ====
section
/-! DEFINITION. The registers of a strand and a frame's header word by word, and the values that integer, logic,
compare and tag operations give, for the instructions and for the microwords alike (03 R94, R99, R102 to R106, R122 to
R127). -/

namespace Sys2Proof.Machine

/-! ### Registers of a strand (03 R102, R104, R106) -/

/-- A general register; g0 reads INT zero. -/
def Slot.g (t : Slot) (r : Reg) : TWord := if r = 0 then TWord.zero else Map.get TWord.zero t.regs r.toNat

/-- Write a general register; writes to g0 are discarded. -/
def Slot.setG (t : Slot) (r : Reg) (v : TWord) : Slot :=
  if r = 0 then t else { t with regs := Map.set TWord.zero t.regs r.toNat v }

/-- Write several registers. -/
def Slot.setGs (t : Slot) (ws : List (Reg × TWord)) : Slot := ws.foldl (fun t w => t.setG w.1 w.2) t

/-- A value of a strand state register by number (03 R106), with the privilege checks of a user's read. -/
def Slot.readSr (t : Slot) (n : Nat) : Except Byte Word :=
  let supOnly (v : Word) : Except Byte Word := if t.sup then .ok v else .error 0x03
  match n with
  | 0 => .ok (t.its.setWidth 32)
  | 1 => .ok (t.fpc.setWidth 32)
  | 2 => .ok (t.fpf.setWidth 32)
  | 3 => supOnly (t.xsid.setWidth 32)
  | 4 => supOnly t.uaw
  | 5 => supOnly (t.ecause.setWidth 32)
  | 6 => supOnly t.einfo
  | 7 => supOnly t.epc
  | 8 => supOnly t.eaddr
  | 9 => .ok (if t.sup then 1 else 0)
  | _ => .error 0x0F

/-- Write a strand state register; XSID's binding is the caller's check (08 R329). -/
def Slot.writeSr (t : Slot) (n : Nat) (v : Word) : Except Byte Slot :=
  match n with
  | 0 => .ok { t with its := v.setWidth 12 }
  | 1 => .ok { t with fpc := v.setWidth 8 }
  | 2 => .ok { t with fpf := v.setWidth 5 }
  | 3 => if t.sup then .ok { t with xsid := v.setWidth 16 } else .error 0x03
  | 4 => if t.sup then .ok { t with uaw := v } else .error 0x03
  | 5 | 6 | 7 | 8 => if t.sup then .error 0x0F else .error 0x03
  | _ => .error 0x0F

/-- Write a strand state register by number, whoever may write it (assumption 56). -/
def Slot.forceSr (t : Slot) (n : Nat) (v : Word) : Slot :=
  match n with
  | 0 => { t with its := v.setWidth 12 }
  | 1 => { t with fpc := v.setWidth 8 }
  | 2 => { t with fpf := v.setWidth 5 }
  | 3 => { t with xsid := v.setWidth 16 }
  | 4 => { t with uaw := v }
  | 5 => { t with ecause := v.setWidth 4 }
  | 6 => { t with einfo := v }
  | 7 => { t with epc := v }
  | 8 => { t with eaddr := v }
  | _ => { t with sup := bit v 0 }

/-- The iteration an ITM field selects (03 R133). -/
def iterOf (t : Slot) (itm : BitVec 2) : BitVec 12 :=
  if itm = 0 then t.act.iter else if itm = 1 then t.act.iter + 1 else if itm = 2 then 0 else t.its

/-! ### A frame's header (02 R44) -/

/-- A word of a frame's header as R44 and R294 lay it out. -/
def Frame.headerWord (x : Frame) (n : Nat) : TWord :=
  let sys (w : Nat) : TWord := ⟨Tag.sys, BitVec.ofNat 32 w⟩
  let b (c : Bool) (i : Nat) : Nat := if c then 2 ^ i else 0
  match n with
  | 0 => sys (x.sid.toNat * 65536 + x.part.toNat * 1024 + x.state.toNat * 64 + b x.persist 0)
  | 1 => sys x.ctx.toNat
  | 2 => ⟨Tag.code, x.code⟩
  | 3 => sys x.count.toNat
  | 4 => sys (x.base.toNat * 2 ^ 20 + x.win.toNat * 1024 + x.weff.toNat)
  | 5 => sys x.contCtx.toNat
  | 6 => sys (x.contStmt.toNat * 65536 + x.contIter.toNat * 16 + x.contPort.toNat * 4)
  | 7 => sys x.holdHead.toNat
  | 8 => sys x.lastCommit.toNat
  | 9 => sys (x.lastCommit.toNat / 2 ^ 32)
  | 10 => sys (x.total.toNat * 65536 + x.remote.toNat)
  | 11 => sys (x.aff.toNat * 2 ^ 24 + x.cls.toNat * 2 ^ 22 + x.port.toNat * 2 ^ 19 + b x.pin 18 + b x.nomig 17
      + x.candCl.toNat * 2 ^ 12 + x.candCnt.toNat * 16 + x.holdLeft.toNat)
  | 12 => sys x.deferAddr.toNat
  | 13 => sys x.deferCnt.toNat
  | 14 => sys x.contSid.toNat
  | 15 => sys 0
  | _ => sys (x.retire.toNat / 2 ^ (32 * (n - 16)))

/-! ### Values (03 R94, R99, R122 to R127) -/

/-- The first POISON operand, as a POISON value (03 R94). -/
def poisonOf : List TWord → Option TWord
  | [] => none
  | v :: vs => if v.tag = Tag.poison then some v else poisonOf vs

/-- Two operands of a computing operation: POISON first (03 R94), then the untyped form (03 R99), then
the typed one. -/
def binary (u : Bool) (f : Word → Word → Word) (typed : TWord → TWord → Except Byte TWord) (a b : TWord) :
    Except Byte TWord :=
  match poisonOf [a, b] with
  | some p => .ok p
  | none => if u then .ok (TWord.int (f a.data b.data)) else typed a b

/-- ADD's typed combinations (03 R122). -/
def addTyped (a b : TWord) : Except Byte TWord :=
  if a.tag = Tag.int ∧ b.tag = Tag.int then .ok (TWord.int (a.data + b.data))
  else if (a.tag = Tag.ptr ∧ b.tag = Tag.int) ∨ (a.tag = Tag.int ∧ b.tag = Tag.ptr) then
    .ok ⟨Tag.ptr, a.data + b.data⟩
  else .error 0x01

/-- SUB's typed combinations (03 R122). -/
def subTyped (a b : TWord) : Except Byte TWord :=
  if (a.tag = Tag.int ∧ b.tag = Tag.int) ∨ (a.tag = Tag.ptr ∧ b.tag = Tag.ptr) then
    .ok (TWord.int (a.data - b.data))
  else if a.tag = Tag.ptr ∧ b.tag = Tag.int then .ok ⟨Tag.ptr, a.data - b.data⟩
  else .error 0x01

/-- The logic operations' tags (03 R123). -/
def logicTyped (f : Word → Word → Word) (a b : TWord) : Except Byte TWord :=
  let okTag (t : Tag) : Bool := t == Tag.int || t == Tag.bool
  if !okTag a.tag || !okTag b.tag then .error 0x01
  else if a.tag = Tag.bool ∧ b.tag = Tag.bool then .ok ⟨Tag.bool, f a.data b.data⟩
  else .ok (TWord.int (f a.data b.data))

/-- Operations on INT only (03 R124). -/
def intTyped (f : Word → Word → Word) (a b : TWord) : Except Byte TWord :=
  if a.tag = Tag.int ∧ b.tag = Tag.int then .ok (TWord.int (f a.data b.data)) else .error 0x01

/-- Comparisons (03 R125): the untyped form writes INT 0 or 1. -/
def compareOp (u order : Bool) (f : Word → Word → Bool) (a b : TWord) : Except Byte TWord :=
  let num (x y : Word) : Word := if f x y then 1 else 0
  let typed (x y : TWord) : Except Byte TWord :=
    let fits : Bool := if order then x.tag == Tag.int || x.tag == Tag.ptr
      else x.tag == Tag.int || x.tag == Tag.bool || x.tag == Tag.ptr || x.tag == Tag.ctx || x.tag == Tag.code
    if x.tag = y.tag ∧ fits then .ok (TWord.bool (f x.data y.data)) else .error 0x01
  binary u num typed a b

/-- One operand, INT or untyped (03 R124). -/
def unaryInt (u : Bool) (f : Word → Word) (a : TWord) : Except Byte TWord :=
  if a.tag = Tag.poison then .ok a
  else if u || a.tag == Tag.int then .ok (TWord.int (f a.data)) else .error 0x01

/-- The shift amount: bits [4:0] (03 R124). -/
def amount (w : Word) : Nat := w.toNat % 32

def andnW (a b : Word) : Word := a &&& ~~~b
def minW (a b : Word) : Word := if b.slt a then b else a
def maxW (a b : Word) : Word := if a.slt b then b else a
def shlW (a b : Word) : Word := a <<< amount b
def shrW (a b : Word) : Word := a >>> amount b
def sarW (a b : Word) : Word := a.sshiftRight (amount b)
def rolW (a b : Word) : Word := a.rotateLeft (amount b)
def rotW (a b : Word) : Word := a.rotateRight (amount b)

def addV (u : Bool) : TWord → TWord → Except Byte TWord := binary u (· + ·) addTyped
def subV (u : Bool) : TWord → TWord → Except Byte TWord := binary u (· - ·) subTyped
def logicV (u : Bool) (f : Word → Word → Word) : TWord → TWord → Except Byte TWord := binary u f (logicTyped f)
def intV (u : Bool) (f : Word → Word → Word) : TWord → TWord → Except Byte TWord := binary u f (intTyped f)
def eqV (u : Bool) : TWord → TWord → Except Byte TWord := compareOp u false (· == ·)
def ltV (u : Bool) : TWord → TWord → Except Byte TWord := compareOp u true BitVec.slt
def ltuV (u : Bool) : TWord → TWord → Except Byte TWord := compareOp u true BitVec.ult

/-- RETAG (03 R94, R97, R127). Where the new tag is EMPTY or DEFER and A is POISON, R127 names reason 0x0E and R94 a
POISON result: the event is raised (DESIGN CHOICE, assumption 119). -/
def retagV (sup : Bool) (g : Tag) (a : TWord) : Except Byte TWord :=
  if g = Tag.empty ∨ g = Tag.defer then .error 0x0E
  else if a.tag = Tag.poison then .ok a
  else if g = Tag.sys ∧ !sup then .error 0x04
  else if g = Tag.bool ∧ 1 < a.data.toNat then .error 0x0F
  else .ok ⟨g, a.data⟩

end Sys2Proof.Machine
end

