-- ==== Sys2Proof/Machine/Micro.lean ====
section
/-! DEFINITION. Microwords (06 R242 to R264): the stores and their banks, the fields of a microword and of a dispatch
entry, selectors, the ALU, tag checks, what a microword starts, its conditions, and the sequencer that runs a
routine. -/

namespace Sys2Proof.Machine

/-! ### The stores (06 R242 to R244, R254, R269) -/

/-- Bits [hi:lo] of a stored word of any width. -/
def bitsOf (w hi lo : Nat) : Nat := w / 2 ^ lo % 2 ^ (hi + 1 - lo)

/-- The record of a patch body that has a target: its place. -/
def patchRecord (patch : List Byte) (target : Nat) : Option Nat :=
  (List.range (patch.length / 20)).find? fun r => bytesAt patch (20 * r) 4 == target

/-- A dispatch entry of the image that a patch over a full body gives; no patch is the empty list, and no body is the
shipped image's. -/
def dispatchOf (body patch : List Byte) (i : Nat) : Nat :=
  match patchRecord patch (2 ^ 31 + i) with
  | some r => bytesAt patch (20 * r + 4) 4
  | none => if body = [] then (Config.shippedDispatch i).toNat else bytesAt body (4 * i) 4

/-- A microword of that image. -/
def microOf (body patch : List Byte) (u : Nat) : Nat :=
  match patchRecord patch u with
  | some r => bytesAt patch (20 * r + 4) 16
  | none => if body = [] then (Config.shippedMicroword u).toNat else bytesAt body (4096 + 16 * u) 16

/-- A bank's words, and the check bits that hardware computed when it wrote them (06 R243, R269). -/
def UcImage.micro (x : UcImage) (u : Nat) : Nat := microOf x.body x.patch u
def UcImage.dispatch (x : UcImage) (i : Nat) : Nat := dispatchOf x.body x.patch i
def UcImage.microCheck (x : UcImage) (u : Nat) : BitVec 9 := Config.bankCheck (BitVec.ofNat 128 (x.micro u))
def UcImage.dispatchCheck (x : UcImage) (i : Nat) : BitVec 7 := Config.dispatchCheck (BitVec.ofNat 32 (x.dispatch i))
def UcImage.isShipped (x : UcImage) : Bool := x.body.isEmpty && x.patch.isEmpty

/-- The banks of a cluster by number. -/
def Cluster.bank (x : Cluster) (one : Bool) : UcImage := if one then x.bank1 else x.bank0
def Cluster.setBank (x : Cluster) (one : Bool) (y : UcImage) : Cluster :=
  if one then { x with bank1 := y } else { x with bank0 := y }

/-- The image in a cell's own stores: that of its repair bank, always (06 R243). -/
def State.cellImage (s : State) (c : CellId) : UcImage :=
  let g := clusterOf c
  let phys := s.regField (clcCell c 0xF40) 4 0
  (s.cluster g).bank (bit (s.reg (clcBase g.toNat + 0xC40 + 4 * phys)) 2)

/-- A microword of a cell's control store with its 8 check bits, and an entry of its dispatch table with its 7 (06
R242). -/
def State.controlStore (s : State) (c : CellId) (u : Nat) : BitVec 128 × BitVec 8 :=
  let w := BitVec.ofNat 128 ((s.cellImage c).micro u)
  (w, Config.cellCheck w)
def State.dispatchTable (s : State) (c : CellId) (i : Nat) : BitVec 32 × BitVec 7 :=
  let w := BitVec.ofNat 32 ((s.cellImage c).dispatch i)
  (w, Config.dispatchCheck w)

/-- A dispatch entry's fields (06 R254). -/
def deValid (w : Nat) : Bool := w.testBit 31
def deSup (w : Nat) : Bool := w.testBit 30
def deFirst (w : Nat) : Bool := w.testBit 29
def deIssue (w : Nat) : Nat := bitsOf w 28 26
def deStart (w : Nat) : Nat := bitsOf w 12 0

/-! ### The fields of a microword (06 R245) -/

def mwClen (w : Nat) : Nat := bitsOf w 127 126
def mwSeq (w : Nat) : Nat := bitsOf w 125 123
def mwNext (w : Nat) : Nat := bitsOf w 122 110
def mwCond (w : Nat) : Nat := bitsOf w 109 105
def mwSrcA (w : Nat) : Nat := bitsOf w 104 99
def mwSrcB (w : Nat) : Nat := bitsOf w 98 93
def mwAluop (w : Nat) : Nat := bitsOf w 92 88
def mwDest (w : Nat) : Nat := bitsOf w 87 82
def mwTchk (w : Nat) : Nat := bitsOf w 81 78
def mwTout (w : Nat) : Nat := bitsOf w 77 73
def mwMemop (w : Nat) : Nat := bitsOf w 72 69
def mwTokop (w : Nat) : Nat := bitsOf w 68 66
def mwUnit (w : Nat) : Nat := bitsOf w 65 62
def mwEvent (w : Nat) : Nat := bitsOf w 61 56
def mwPerform (w : Nat) : Bool := w.testBit 55
def mwPoint (w : Nat) : Bool := w.testBit 54
def mwSsr (w : Nat) : Nat := bitsOf w 53 48
def mwImm (w : Nat) : Nat := bitsOf w 47 32
def mwTrail (w : Nat) : Bool := w.testBit 31

/-! ### What a routine sees and holds -/

/-- What a routine finds: its strand as at the issue, the registers that the instruction's fields name, its immediate,
ITM, FN, U and prefixes, the latches, what the walker, a unit or memory has answered, and the conditions 8 to 19 that
hold (06 R247, R251). -/
structure MicroEnv where
  slot : Slot
  d : Reg
  a : Reg
  b : Reg
  x : Reg
  c : Reg
  imm : Word
  itm : BitVec 2
  fn : BitVec 3
  untyped : Bool
  immPfx : Bool
  tagPfx : Option Tag
  header2 : TWord
  header4 : TWord
  first : Word
  einfo : Word
  eaddr : Word
  walker : TWord
  unit : TWord
  memory : TWord
  vector : Word
  holds : List Nat
  deriving DecidableEq, Repr

/-- What a microword starts (06 R250, R262): each is performed when the issue part ends (R259). -/
inductive MicroAct where
  | point
  | memory (op : Nat) (address value : TWord)
  | token (op : Nat) (a b : TWord) (iter : Word)
  | unit (n : Nat) (a b : TWord)
  | performs
  deriving DecidableEq, Repr

/-- A routine under way: the micro-temporaries, LC, MDR, MAR, the ALU latch and the micro-stack, the cycles spent
outside WAIT, and what is staged until the issue part ends (06 R247, R252, R253, R259). -/
structure MicroState where
  temps : Map TWord
  lc : BitVec 16
  mdr : TWord
  mar : TWord
  alu : TWord
  stack : List Nat
  held : Nat
  regs : List (Reg × TWord)
  ssrs : List (Nat × Word)
  acts : List MicroAct
  deriving DecidableEq, Repr

def micro0 : MicroState :=
  { temps := [], lc := 0, mdr := TWord.zero, mar := TWord.zero, alu := TWord.zero, stack := [], held := 0, regs := []
    ssrs := [], acts := [] }

/-- A strand state register as a microword reads it, whatever the mode (06 R245). -/
def Slot.microSr (t : Slot) (n : Nat) : Word :=
  if n = 9 then (if t.sup then 1 else 0)
  else
    match ({ t with sup := true } : Slot).readSr n with
    | .ok v => v
    | .error _ => 0

/-- The value a selector names (06 R247): a reserved selector reads INT 0 (DESIGN CHOICE, assumption 125). -/
def MicroState.select (m : MicroState) (e : MicroEnv) (imm sel : Nat) : TWord :=
  match sel with
  | 0x00 => e.slot.g e.d
  | 0x01 => e.slot.g e.a
  | 0x02 => e.slot.g e.b
  | 0x03 => e.slot.g e.x
  | 0x04 => e.slot.g e.c
  | 0x05 => TWord.int e.imm
  | 0x06 => TWord.int (BitVec.ofNat 32 imm)
  | 0x07 => m.alu
  | 0x10 => e.header2
  | 0x11 => e.header4
  | 0x12 => ⟨Tag.code, e.first⟩
  | 0x13 => TWord.int e.einfo
  | 0x14 => TWord.int e.eaddr
  | 0x15 => TWord.int (m.lc.setWidth 32)
  | 0x16 => TWord.int (e.slot.act.iter.setWidth 32)
  | 0x17 => ⟨Tag.ctx, e.slot.act.ctx⟩
  | 0x18 => TWord.int (e.slot.sid.setWidth 32)
  | 0x19 => m.mdr
  | 0x1A => m.mar
  | 0x1B => e.walker
  | 0x1C => e.unit
  | 0x1D => ⟨Tag.code, e.vector⟩
  | n =>
    if n < 0x08 then TWord.zero
    else if n < 0x10 then Map.get TWord.zero m.temps (n - 8)
    else if 0x20 ≤ n then e.slot.g (BitVec.ofNat 5 n)
    else TWord.zero

/-- DEST: a register is staged, a temporary, LC, MDR or MAR is written at once (06 R247, R259). -/
def MicroState.store (m : MicroState) (e : MicroEnv) (sel : Nat) (v : TWord) : MicroState :=
  let reg (r : Reg) : MicroState := { m with regs := m.regs ++ [(r, v)] }
  match sel with
  | 0x00 => reg e.d
  | 0x01 => reg e.a
  | 0x02 => reg e.b
  | 0x15 => { m with lc := v.data.setWidth 16 }
  | 0x19 => { m with mdr := v }
  | 0x1A => { m with mar := v }
  | n =>
    if 0x08 ≤ n ∧ n < 0x10 then { m with temps := Map.set TWord.zero m.temps (n - 8) v }
    else if 0x20 ≤ n then reg (BitVec.ofNat 5 n)
    else m

/-! ### The ALU and the tag checks (06 R248, R249) -/

/-- The value of an ALU function. -/
def aluValue (op : Nat) (e : MicroEnv) (latch a b : Word) : Word :=
  let num (c : Bool) : Word := if c then 1 else 0
  match op with
  | 0 => a
  | 1 => b
  | 2 => a + b
  | 3 => a - b
  | 4 => a &&& b
  | 5 => a ||| b
  | 6 => a ^^^ b
  | 7 => andnW a b
  | 8 => minW a b
  | 9 => maxW a b
  | 10 => shlW a b
  | 11 => shrW a b
  | 12 => sarW a b
  | 13 => rolW a b
  | 14 => rotW a b
  | 15 => BitVec.ofNat 32 (clz32 a)
  | 16 => BitVec.ofNat 32 (ctz32 a)
  | 17 => BitVec.ofNat 32 (popc32 a)
  | 18 => num (a == b)
  | 19 => num (a != b)
  | 20 => num (a.slt b)
  | 21 => num (a.sle b)
  | 22 => num (a.ult b)
  | 23 => num (a.ule b)
  | 24 => (iterOf { e.slot with act := { e.slot.act with iter := a.setWidth 12 } } e.itm).setWidth 32
  | 25 => (a + b) &&& 0xFFF
  | 26 => ~~~a
  | 27 => -a
  | 28 => a &&& 0xFF
  | 29 => a &&& 0xFFFF
  | 30 => if latch = 1 then a else b
  | _ => a

/-- The sources that an ALU function takes, in the order A, B. -/
def aluTakes (op : Nat) (latch : Word) (a b : TWord) : List TWord :=
  if op = 1 then [b]
  else if [0, 15, 16, 17, 24, 26, 27, 28, 29].contains op then [a]
  else if op = 30 then (if latch = 1 then [a] else [b])
  else [a, b]

/-- What a value that leaves the strand must not be tagged (03 R98, R120). -/
def leavesOk (sup : Bool) (v : TWord) : Except Byte Unit :=
  if v.tag = Tag.empty ∨ v.tag = Tag.defer then .error 0x07
  else if v.tag = Tag.sys ∧ !sup then .error 0x04 else .ok ()

/-- All values carry one tag, which is the result's. -/
def allTagged (g : Tag) (vs : List TWord) : Except Byte Tag :=
  if vs.all fun v => v.tag == g then .ok g else .error 0x01

/-- The tag that a TCHK class gives, or the reason of its tag event (06 R249). Classes 0, 8 to 13 and 15 state no
result tag: INT (DESIGN CHOICE, assumption 125). -/
def tagRule (cls op : Nat) (sup : Bool) (takes : List TWord) (a b : TWord) : Except Byte Tag :=
  let poisonA : Except Byte Unit := if a.tag = Tag.poison then .error 0x05 else .ok ()
  match cls with
  | 1 => allTagged Tag.int takes
  | 2 => (if op = 3 then subTyped a b else addTyped a b).map TWord.tag
  | 3 => (logicTyped (· &&& ·) a (if takes.length = 1 then a else b)).map TWord.tag
  | 4 => if a.tag = b.tag ∧ (a.tag = Tag.int ∨ a.tag = Tag.ptr) then .ok Tag.bool else .error 0x01
  | 5 =>
    if a.tag = b.tag ∧ [Tag.int, Tag.bool, Tag.ptr, Tag.ctx, Tag.code].contains a.tag then .ok Tag.bool else .error 0x01
  | 6 => allTagged Tag.f32 takes
  | 7 => if a.tag = Tag.f64h ∧ b.tag = Tag.f64l then .ok Tag.f64h else .error 0x01
  | 8 => do
    poisonA
    if a.tag ≠ Tag.ctx then .error 0x01
    else if a.data.setWidth 20 = (0 : BitVec 20) then .error 0x0F
    else (leavesOk sup b).map fun _ => Tag.int
  | 9 => do
    poisonA
    if b.tag = Tag.poison then .error 0x05
    else if a.tag ≠ Tag.ptr ∨ b.tag ≠ Tag.int then .error 0x01 else .ok Tag.int
  | 10 => do
    poisonA
    if a.tag = Tag.int ∨ a.tag = Tag.bool then .ok Tag.int else .error 0x01
  | 11 => do
    poisonA
    if a.tag = Tag.code then .ok Tag.int else .error 0x01
  | 12 => (leavesOk sup b).map fun _ => Tag.int
  | 13 => do
    poisonA
    .ok Tag.int
  | _ => .ok Tag.int

/-- The classes that form no result but test a use of R96, where a POISON value raises its event or passes through, and
a POISON result replaces no check (03 R94, R96). -/
def usesOnly (cls : Nat) : Bool := decide (8 ≤ cls) && decide (cls ≤ 13)

/-- The result of a microword's ALU under its TCHK and TOUT (06 R248, R249): POISON first (03 R94), then the class's
check, then the tag that TOUT names. -/
def microResult (w : Nat) (e : MicroEnv) (latch a b : TWord) : Except Byte TWord :=
  let op := mwAluop w
  let takes := aluTakes op latch.data a b
  match (if usesOnly (mwTchk w) then none else poisonOf takes) with
  | some p => .ok p
  | none =>
    match tagRule (mwTchk w) op e.slot.sup takes a b with
    | .error r => .error r
    | .ok g =>
      let v := aluValue op e latch.data a.data b.data
      let out := mwTout w
      if out < 16 then .ok ⟨BitVec.ofNat 4 out, v⟩
      else if out = 0x11 then .ok ⟨a.tag, v⟩
      else
        match e.tagPfx with
        | some p => if out = 0x12 then retagV e.slot.sup p ⟨g, v⟩ else .ok ⟨g, v⟩
        | none => .ok ⟨g, v⟩

/-! ### One microword -/

/-- The operations that bring a word from memory into MDR (06 R250). -/
def memoryReads (op : Nat) : Bool := [1, 2, 5, 8, 11, 12].contains op

/-- What a microword starts (06 R250): memory operations are at MAR with MDR's value, slot operations at A with B's
(DESIGN CHOICE, assumption 125). -/
def microActs (w : Nat) (m : MicroState) (a b : TWord) : List MicroAct :=
  let slotOp := mwMemop w == 5 || mwMemop w == 6
  (if mwPoint w then [.point] else [])
    ++ (if mwMemop w = 0 then [] else [.memory (mwMemop w) (if slotOp then a else m.mar) (if slotOp then b else m.mdr)])
    ++ (if mwTokop w = 0 then [] else [.token (mwTokop w) a b m.alu.data])
    ++ (if mwUnit w = 0 then [] else [.unit (mwUnit w) a b])
    ++ (if mwPerform w then [.performs] else [])

/-- The controls of one microword (06 R245 to R250): it reads its sources, checks their tags, latches the ALU's result,
and stages what it writes and starts; TOKOP 1 finds room for one more item or raises reason 0x0B. -/
def MicroState.controls (m : MicroState) (e : MicroEnv) (w : Nat) : Except Byte (TWord × MicroState) :=
  let sr := mwSsr w / 16
  let n := mwSsr w % 16
  let a := if sr = 1 then TWord.int (e.slot.microSr n) else m.select e (mwImm w) (mwSrcA w)
  let b := m.select e (mwImm w) (mwSrcB w)
  let reserved := (m.acts.filter fun y => match y with | .token 1 .. => true | _ => false).length
  match microResult w e m.alu a b with
  | .error r => .error r
  | .ok v =>
    if mwTokop w = 1 ∧ 64 ≤ e.slot.items + reserved then .error 0x0B
    else
      let acts := microActs w m a b
      let m := { m with alu := v, acts := m.acts ++ acts, held := m.held + (if mwSeq w = 7 then 0 else mwClen w + 1) }
      let m := if memoryReads (mwMemop w) then { m with mdr := e.memory } else m
      let m := if sr = 2 then { m with ssrs := m.ssrs ++ [(n, v.data)] }
        else if sr = 3 then { m with ssrs := m.ssrs ++ [(n, a.data), (n + 1, b.data)] } else m
      .ok (a, m.store e (mwDest w) v)

/-! ### Sequencing (06 R251 to R253) -/

/-- A condition (06 R251); the ALU latch is the one that the microword found. -/
def MicroState.cond (m : MicroState) (e : MicroEnv) (latch : Word) (n : Nat) : Bool :=
  match n with
  | 0 => true
  | 1 => latch == 0
  | 2 => latch != 0
  | 3 => e.untyped
  | 4 => e.immPfx
  | 5 => e.tagPfx.isSome
  | 6 => e.slot.sup
  | 7 => m.lc == 0
  | n => decide (n < 20) && e.holds.contains n

/-- The map of SEQ 5 (06 R252). -/
def microMap (e : MicroEnv) (latch : Word) (a : TWord) (n : Nat) : Nat :=
  match n with
  | 0 => e.itm.toNat
  | 1 => a.tag.toNat
  | 2 => e.fn.toNat
  | 3 => latch.toNat % 16
  | _ => 0

/-- Where the sequencer goes. -/
inductive MicroNext where
  | go (u : Nat) (m : MicroState)
  | ends
  | waits
  | faults
  deriving DecidableEq, Repr

/-- The next address (06 R252): a CALL with four return addresses or a RETURN with none is a fault (R253). -/
def MicroState.next (m : MicroState) (e : MicroEnv) (latch : Word) (a : TWord) (u w : Nat) : MicroNext :=
  let c := mwCond w
  match mwSeq w with
  | 0 => .go (mwNext w) m
  | 1 => .go (if m.cond e latch c then mwNext w else u + 1) m
  | 2 => if 4 ≤ m.stack.length then .faults else .go (mwNext w) { m with stack := (u + 1) :: m.stack }
  | 3 =>
    match m.stack with
    | [] => .faults
    | r :: rest => .go r { m with stack := rest }
  | 4 => if m.lc ≠ 0 then .go (mwNext w) { m with lc := m.lc - 1 } else .go (u + 1) m
  | 5 => .go (mwNext w + microMap e latch a (c % 16)) m
  | 6 => .ends
  | _ => if m.cond e latch c then .go (u + 1) m else .waits

/-- How a run of microwords comes to a stop: at END, before the trailing part, with an event of EVENT or of a tag check,
in a WAIT, or with a sequencing fault. -/
inductive MicroEnd where
  | ended
  | trails (u : Nat)
  | raises (kind reason : Nat)
  | waits (u : Nat)
  | sequencing
  deriving DecidableEq, Repr

/-- Run a routine from microword `u` (06 R246, R252, R253, R258 to R260): the issue part, or with `trail` the trailing
part. A routine of 4,096 cc without END is a sequencing fault; the fuel bounds the microwords. -/
def microRun (store : Nat → Nat) (e : MicroEnv) (trail : Bool) : Nat → Nat → MicroState → MicroEnd × MicroState
  | 0, _, m => (.sequencing, m)
  | fuel + 1, u, m =>
    let w := store u
    if mwTrail w && !trail then (.trails u, m)
    else
      match m.controls e w with
      | .error r => (.raises 1 r.toNat, m)
      | .ok (a, m') =>
        if mwEvent w / 16 ≠ 0 then (.raises (mwEvent w / 16) (mwEvent w % 16), m')
        else
          match m'.next e m.alu.data a u w with
          | .ends => (.ended, m')
          | .waits => (.waits u, m')
          | .faults => (.sequencing, m')
          | .go v m'' => if 4096 ≤ m''.held then (.sequencing, m'') else microRun store e trail fuel v m''

/-! ### Event entry as microcode (06 R264) -/

/-- The cell's own conditions, for a routine that no instruction began. -/
def State.microHolds (s : State) (c : CellId) (t : Slot) : List Nat :=
  (if t.loads.isEmpty then [8] else []) ++ [9]
    ++ (if t.items < 64 then [10] else [])
    ++ (if ((s.cell c).stbuf.filter fun y => y.shared).length < 8 then [11] else [])
    ++ (if (s.cell c).stbuf.isEmpty then [12] else [])
    ++ (if t.walk.isNone then [13] else [])
    ++ (if t.resv.isSome then [17] else [])
    ++ (if t.iter.isNone then [19] else [])

/-- What an event-entry routine finds: no instruction's fields, the event's latches and the vector of its cause. -/
def State.entryEnv (s : State) (c : CellId) (k : SlotId) (first info addr vector : Word) (memory : TWord) : MicroEnv :=
  let t := s.slot c k
  let x := s.frame (frameOf t.act.ctx)
  { slot := t, d := 0, a := 0, b := 0, x := 0, c := 0, imm := 0, itm := 0, fn := 0, untyped := false, immPfx := false
    tagPfx := none, header2 := x.headerWord 2, header4 := x.headerWord 4, first := first, einfo := info, eaddr := addr
    walker := TWord.zero, unit := TWord.zero, memory := memory, vector := vector, holds := s.microHolds c t }

/-- What a finished event-entry routine leaves in its slot: the registers it staged, and issue goes to the address in t0
(06 R264). Writing SSR_MODE 1 brings the slot into HANDLER. -/
def Slot.afterEntry (t : Slot) (m : MicroState) : Slot :=
  let t := m.ssrs.foldl (fun t w => t.forceSr w.1 w.2) (t.setGs m.regs)
  { t with state := if m.ssrs.any (fun w => w.1 == 9 && bit w.2 0) then .handler else t.state
           pc := (Map.get TWord.zero m.temps 0).data }

/-- A routine copies the handler's first words into the fetch buffer (MEMOP 15, 06 R250). -/
def MicroState.prefetches (m : MicroState) : Bool :=
  m.acts.any fun y => match y with | .memory 15 _ _ => true | _ => false

/-- The slot stores that a routine staged (MEMOP 6). -/
def MicroState.slotStores (m : MicroState) : List (Nat × TWord) :=
  m.acts.filterMap fun y =>
    match y with
    | .memory 6 a v => some (a.data.toNat % 256, v)
    | _ => none

end Sys2Proof.Machine
end

