-- ==== Sys2Proof/Machine/Strands.lean ====
section
/-! DEFINITION. Strands: registers, instruction words, translation of their accesses, commit points and
retries (13 R533 to R541), events and their entry (05 R223 to R233), and the one way in which every
instruction issues. -/

namespace Sys2Proof.Machine

/-- The state of R209 that a slot shows: a running strand that waits shows WAIT, and so does a halted slot (15
R659). -/
def Slot.shown (t : Slot) : SlotState :=
  if t.halted.isSome ∨ (t.state = .run ∧ (t.wait ≠ .none ∨ t.iter.isSome)) then .wait else t.state

end Sys2Proof.Machine

namespace Sys2Proof

/-! ### Instruction words (03 R109 to R114) -/

/-- The words of a long instruction. -/
def LongOp.len (x : LongOp) : Nat := x.pre.length + 1
def LsOp.len (x : LsOp) : Nat := x.pre.length + 1

/-- IMM_HI of a PFX.IMM before the main word, and the tag of a PFX.TAG. -/
def preImm : List Pfx → Option (BitVec 21)
  | [] => none
  | .imm p :: _ => some ((p >>> 4).setWidth 21)
  | .tag _ :: ps => preImm ps
def preTag : List Pfx → Option Tag
  | [] => none
  | .tag p :: _ => some ((p >>> 21).setWidth 4)
  | .imm _ :: ps => preTag ps

/-- The prefix words' own zero bits and their order (03 R113, R114). -/
def preOk : List Pfx → Bool
  | [] => true
  | [.imm p] => p.setWidth 4 == (0 : BitVec 4)
  | [.tag p] => p.setWidth 21 == (0 : BitVec 21)
  | [.imm p, .tag q] => p.setWidth 4 == (0 : BitVec 4) && q.setWidth 21 == (0 : BitVec 21)
  | _ => false

/-- The layouts a major opcode takes (03 R117). -/
inductive Layout where
  | lr
  | li
  | both
  deriving DecidableEq, Repr

def Body.isLi : Body → Bool
  | .li .. => true
  | .lr .. => false

def Layout.allows (l : Layout) (b : Body) : Bool :=
  match l with
  | .lr => !b.isLi
  | .li => b.isLi
  | .both => true

/-- RM values that are not illegal (03 R110; DEDUCED: of every LR word, assumption 9). -/
def rmOk (rm : BitVec 3) : Bool := rm != 1 && rm != 2 && rm != 3

/-- A long instruction word that is no illegal encoding (03 R99, R109, R110, R114): its layout is the
major's, U and PFX.TAG are used only where the major takes them, PFX.IMM only before LI. -/
def LongOp.legal (x : LongOp) (l : Layout) (uOk tagOk : Bool) : Bool :=
  preOk x.pre && l.allows x.body && (tagOk || (preTag x.pre).isNone)
    && (x.body.isLi || (preImm x.pre).isNone)
    && (match x.body with
        | .lr _ _ u rm rsv _ => (uOk || !u) && rsv == 0 && rmOk rm
        | .li .. => true)

def LongOp.d (x : LongOp) : Reg := match x.body with | .lr d .. => d | .li d .. => d
def LongOp.a (x : LongOp) : Reg := match x.body with | .lr _ a .. => a | .li _ a _ => a
def LongOp.u (x : LongOp) : Bool := match x.body with | .lr _ _ u .. => u | .li .. => false
def LongOp.rm (x : LongOp) : BitVec 3 := match x.body with | .lr _ _ _ rm .. => rm | .li .. => 0
def LongOp.b (x : LongOp) : Reg := match x.body with | .lr _ _ _ _ _ b => b | .li .. => 0

/-- IMM32 after PFX.IMM, else the sign-extended IMM11 (03 R110, R113). -/
def immOf (pre : List Pfx) (field : BitVec 11) : Word :=
  match preImm pre with
  | some hi => hi ++ field
  | none => field.signExtend 32
def LongOp.imm (x : LongOp) : Word := match x.body with | .li _ _ i => immOf x.pre i | .lr .. => 0

/-- The second operand: register B, or the immediate as INT. -/
def LongOp.opB (x : LongOp) (t : Machine.Slot) : TWord := if x.body.isLi then TWord.int x.imm else t.g x.b

/-- The registers that the fields of the word name. -/
def LongOp.regs (x : LongOp) : List Reg := if x.body.isLi then [x.d, x.a] else [x.d, x.a, x.b]

/-- A legal LS word (03 R114): only PFX.IMM, and then IMM32[31:16] is 0. -/
def LsOp.legal (x : LsOp) : Bool :=
  preOk x.pre && (preTag x.pre).isNone
    && (match preImm x.pre with
        | some hi => decide ((hi ++ x.stmt : BitVec 32).toNat < 65536)
        | none => true)

/-- The statement an LS word names (03 R133). -/
def LsOp.statement (x : LsOp) : BitVec 16 :=
  match preImm x.pre with
  | some hi => (hi ++ x.stmt : BitVec 32).setWidth 16
  | none => x.stmt.setWidth 16

end Sys2Proof

namespace Sys2Proof.Machine

/-! ### Events -/

/-- An event that an instruction raises: SSR_ECAUSE, SSR_EINFO and, for a memory event, SSR_EADDR
(03 R119, 08 R352). -/
structure Ev where
  cause : BitVec 4
  info : Word
  addr : Option Word := none
  /-- the words of an SVC, which ERET passes over (05 R233); 0 for every other event -/
  skip : Nat := 0
  deriving DecidableEq, Repr

def tagEv (reason : Byte) : Ev := { cause := 3, info := reason.setWidth 32 }
def svcEv (n : BitVec 11) (len : Nat) : Ev := { cause := 1, info := n.setWidth 32, skip := len }
def fpEv (info : Word) : Ev := { cause := 4, info := info }
def mcEv (rec_ : Word) : Ev := { cause := 5, info := rec_ }

/-- A translation fault (08 R352). -/
def faultEv (window : Bool) (level : BitVec 4) (kind : BitVec 4) (code : Byte) (va : Word) : Ev :=
  { cause := 2, info := BitVec.ofNat 32 ((if window then 65536 else 0) + level.toNat * 4096 + kind.toNat * 256
      + code.toNat), addr := some va }

/-- What an instruction does. -/
inductive Act where
  | done (s : State)
  | event (e : Ev) (s : State)
  | waits (s : State)
  | stops (r : Refusal)

/-! ### Commit points and retries (13 R535 to R541) -/

/-- The strand's operations have all written back. -/
def Slot.allWritten (t : Slot) : Bool := t.loads.isEmpty && t.iter.isNone

/-- Store-buffer entries of a strand; a device's posted stores of an earlier firing are none of its. -/
def State.storesOf (s : State) (c : CellId) (k : SlotId) : List StEnt :=
  (s.cell c).stbuf.filter fun e => e.slot == k && !e.ended

/-- Slot stores of a strand become visible (03 R107). -/
def State.slotStores (s : State) (c : CellId) (k : SlotId) : State :=
  s.each ((s.storesOf c k).filter (!·.performed)) fun s e =>
    match e.kind with
    | .slot f n => s.modFrame f fun x => { x with slots := Map.set TWord.empty x.slots n.toNat e.val }
    | _ => s

/-- A store-buffer entry at its strand's commit point: sealed, and a slot store performed. -/
def StEnt.committed (e : StEnt) : StEnt :=
  match e.kind with
  | .slot .. => { e with isSealed := true, sent := true, performed := true }
  | _ => { e with isSealed := true }

/-- Count a transient detection (13 R541): the strand passed a commit point after retries. -/
def State.passRetries (s : State) (c : CellId) (k : SlotId) : State :=
  let n := (s.slot c k).retries
  if n = 0 then s
  else
    let s := s.each (List.range n) fun s _ => s.bump (clcCell c 0xFC0)
    (s.assertSrc (s.cellSource c)).modSlot c k fun t => { t with retries := 0 }

/-- A cell whose twin pair is joined (13 R575). -/
def State.twinned (s : State) (c : CellId) : Bool :=
  let w := s.reg (clcCell c 0xF80)
  (bit w 31 || bit w 30) && !bit w 29

/-- A commit point of a twin pair completes only when the digests of both twins match (13 R550): the strand
waits for the exchange that TWIN_DIGEST is. -/
def State.awaitsTwin (s : State) (c : CellId) (k : SlotId) : Bool := s.twinned c && !(s.slot c k).agreed
def State.waitTwin (s : State) (c : CellId) (k : SlotId) : State := s.modSlot c k fun t => { t with wait := .twin }

/-- A commit point (13 R536): the shadow is written, the stores and the send list are sealed and the
reservation ends. `next` is the address of the strand's next instruction. -/
def State.commitPoint (s : State) (c : CellId) (k : SlotId) (next : Word) : State :=
  let s := (s.slotStores c k).modCell c fun x =>
    { x with stbuf := x.stbuf.map fun e => if e.slot = k then e.committed else e }
  let s := s.passRetries c k
  s.modSlot c k fun t =>
    { t with
      shadow := { regs := t.regs, its := t.its, fpc := t.fpc, fpf := t.fpf, uaw := t.uaw, xsid := t.xsid
                  pc := next, items := t.items, wins := t.wins.length, handler := t.state == .handler, sup := t.sup }
      sealedItems := t.sends.length, resv := none }

/-- The commit point that follows a commit-first operation: it records the result (13 R536). -/
def State.recordResult (s : State) (c : CellId) (k : SlotId) (next : Word) : State :=
  (s.passRetries c k).modSlot c k fun t =>
    { t with shadow := { t.shadow with regs := t.regs, its := t.its, fpc := t.fpc, fpf := t.fpf
                                       uaw := t.uaw, xsid := t.xsid, pc := next
                                       handler := t.state == .handler, sup := t.sup } }

/-- What a strand that goes back to its commit point still waits for: the answer of a commit-first operation that has
left is awaited, since that operation is performed once (03 R151). -/
def Wait.kept (w : Wait) : Wait :=
  match w with
  | .hop d n => .hop d n
  | _ => .none

/-- A strand goes back to its last commit point (13 R539): its registers come from the shadow, its unsealed
stores and items go, and it resumes at the shadow's address. One that goes back to before an event's entry leaves
that event pending (R540). -/
def State.restoreStrand (s : State) (c : CellId) (k : SlotId) : State :=
  let s := s.modCell c fun x => { x with stbuf := x.stbuf.filter fun e => e.slot != k || e.isSealed }
  let again := (s.slot c k).state == .handler && !(s.slot c k).shadow.handler
  s.modSlot c k fun t =>
    { t with
      regs := t.shadow.regs, its := t.shadow.its, fpc := t.shadow.fpc, fpf := t.shadow.fpf
      uaw := t.shadow.uaw, xsid := t.shadow.xsid, pc := t.shadow.pc, items := t.shadow.items
      sends := t.sends.take t.sealedItems, wins := t.wins.take t.shadow.wins
      iter := none, loads := [], walk := none, wait := t.wait.kept
      state := if t.shadow.handler then .handler else .run, sup := t.shadow.sup
      dueMc := if again && t.ecause == 5 then some (t.dueMc.getD t.einfo) else t.dueMc
      dueDbg := if again && t.ecause == 7 then some (t.dueDbg.getD t.einfo) else t.dueDbg
      dueTs := t.dueTs || (again && t.ecause == 6) }

/-- RETRY_MAX of a cell's cluster (13 R574): 0 acts as 1. -/
def State.retryMax (s : State) (c : CellId) : Nat := max 1 (s.regField (clcBase (clusterOf c).toNat + 0xF00) 1 0)

/-- One more retry from this commit point is counted. -/
def State.countRetry (s : State) (c : CellId) (k : SlotId) : State :=
  let s := (s.restoreStrand c k).modSlot c k fun t => { t with retries := t.retries + 1 }
  s.pmc c (some (s.slot c k).sup) 0x32

/-- Retry a firing (13 R539). More than RETRY_MAX retries in a row are lasting (13 R541). -/
def State.retryFiring (s : State) (c : CellId) (k : SlotId) : State :=
  let s := s.countRetry c k
  if (s.slot c k).retries ≤ s.retryMax c then s
  else (s.modSlot c k fun t => { t with lost := true }).assertSevere (s.cellSource c)

/-! ### Event entry (05 R223 to R232) -/

/-- A double event (05 R232, 13 R564): the firing ends without commit, its context fails, and a record of
KIND 5 names it. -/
def State.doubleEvent (s : State) (c : CellId) (k : SlotId) : State :=
  let t := s.slot c k
  let (n, s) := s.makeRecord { kind := 5, source := s.cellSource c, cell := s.recCell c, sid := t.sid
                               ctx := t.act.ctx }
  ((s.bump (clcCell c 0xBC0)).endFiring c k).failContext (frameOf t.act.ctx) n

/-- Event entry takes the issue stage, discards the fetch buffer and fills it with the first four handler words from
the event prefetch store (05 R227, R228). -/
def CellSt.entered (x : CellSt) (k : SlotId) (v : Word) : CellSt :=
  { x with owner := some k, run := 0, buf := some { slot := k, sectors := [], handler := some (v, 0) } }

/-- The reservation of a strand ends, and so does one that an outstanding LOADR would still set (03 R157). -/
def Slot.endResv (t : Slot) : Slot := { t with resv := none, loads := t.loads.map fun l => { l with reserve := none } }

/-- An event-entry routine that cannot run, for a sequencing fault (06 R253) or an entry with VALID 0 (R256): a record of
KIND 4, and a machine check becomes due. The event was not entered: one of an instruction is raised when that executes
again, another stays pending (R266). Where the machine check's own routine cannot run, it is a double event (DESIGN
CHOICE, assumption 125). -/
def State.entryFailed (s : State) (c : CellId) (k : SlotId) (e : Ev) (source : Nat) : State :=
  let t := s.slot c k
  if e.cause = 5 then s.doubleEvent c k
  else
    let (n, s) := (s.assertSrc source).makeRecord { kind := 4, source := source, cell := s.recCell c, sid := t.sid
                                                    ctx := t.act.ctx }
    s.modSlot c k fun t =>
      { t with dueMc := some (t.dueMc.getD n)
               dueDbg := if e.cause = 7 then some (t.dueDbg.getD e.info) else t.dueDbg
               dueTs := t.dueTs || e.cause == 6 }

/-- Run the event-entry routine of a cause in the cell's image (06 R255, R264): its dispatch entry is 544 + cause. FREE
VALUE: what a memory operation of it brings (assumption 125). -/
def State.entryRoutine (s : State) (c : CellId) (k : SlotId) (e : Ev) (epc addr v0 : Word) : State :=
  let img := s.cellImage c
  let de := img.dispatch (544 + e.cause.toNat)
  let (v, s) := s.draw
  let env := s.entryEnv c k epc e.info addr v0 ⟨Tag.int, v.setWidth 32⟩
  if !deValid de then s.entryFailed c k e (s.cellSource c)
  else
    match microRun img.micro env true 12 (deStart de) micro0 with
    | (.ended, m) =>
      let buf : FetchBuf := { slot := k, sectors := [], handler := if m.prefetches then some (v0, 0) else none }
      let f := frameOf (s.slot c k).act.ctx
      let s := s.modFrame f fun x =>
        { x with slots := m.slotStores.foldl (fun y w => Map.set TWord.empty y w.1 w.2) x.slots }
      (s.modCell c fun x => { (x.entered k v0) with buf := some buf }).modSlot c k fun t =>
        { t.endResv.afterEntry m with wait := .none, walk := none, agreed := false, afterSvc := e.skip }
    | _ => s.entryFailed c k e (clusterSource (clusterOf c) 22)

/-- Enter the handler of a cause (05 R227, R228, R230): the event registers, supervisor mode and the vector;
the reservation ends. The shipped image's routine is that of 06 R264's table, e0 to e6; another image's routine is
run. FREE VALUE: SSR_EADDR where the event names no address. In a handler it is a double event. -/
def State.enterEvent (s : State) (c : CellId) (k : SlotId) (e : Ev) (epc : Word) : State :=
  let t := s.slot c k
  let s := if e.cause = 2 then s.bump (trnBase (clusterOf c).toNat + 0x28) else s
  if t.state = .handler then s.doubleEvent c k
  else
    let (v, s) := s.draw
    let s := s.pmc c (some t.sup) 0x33
    let s := if e.cause = 4 then s.pmc c (some t.sup) 0x21 else s
    let v0 := Map.get 0 (s.cell c).vectors e.cause.toNat
    if !(s.cellImage c).isShipped then s.entryRoutine c k e epc (e.addr.getD (v.setWidth 32)) v0
    else
    (s.modCell c fun x => x.entered k v0).modSlot c k fun t =>
      { t.endResv with state := .handler, ecause := e.cause, einfo := e.info, epc := epc
                       eaddr := e.addr.getD (v.setWidth 32), sup := true
                       pc := v0, wait := .none, walk := none, agreed := false, afterSvc := e.skip }

/-- ITER_MODE of a cell's cluster: stall mode (04 R183). -/
def State.stallMode (s : State) (c : CellId) : Bool := bit (s.reg (clcBase (clusterOf c).toNat + 0xA00)) 0

/-- Take a preemptive event at a boundary (05 R225, R227; 04 R177): an iterative operation in flight is
abandoned and its address saved. -/
def State.takeEvent (s : State) (c : CellId) (k : SlotId) (e : Ev) : State :=
  let t := s.slot c k
  match t.iter with
  | none => s.enterEvent c k e t.pc
  | some i =>
    let s := (s.modSlot c k fun t => { t with iter := none, abandoned := some i.pc }).bump (clcCell c 0xA40)
    (s.pmc c (some t.sup) 0x22).enterEvent c k e i.pc

/-- A debug event that halts the strand has bit 31 set in `dueDbg` (15 R658). -/
def haltsOnly (w : Word) : Bool := bit w 31

/-- A slot that waits at an instruction boundary (05 R223): for its instruction to issue, which a register, a unit, a
fetch or the walk of a fetch holds up, or in a parked WORKGET. -/
def Slot.atBoundary (t : Slot) : Bool :=
  match t.wait with
  | .none | .operand | .fetch | .work .. => true
  | .walk => t.walk.any fun w => w.kind == 2
  | _ => false

/-- A strand halts (15 R658, R659); the operation that abandon mode finds in flight is cancelled and executes again
after the halt (04 R177). -/
def State.haltSlot (s : State) (c : CellId) (k : SlotId) (reason : Byte) : State :=
  match (s.slot c k).iter with
  | none => s.modSlot c k fun t => { t with halted := some (reason, s.now) }
  | some i =>
    (s.modSlot c k fun t =>
      { t with halted := some (reason, s.now), iter := none, abandoned := some i.pc, pc := i.pc }).bump (clcCell c 0xA40)

/-- Sample the due events of a slot at its boundary (05 R225): machine check, debug, time slice. None
when none is due or none may be taken now: in a handler, while halted, inside an instruction, at the
commit, or in stall mode before an operation in flight has written back. -/
def State.sample (s : State) (c : CellId) (k : SlotId) : Option State :=
  let t := s.slot c k
  if t.halted.isSome || !(t.state == .run || t.state == .parked) then none
  else if !t.atBoundary then none
  else if t.iter.isSome ∧ s.stallMode c then none
  else
    let s := if t.state = .parked then (s.leaveQueue c k).modSlot c k fun t => { t with state := .run } else s
    match t.dueMc, t.dueDbg with
    | some r, _ => some ((s.modSlot c k fun t => { t with dueMc := none }).takeEvent c k (mcEv r))
    | none, some w =>
      let s := s.modSlot c k fun t => { t with dueDbg := none }
      some (if haltsOnly w then s.haltSlot c k (w.setWidth 8)
        else s.takeEvent c k { cause := 7, info := w })
    | none, none =>
      if t.dueTs ∧ !t.noSlice ∧ t.state = .run then
        some ((s.modSlot c k fun t => { t with dueTs := false }).takeEvent c k { cause := 6, info := 0 })
      else none

/-- Sample a slot's due events when they may be taken. -/
def State.sampled (s : State) (c : CellId) (k : SlotId) : State := (s.sample c k).getD s

/-- An event of the instruction at the boundary is raised after those that come before it (05 R225): a machine check or
a debug event that is due is taken instead, and the instruction executes again. -/
def State.raiseInTurn (s : State) (c : CellId) (k : SlotId) (e : Ev) (epc : Word) : State :=
  let t := s.slot c k
  if t.dueMc.isSome || t.dueDbg.isSome then (s.sample c k).getD (s.enterEvent c k e epc) else s.enterEvent c k e epc

/-- A machine check becomes due at a slot that runs (13 R560). -/
def State.machineCheck (s : State) (c : CellId) (k : SlotId) (rec_ : Word) : State :=
  if (s.slot c k).state = .idle then s
  else (s.modSlot c k fun t => { t with dueMc := some (t.dueMc.getD rec_) }).sampled c k

/-- A machine check that a strand's own access raises makes a record of KIND 4 (13 R564). -/
def State.ownCheck (s : State) (c : CellId) (k : SlotId) (source addr : Nat) : State :=
  let t := s.slot c k
  let (n, s) := s.makeRecord { kind := 4, source := source, cell := s.recCell c, sid := t.sid
                               ctx := t.act.ctx, addr := addr }
  s.machineCheck c k n

/-- A word of the cluster cache or of the Pantry fails its error code (09 R404): a clean sector is dropped, so that the
access misses; a dirty or a Pantry word becomes POISON; a tag entry lost in both copies takes its block, with a machine
check when it was dirty. Answers what the word is now where it is POISON. FREE VALUE: the data of that. -/
def State.sectorError (s : State) (g : BitVec 4) (w : Nat) (tags : Bool) : Option TWord × State :=
  let sec := sectorOf w
  let src := clusterSource g 18
  let s := (s.bump (cchBase g.toNat + 0x3C)).assertSrc src
  let drop (s : State) (y : Nat) : State :=
    ((s.modCluster g fun cl => cl.putSector y sector0).dropLines g y none).dropResv g y none
  let spoil (s : State) : Option TWord × State :=
    let (v, s) := s.draw
    (some ⟨Tag.poison, v.setWidth 32⟩, s.clusterWrite g w none fun _ => ⟨Tag.poison, v.setWidth 32⟩)
  if s.pantryOf w = some g then spoil s
  else if tags then
    let secs := (List.range 4).map (sec / 4 * 4 + ·)
    let lost := secs.any fun y => ((s.cluster g).sectorAt y).dirty
    let s := s.each secs drop
    if lost then
      let (n, s) := s.makeRecord { kind := 4, source := src }
      (none, s.each (cellsOf g) fun s c => s.each allSlots fun s k => s.machineCheck c k n)
    else (none, s)
  else if ((s.cluster g).sectorAt sec).dirty then spoil s
  else (none, drop s sec)

/-! ### Microwords that fail (06 R265) -/

/-- A microword's failure at execution: rewritten from the repair bank; a second failure within 1 s at a
rewritten address is lasting (13 R541). -/
def State.microFailed (s : State) (c : CellId) (addr : Nat) : State :=
  let g := clusterOf c
  let phys := s.regField (clcCell c 0xF40) 4 0
  let again := (s.cluster g).rewritten.any fun r =>
    r.1 == phys && r.2.1 == addr && decide ((s.now - r.2.2).toNat < 1000000000)
  let s := s.modCluster g fun cl =>
    { cl with rewritten := (cl.rewritten.filter fun r => !(r.1 == phys && r.2.1 == addr)) ++ [(phys, addr, s.now)] }
  let s := s.bumpField (clcBase g.toNat + 0xCA0 + 4 * phys) 31 16
  let s := s.assertSrc (s.cellSource c)
  if again then s.assertSevere (s.cellSource c) else s

/-- A check named a unit that a strand used since its last commit point: it retries, or takes a machine check where an
operation of it has left the cell and is not recorded (13 R538, R539). -/
def State.sharedRetry (s : State) (c : CellId) (k : SlotId) : State :=
  let t := s.slot c k
  if t.state != .run && t.state != .handler then s
  else if t.wait.kept != .none then s.ownCheck c k (s.cellSource c) 0
  else s.retryFiring c k

/-- What the checks of an issue say (13 R533, 06 R253, R265). None when the instruction goes on: a check
that fails after a commit-first operation (`cf`) has left the cell is that operation's (13 R538). -/
def State.checked (s : State) (c : CellId) (k : SlotId) (d : Detect) (cf : Bool) : Option State :=
  match d with
  | .ok => none
  | .corrected => none
  | .correctedEntry => none
  | .datapath => some (s.retryFiring c k)
  | .shared ks => some (s.each (ks.filter (· != k)) (fun s k' => s.sharedRetry c k') |>.retryFiring c k)
  | .left => if cf then none else some (s.retryFiring c k)
  | .microword a => some ((s.microFailed c a.toNat).retryFiring c k)
  | .dispatch i => some ((s.microFailed c (8192 + i.toNat)).retryFiring c k)
  | .sequencing =>
    let src := clusterSource (clusterOf c) 22
    some ((s.assertSrc src).ownCheck c k src 0)

/-- What an issue that goes on notes of its checks: a corrected word asserts the cell's source (13 R533), and a corrected
dispatch entry is counted (06 R244, R280). -/
def State.noted (s : State) (c : CellId) (d : Detect) : State :=
  match d with
  | .corrected => s.assertSrc (s.cellSource c)
  | .correctedEntry => s.bumpField (clcBase (clusterOf c).toNat + 0xCA0 + 4 * s.regField (clcCell c 0xF40) 4 0) 7 0
  | _ => s

/-- A boundary at which an event is due: the event enters its handler, unless a microword or the dispatch entry of its
routine fails its check; then the firing retries and the event stays pending (06 R266). `u` is the state in which the
event has been taken. -/
def State.sampledWith (s u : State) (c : CellId) (k : SlotId) (d : Detect) (cf : Bool) : State :=
  match d with
  | .microword _ | .dispatch _ | .sequencing => if (u.slot c k).halted.isSome then u else (s.checked c k d cf).getD u
  | _ => u

/-! ### Translation of a strand's accesses (08 R328, R346 to R352) -/

/-- The VSID of a cell's event vectors (05 R241). -/
def State.esid (s : State) (c : CellId) : BitVec 16 := (s.reg (clcCell c 0xB80)).setWidth 16

/-- The user-access window covers a word address (08 R346). -/
def inWindow (uaw va : Word) : Bool :=
  let base := field uaw 31 12 * 4096
  let pages := field uaw 11 0
  decide (base ≤ va.toNat) && decide (va.toNat < base + pages * 4096)

/-- The access is inside the window (08 R347). -/
def Slot.windowed (t : Slot) (va : Word) (a : Access) : Bool := t.sup && a.kind != 2 && inWindow t.uaw va

/-- The SID in which an access translates (08 R328). -/
def State.sidFor (s : State) (c : CellId) (t : Slot) (window : Bool) : BitVec 16 :=
  if window then t.xsid else if t.state = .handler then s.esid c else t.sid

/-- Look a page up in the cell TLB, then in the cluster TLB, which fills the cell TLB (08 R343, R354, R365). -/
def State.tlbLookup (s : State) (c : CellId) (sid : BitVec 16) (p : BitVec 6) (va : Word) :
    Option TlbEnt × State :=
  match (s.cell c).tlb.find? fun e => e.covers sid p va with
  | some e => (some e, s)
  | none =>
    let g := clusterOf c
    let s := s.bump (trnBase g.toNat + 0x40 + 4 * cellIndex c)
    match (s.cluster g).tlb.find? fun e => e.covers sid p va with
    | some e => (some e, s.cellTlbInstall c e)
    | none => (none, s.bump (trnBase g.toNat + 0x20))

/-- What translating one access gives. -/
inductive Xlate where
  | ok (e : TlbEnt) (word : Nat)
  | event (e : Ev)
  | walk
  deriving DecidableEq, Repr

/-- Begin a walk (08 R343): the slot waits for its table reads. -/
def State.startWalk (s : State) (c : CellId) (k : SlotId) (va : Word) (sid : BitVec 16) (kind : BitVec 4)
    (window : Bool) : State :=
  s.modSlot c k fun t =>
    { t with wait := .walk
             walk := some { va := va, sid := sid, kind := kind, window := window, stage := .space, leaf := none
                            big := false, tries := 0, torn := false, suspended := false } }

/-- Translate and check one access (08 R343, R348, R349, R353). -/
def State.xlate (s : State) (c : CellId) (k : SlotId) (va : Word) (a : Access) : Xlate × State :=
  let t := s.slot c k
  let win := t.windowed va a
  let sid := s.sidFor c t win
  match s.tlbLookup c sid t.part va with
  | (none, s) => (.walk, (s.pmc c (some t.sup) 0x11).startWalk c k va sid a.kind win)
  | (some e, s) =>
    let j : Judge := if win then .window else if t.sup then .sup else .user
    let w := e.word va
    match e.check a j (s.devGranted t.part (localWord w * 4 % 2 ^ 24)) with
    | some code => (.event (faultEv win 0 a.kind code va), s)
    | none => (.ok e w, s)

/-! ### Fetch (03 R108, 05 R216 to R222) -/

/-- What a fetch of one word gives. -/
inductive Fetched where
  | ok
  | waits
  | event (e : Ev)
  deriving DecidableEq, Repr

/-- The fetch buffer of a cell when a miss brings a sector for a slot: another slot's words go (05 R212). -/
def FetchBuf.bring (b : Option FetchBuf) (k : SlotId) (sec : Nat) : FetchBuf :=
  match b with
  | some x => if x.slot = k then { x with sectors := x.sectors ++ [sec] } else { slot := k, sectors := [sec], handler := none }
  | none => { slot := k, sectors := [sec], handler := none }

/-- The fetch buffer once slot `k` has issued and goes on at `pc`: of its words only the handler words that event entry
brought and that are still to come stay. -/
def FetchBuf.left (b : Option FetchBuf) (k : SlotId) (pc : Word) : Option FetchBuf :=
  match b with
  | some { slot, handler := some (v, n), .. } =>
    let d := (pc - v).toNat
    if slot = k ∧ n < d ∧ d < 4 then some { slot := k, sectors := [], handler := some (v, d) } else none
  | _ => none

/-- The sector stands in the cell's fetch buffer for the slot (09 R382). -/
def CellSt.buffered (x : CellSt) (k : SlotId) (sec : Nat) : Bool :=
  match x.buf with
  | some b => b.slot == k && b.sectors.contains sec
  | none => false

/-- A handler's word that event entry brought from the event prefetch store (05 R227, R230). -/
def State.prefetched (s : State) (c : CellId) (k : SlotId) (va : Word) : Bool :=
  let t := s.slot c k
  match (s.cell c).buf with
  | some { slot, handler := some (v, n), .. } =>
    let d := (va - v).toNat
    slot == k && t.state == .handler && decide (n ≤ d) && decide (d < 4)
      && (Map.get TWord.empty (s.cell c).prefetch (4 * (t.ecause.toNat - 1) + d)).tag != Tag.empty
  | _ => false

/-- Fetch the word at an address: from the event prefetch store where it holds it, else by translation, then the cell cache, which a miss fills (09 R367). A page
without C is read at its home and fills nothing; a sector that a miss brought stays in the fetch buffer until
the instruction has executed, installed or not (09 R382, R394). -/
def State.fetchWord (s : State) (c : CellId) (k : SlotId) (va : Word) : Fetched × State :=
  if s.prefetched c k va then (.ok, s) else
  match s.xlate c k va accFetch with
  | (.walk, s) => (.waits, s)
  | (.event e, s) => (.event e, s)
  | (.ok e w, s) =>
    if !e.c || (s.cell c).hasLine (sectorOf w) || (s.cell c).buffered k (sectorOf w) then (.ok, s)
    else
      let g := clusterOf c
      let p := (s.slot c k).part
      let s := s.pmc c (some (s.slot c k).sup) 0x10
      match s.clusterRead g p w with
      | (.hit _, s) => (.ok, s.modCell c fun x => x.fillLine (sectorOf w))
      | (.waits, s) => (.waits, s)
      | (.miss, s) =>
        let h := homeOf e.homing w
        match s.joinMiss g p h (sectorOf w) false (.fetch c k) w (homeOf e.homing (w + 16)) with
        | none => (.waits, s)
        | some s => (.waits, s.modSlot c k fun t => { t with wait := .fetch })

/-- The target of a branch is fetched before the test is known (05 R216; 08 R345): a fetch that raises nothing, of a page
with C only. Its sector comes into the cell cache from the cluster, which asks for one it does not have. It is
abandoned where the TLBs do not hold the page or the cluster cannot ask (DESIGN CHOICE, assumption 130). -/
def State.fetchAhead (s : State) (c : CellId) (k : SlotId) (va : Word) : State :=
  let t := s.slot c k
  match s.tlbLookup c (s.sidFor c t false) t.part va with
  | (none, s) => s
  | (some e, s) =>
    let w := e.word va
    let sec := sectorOf w
    let j : Judge := if t.sup then .sup else .user
    if !e.c || (e.check accFetch j (s.devGranted t.part (localWord w * 4 % 2 ^ 24))).isSome then s
    else if (s.cell c).hasLine sec || (s.cell c).buffered k sec then s
    else
      let s := s.pmc c (some t.sup) 0x10
      match s.clusterRead (clusterOf c) t.part w with
      | (.hit _, s) => s.modCell c fun x => x.fillLine sec
      | (.waits, s) => s
      | (.miss, s) =>
        (s.joinMiss (clusterOf c) t.part (homeOf e.homing w) sec false (.fetch c k) w (homeOf e.homing (w + 16))).getD s

/-- Fetch an instruction of `len` words, one to three, in their order: an event names the first that faults (08 R352). -/
def State.fetch (s : State) (c : CellId) (k : SlotId) (pc : Word) (len : Nat) : Fetched × State :=
  match s.fetchWord c k pc with
  | (.ok, s) =>
    if len ≤ 1 then (.ok, s)
    else
      match s.fetchWord c k (pc + 1) with
      | (.ok, s) => if len ≤ 2 then (.ok, s) else s.fetchWord c k (pc + 2)
      | r => r
  | r => r

/-! ### Halts, breakpoints and watchpoints (15 R657 to R659) -/

/-- The time of a frame's last commit once its quiet-time clock, stopped since `since`, runs again. -/
def laterCommit (now since last : BitVec 64) : BitVec 64 :=
  if now - last < now - since then now else last + (now - since)

/-- Release a halted slot (15 R659): the quiet-time clock of its context runs again. -/
def State.unhalt (s : State) (c : CellId) (k : SlotId) : State :=
  let t := s.slot c k
  match t.halted with
  | none => s
  | some (_, since) =>
    let s := s.modSlot c k fun t => { t with halted := none }
    if t.state = .idle then s
    else s.modFrame (frameOf t.act.ctx) fun x => { x with lastCommit := laterCommit s.now since x.lastCommit }

/-- The lowest enabled unit of a table of points that `f` names. -/
def pointHit (m : Map (Option DbgPoint)) (n : Nat) (f : DbgPoint → Bool) : Option (Nat × DbgPoint) :=
  (List.range n).findSome? fun u =>
    match Map.get none m u with
    | some p => if f p then some (u, p) else none
    | none => none

/-- What a hit does: an event for the handler when its FLAGS[0] is set (bit 30 of SPEC here), else a halt. -/
def pointDue (reason : Nat) (u : Nat) (p : DbgPoint) : Word :=
  BitVec.ofNat 32 (reason + u * 256) ||| (if bit p.spec 30 then 0 else lockBit)

/-- The strand meets a debug event: it enters the handler, or halts. -/
def State.debugStop (s : State) (c : CellId) (k : SlotId) (w : Word) : State :=
  if haltsOnly w then s.haltSlot c k (w.setWidth 8)
  else if (s.slot c k).state = .handler then s.modSlot c k fun t => { t with dueDbg := some w }
  else s.takeEvent c k { cause := 7, info := w }

/-- A code breakpoint at the address about to execute; one that stopped this instruction already lets it
pass. -/
def State.codeBreak (s : State) (c : CellId) (t : Slot) : Option Word :=
  let sid := s.sidFor c t false
  (pointHit s.dbg.breaks 8 fun p => p.sid == sid && p.addr == t.pc).map fun (u, p) => pointDue 4 u p

/-- A watchpoint over a data access (15 R657): sizes are powers of two, aligned. -/
def State.watchHit (s : State) (c : CellId) (t : Slot) (va : Word) (store : Bool) : Option Word :=
  let sid := s.sidFor c t (t.windowed va accLoad)
  let hits (p : DbgPoint) : Bool :=
    let n := min 22 (field p.spec 4 0)
    p.sid == sid && va.toNat / 2 ^ n == p.addr.toNat / 2 ^ n && bit p.spec (if store then 6 else 5)
  (pointHit s.dbg.watches 4 hits).map fun (u, p) => pointDue 6 u p

/-! ### Issue -/

/-- A register with a load outstanding (05 R214). -/
def Slot.busy (t : Slot) (r : Reg) : Bool := r != 0 && t.loads.any fun l => l.reg == r

/-- A strand whose next instruction nothing known holds up: it runs, waits for nothing and is not halted. -/
def Slot.ready (t : Slot) : Bool :=
  (t.state == .run || t.state == .handler) && t.halted.isNone && t.wait == .none && t.iter.isNone && !t.lost

/-- The slots strictly between the owner and `k` in rotating order. -/
def slotsBetween (o k : SlotId) : List SlotId :=
  (List.range ((k - o).toNat - 1)).map fun n => o + 1 + BitVec.ofNat 3 n

/-- The slot has the issue stage, or gets it now (05 R211): the owner keeps it while it is ready, until it has issued
YIELD_LIMIT + 1 times in a row while another slot could; then the next ready slot in rotating order has its turn. -/
def State.mayOwn (s : State) (c : CellId) (k : SlotId) : Bool :=
  let x := s.cell c
  let isReady (j : SlotId) : Bool := (s.slot c j).ready
  match x.owner with
  | none => true
  | some o =>
    let spent := decide (s.regField (clcBase (clusterOf c).toNat + 0xB00) 5 0 < x.run)
    if o = k then !(spent && allSlots.any fun j => j != k && isReady j)
    else (spent || !isReady o) && !(slotsBetween o k).any isReady

/-- A strand that may issue its next instruction: it runs, is not halted, waits for nothing but what lets it issue
again, and has the issue stage. -/
def State.canIssue (s : State) (c : CellId) (k : SlotId) : Bool :=
  let t := s.slot c k
  (t.state == .run || t.state == .handler) && t.halted.isNone
    && (t.wait == .none || t.wait == .operand || t.wait == .again) && t.iter.isNone
    && !t.lost && !(s.cell c).stopped && s.mayOwn c k

/-- The cell after slot `k` has issued an instruction and goes on at `pc` (05 R211, R212). -/
def CellSt.issued (x : CellSt) (k : SlotId) (pc : Word) : CellSt :=
  { x with owner := some k, run := if x.owner = some k then x.run + 1 else 1, buf := FetchBuf.left x.buf k pc }

/-- A strand waits no longer for what let its instruction issue again. -/
def Wait.over (w : Wait) : Wait := if w = .operand ∨ w = .again then .none else w

/-- A strand waits no longer for its instruction's registers or unit. -/
def Wait.hasOperand (w : Wait) : Wait := if w = .operand then .none else w

/-- After an instruction: it was the issue owner's (05 R211), and a step halts. -/
def State.afterInstr (s : State) (c : CellId) (k : SlotId) : State :=
  let step (t : Slot) : Slot :=
    let t := { t with passed := none, watched := none, porchWaited := false, agreed := false, wait := t.wait.over }
    if t.stepping = 1 then { t with stepping := 0, halted := some (2, s.now) } else t
  ((s.pmc c (some (s.slot c k).sup) 0x02).modSlot c k step).modCell c fun x => x.issued k (s.slot c k).pc

/-- The strand waits for a register or a unit (05 R209, R214). -/
def State.waitOperand (s : State) (c : CellId) (k : SlotId) : State := s.modSlot c k fun t => { t with wait := .operand }

/-- The strand waits inside its instruction, which then issues again (05 R223). -/
def State.waitAgain (s : State) (c : CellId) (k : SlotId) : State := s.modSlot c k fun t => { t with wait := .again }

/-- An instruction raises an event at its boundary; it performed nothing (03 R121). -/
def State.raise (s : State) (c : CellId) (k : SlotId) (e : Ev) : State :=
  s.enterEvent c k e (s.slot c k).pc

/-- What follows from what an instruction does: its end, its event, a wait, or its stop. -/
def Act.settle (c : CellId) (k : SlotId) : Act → Outcome
  | .done s => .next (s.afterInstr c k)
  | .event e s => .next (s.raise c k e)
  | .waits s => .next s
  | .stops r => .refused r

/-- Issue one instruction (05 R213 to R216): due events first, then the checks, the fetch, the encoding
and the privilege, then its registers, then what it does. -/
def State.issue (s : State) (i : Iss) (len : Nat) (legal sup : Bool) (uses : List Reg)
    (body : State → Slot → Act) (cf : Bool := false) : Outcome :=
  let c := i.cell
  let k := i.slot
  if !s.canIssue c k then idle s
  else
    match s.sample c k with
    | some u => .next (s.sampledWith u c k i.check cf)
    | none =>
      let t := s.slot c k
      match (if t.passed = some t.pc then none else s.codeBreak c t) with
      | some w => .next ((s.debugStop c k w).modSlot c k fun y => { y with passed := some t.pc })
      | none =>
        match s.checked c k i.check cf with
        | some s => .next s
        | none =>
          let s := s.noted c i.check
          match s.fetch c k t.pc len with
          | (.waits, s) => .next s
          | (.event e, s) => .next (s.raise c k e)
          | (.ok, s) =>
            if i.fetchTag ≠ Tag.int then .next (s.raise c k (tagEv 0x0D))
            else if !legal then .next (s.raise c k (tagEv 0x02))
            else if sup && !t.sup then .next (s.raise c k (tagEv 0x03))
            else if uses.any t.busy then .next (s.waitOperand c k)
            else
              (body s (s.slot c k)).settle c k

/-- Finish an instruction: the registers it writes, and the address of the next one. -/
def State.finish (s : State) (i : Iss) (len : Nat) (ws : List (Reg × TWord)) : State :=
  s.modSlot i.cell i.slot fun t => { (t.setGs ws) with pc := t.pc + BitVec.ofNat 32 len }

/-- The tag that a PFX.TAG gives the value written to D (03 R97, R113; a POISON value stays POISON,
R94). R127's events for RETAG hold for the prefix too: EMPTY and DEFER raise reason 0x0E, before POISON propagates, and
BOOL over data above 1 raises 0x0F (DESIGN CHOICE, assumption 119: R113 names no event). -/
def tagged (pre : List Pfx) (sup : Bool) (v : TWord) : Except Byte TWord :=
  match preTag pre with
  | none => .ok v
  | some g => retagV sup g v

/-- An instruction that computes one value and writes it to D. -/
def State.compute (s : State) (i : Iss) (len : Nat) (pre : List Pfx) (d : Reg) (sup : Bool)
    (v : Except Byte TWord) : Act :=
  match v.bind (tagged pre sup) with
  | .error r => .event (tagEv r) s
  | .ok w => .done (s.finish i len [(d, w)])

end Sys2Proof.Machine
end

