-- ==== Sys2Proof/Machine/Mailboxes.lean ====
section
/-! DEFINITION. Mailboxes (14 R583 to R602): their request and response areas, doorbells, cancel requests,
responses over every transport, and the TLS sessions. The commands that a mailbox carries stand in
Benus.lean. -/

namespace Sys2Proof.Machine

/-! ### Status codes (14 R611) -/

abbrev stOk : Nat := 0
abbrev stUnknown : Nat := 1
abbrev stClass : Nat := 2
abbrev stIdentity : Nat := 3
abbrev stLength : Nat := 4
abbrev stField : Nat := 5
abbrev stNotFound : Nat := 6
abbrev stState : Nat := 7
abbrev stResource : Nat := 8
abbrev stBusy : Nat := 9
abbrev stSignature : Nat := 10
abbrev stRollback : Nat := 11
abbrev stStepping : Nat := 12
abbrev stImage : Nat := 13
abbrev stCancelled : Nat := 14
abbrev stTimeout : Nat := 15
abbrev stStaleEpoch : Nat := 16
abbrev stInterrupted : Nat := 17
abbrev stAuth : Nat := 18

/-- The states of a mailbox (14 R586). -/
abbrev mbIdle : BitVec 2 := 0
abbrev mbQueued : BitVec 2 := 1
abbrev mbRunning : BitVec 2 := 2
abbrev mbDone : BitVec 2 := 3

/-- The kinds of an owner identity (14 R591). -/
abbrev whoService : Byte := 0
abbrev whoOperator : Byte := 1
abbrev whoSupervisor : Byte := 2
abbrev whoHart : Byte := 3

/-- Fields of the request header (14 R584). -/
def Mailbox.cmd (b : Mailbox) : Nat := bytesAt b.request 0 2
def Mailbox.len (b : Mailbox) : Nat := bytesAt b.request 2 2
def Mailbox.tag (b : Mailbox) : Nat := bytesAt b.request 4 4
def Mailbox.flags (b : Mailbox) : Nat := bytesAt b.request 8 2
def Mailbox.epoch (b : Mailbox) : Nat := bytesAt b.request 12 4
def Mailbox.payload (b : Mailbox) : List Byte := (b.request.drop 16).take b.len

/-- STATUS of the response (14 R585). -/
def Mailbox.status (b : Mailbox) : Nat := if b.state = mbDone then bytesAt b.response 8 2 else 0

/-- The response to a request (14 R585). -/
def responseBytes (req : List Byte) (status detail : Nat) (payload : List Byte) : List Byte :=
  natLe 2 (bytesAt req 0 2) ++ natLe 2 payload.length ++ natLe 4 (bytesAt req 4 4) ++ natLe 2 status
    ++ [0, 0] ++ natLe 4 detail ++ payload

/-- A request header is a cancel request (14 R589). -/
def isCancel (req : List Byte) : Bool :=
  bytesAt req 0 2 == 0xFFFF && bytesAt req 2 2 == 0 && bytesAt req 8 2 == 0

/-- A mailbox assigned as `mbx.assign` says (14 R583, R603): it is idle, and a TLS session bound to it
ends (R594). -/
def State.assignMbx (s : State) (m : BitVec 5) (p : List Byte) : State :=
  let t := bytesAt p 1 1
  let tr : Option Transport :=
    match t with
    | 0 => some .svc
    | 1 => some (.pcie 0)
    | 2 => some (.pcie 1)
    | 3 => some (.mgt 0)
    | 4 => some .mbx
    | 5 => some .fabric
    | _ => none
  let old := s.mbx m
  let s := { s with ben := { s.ben with tls := s.ben.tls.filter fun e => e.2 != some old.fingerprint } }
  s.setMbx m
    { mailbox0 with
      owner := BitVec.ofNat 8 (bytesAt p 3 1), part := BitVec.ofNat 6 (bytesAt p 4 1), transport := tr
      classes := BitVec.ofNat 16 (bytesAt p 2 1)
      fingerprint := if t = 3 then BitVec.ofNat 384 (bytesAt p 8 48) else 0 }

/-- The audit record of a command (14 R617). -/
def State.audit (s : State) (m : BitVec 5) (b : Mailbox) (status detail flags : Nat) : State :=
  s.log 5 (if b.owner = whoSupervisor then b.part.setWidth 8 else noPart)
    ([m.setWidth 8, b.owner] ++ natLe 2 b.cmd ++ natLe 4 b.tag ++ natLe 2 status ++ natLe 1 flags ++ [0]
      ++ natLe 4 detail)

/-- A response leaves over the mailbox's transport (14 R597, R598, R601). -/
def State.deliverResponse (s : State) (m : BitVec 5) (b : Mailbox) (resp : List Byte) (status detail : Nat) :
    State :=
  match b.transport with
  | some (.pcie _) => if b.irqEn then s.emit (.msix m) else s
  | some .mbx =>
    match b.block with
    | none => s
    | some (va, sid, p, stmt) =>
      match s.spaceWrites sid va ((bytesWords 512 resp).map TWord.int) with
      | .ok s => s.completionToken .benus p stmt portSingle ⟨Tag.ptr, va⟩
      | .error (at_, c, s) => (s.writeFailed (platSource 0) sid at_ c).audit m b status detail (if b.restarted then 3 else 2)
  | _ => s.emit (.response m resp)

/-- The response of a mailbox's request is written, and the mailbox enters DONE (14 R586, R594): a
reassignment that waited takes effect. Every response of a command that changes module state is audited
(assumption 20). -/
def State.respond (s : State) (m : BitVec 5) (status detail : Nat) (payload : List Byte) : State :=
  let b := s.mbx m
  let resp := responseBytes b.request status detail payload
  let s := s.setMbx m { b with state := mbDone, response := resp, restarted := false, progress := 0, newOwner := [] }
  let s := { s with ben := { s.ben with order := s.ben.order.filter (· != m)
                                        journal := s.ben.journal.filter (· != m) } }
  let s := if b.cmd / 256 = 0 then s else s.audit m b status detail (if b.restarted then 1 else 0)
  let s := s.deliverResponse m b resp status detail
  if b.newOwner = [] then s else s.assignMbx m b.newOwner

/-- A doorbell (14 R586): in IDLE or DONE the request waits; else it is ignored and OVERRUN is set. -/
def State.ring (s : State) (m : BitVec 5) (req : List Byte)
    (block : Option (Word × BitVec 16 × BitVec 6 × BitVec 16)) : State :=
  let b := s.mbx m
  if b.state = mbQueued ∨ b.state = mbRunning then s.setMbx m { b with overrun := true }
  else
    let s := s.setMbx m { b with state := mbQueued, request := req, response := [], block := block, progress := 0 }
    { s with ben := { s.ben with order := s.ben.order.filter (· != m) ++ [m] } }

/-- A cancel request (14 R588, R589): it ends a queued command; one that names no waiting request is
ignored and sets OVERRUN. -/
def State.cancelMbx (s : State) (m : BitVec 5) (tag : Nat) : State :=
  let b := s.mbx m
  if (b.state = mbQueued ∨ b.state = mbRunning) ∧ b.tag = tag then
    if b.state = mbQueued then s.respond m stCancelled 0 [] else s
  else s.setMbx m { b with overrun := true }

/-- A request that the mailbox answers at once without running it. -/
def State.answerAtOnce (s : State) (m : BitVec 5) (req : List Byte) (status : Nat) : State :=
  s.emit (.response m (responseBytes req status 0 []))

/-- The two transports are the same: every MGT session of a mailbox's client counts as one. -/
def sameTransport (a b : Transport) : Bool :=
  match a, b with
  | .mgt _, .mgt _ => true
  | x, y => x == y

/-- A write of MBX_CTRL_m over PCIe carries IRQ_EN too (14 R597). -/
def State.ctrlWrite (s : State) (m : BitVec 5) (t : Transport) (irqEn : Bool) : State :=
  match t with
  | .pcie _ => s.modMbx m fun b => { b with irqEn := irqEn }
  | _ => s

/-- MBX_DOORBELL (14 R586, R594, R596): a mailbox whose transport is not the accessing port ignores the
write; an unassigned one refuses the doorbell with IDENTITY. `irqEn` is the IRQ_EN of the same write. -/
def execMbxDoorbell (m : BitVec 5) (t : Transport) (irqEn : Bool) (request : List Byte) (s : State) : Outcome :=
  match (s.mbx m).transport with
  | none => .next (s.answerAtOnce m request stIdentity)
  | some t' => if sameTransport t t' then .next ((s.ctrlWrite m t irqEn).ring m request none) else .next s

/-- MBX_CANCEL (14 R588, R589, R597). -/
def execMbxCancel (m : BitVec 5) (t : Transport) (irqEn : Bool) (tag : Word) (s : State) : Outcome :=
  match (s.mbx m).transport with
  | none => .next s
  | some t' =>
    if !sameTransport t t' then .next s
    else
      match t with
      | .pcie _ =>
        let s := s.ctrlWrite m t irqEn
        let b := s.mbx m
        if b.state = mbQueued then .next (s.respond m stCancelled 0 [])
        else if b.state = mbRunning then .next s
        else .next (s.setMbx m { b with overrun := true })
      | _ => .next (s.cancelMbx m tag.toNat)

/-- A framed request for a mailbox (14 R589, R598): a cancel request, BUSY, or a doorbell. -/
def State.framed (s : State) (m : BitVec 5) (req : List Byte) : State :=
  let b := s.mbx m
  if isCancel req then s.cancelMbx m (bytesAt req 4 4)
  else if b.state = mbQueued ∨ b.state = mbRunning then s.answerAtOnce m req stBusy
  else s.ring m req none

/-- The mailbox that a TLS session serves (14 R598). -/
def State.mgtMbx (s : State) (fp : BitVec 384) : Option (BitVec 5) :=
  ((List.range 32).map (BitVec.ofNat 5)).find? fun m =>
    let b := s.mbx m
    (match b.transport with | some (.mgt _) => true | _ => false) && b.fingerprint == fp

/-- MGT_REQUEST (14 R598). -/
def execMgtRequest (session : BitVec 3) (request : List Byte) (s : State) : Outcome :=
  match Map.get none s.ben.tls session.toNat with
  | none => idle s
  | some fp =>
    match s.mgtMbx fp with
    | none => idle s
    | some m => .next (s.framed m request)

/-- SVC_REQUEST (14 R599): the console serves only mailboxes owned by SERVICE. -/
def execSvcRequest (m : BitVec 5) (request : List Byte) (s : State) : Outcome :=
  let b := s.mbx m
  if b.transport = some .svc ∧ b.owner = whoService then .next (s.framed m request)
  else .next (s.answerAtOnce m request stIdentity)

/-- TLS_SESSION_OPEN (14 R598): a client certificate selects the one mailbox that the session serves; at
most eight sessions are open. -/
def execTlsSessionOpen (session : BitVec 3) (fingerprint : BitVec 384) (s : State) : Outcome :=
  if (Map.get none s.ben.tls session.toNat).isSome || !s.ben.running then idle s
  else
    match s.mgtMbx fingerprint with
    | none => idle s
    | some _ =>
      .next { s with ben := { s.ben with tls := Map.set none s.ben.tls session.toNat (some fingerprint) } }

/-- TLS_IDLE_TIMEOUT (14 R598): a session idle for 300 s is closed. -/
def execTlsIdleTimeout (session : BitVec 3) (s : State) : Outcome :=
  .next { s with ben := { s.ben with tls := Map.set none s.ben.tls session.toNat none } }

end Sys2Proof.Machine
end

