-- ==== Sys2Proof/Machine/Integer.lean ====
section
/-! DEFINITION. Integer, logic, compare, move and tag instructions (03 R122 to R127, 04 R169 to R180) and
the paired words with their short operations (03 R111, R112, R118). -/

namespace Sys2Proof.Machine

/-! ### Paired words (03 R111, R112, R118) -/

/-- What one half of a paired word does. -/
inductive Half where
  | write (d : Reg) (v : TWord)
  | store (n : Reg) (v : TWord)
  | nothing
  | ends
  deriving DecidableEq, Repr

def simm5 (s : Reg) : Word := s.signExtend 32

/-- A frame slot as the strand sees it: its own buffered stores over the frame (03 R107). -/
def State.slotWord (s : State) (c : CellId) (k : SlotId) (f : BitVec 20) (n : BitVec 8) : TWord :=
  match ((s.storesOf c k).filter fun e => e.kind == .slot f n && !e.performed).getLast? with
  | some e => e.val
  | none => Map.get TWord.empty (s.frame f).slots n.toNat

/-- What a strand may not store or send (03 R98, R120 reason 0x07). -/
def storable (t : Slot) (v : TWord) : Except Byte Unit :=
  if v.tag = Tag.empty ∨ v.tag = Tag.defer then .error 0x07
  else if v.tag = Tag.sys ∧ !t.sup then .error 0x04 else .ok ()

/-- The effect of a short operation (03 R118). -/
def State.short (s : State) (c : CellId) (k : SlotId) (t : Slot) (sop : Nat) (d x : Reg) : Except Byte Half :=
  let a := t.g d
  let b := t.g x
  let w (v : Except Byte TWord) : Except Byte Half := v.map (Half.write d)
  match sop with
  | 0 => .ok .nothing
  | 1 => .ok (.write d b)
  | 2 => w (addV false a b)
  | 3 => w (subV false a b)
  | 4 => w (logicV false (· &&& ·) a b)
  | 5 => w (logicV false (· ||| ·) a b)
  | 6 => w (logicV false (· ^^^ ·) a b)
  | 7 => w (if b.tag = Tag.poison then .ok b
            else if b.tag = Tag.int ∨ b.tag = Tag.bool then .ok (TWord.int (~~~b.data)) else .error 0x01)
  | 8 => w (subV false TWord.zero b)
  | 9 => w (addV false a (TWord.int (simm5 x)))
  | 10 => .ok (.write d (TWord.int (simm5 x)))
  | 11 => w (intV false shlW a (TWord.int (x.setWidth 32)))
  | 12 => w (intV false shrW a (TWord.int (x.setWidth 32)))
  | 13 => w (intV false sarW a (TWord.int (x.setWidth 32)))
  | 14 => w (eqV false a b)
  | 15 => w (ltV false a b)
  | 16 => w (ltuV false a b)
  | 17 => w (eqV false a (TWord.int (simm5 x)))
  | 18 => .ok (.write d (s.slotWord c k (frameOf t.act.ctx) (x.setWidth 8)))
  | 19 => (storable t b).map fun _ => .store d b
  | 20 => .ok (.write d (TWord.int (b.tag.setWidth 32)))
  | 21 => w (intV false minW a b)
  | 22 => w (intV false maxW a b)
  | 23 => w (logicV false (· &&& ·) b (TWord.int 0xFF))
  | 24 => w (logicV false (· &&& ·) b (TWord.int 0xFFFF))
  | 25 => .ok .ends
  | 26 => w (logicV false (· &&& ·) a (TWord.int (x.setWidth 32)))
  | 27 => .ok (.write d ⟨Tag.ctx, t.act.ctx⟩)
  | _ => .ok (.write d (TWord.int (t.act.iter.setWidth 32)))

/-- A half's own encoding (03 R112, R118). -/
def halfLegal (sop : Nat) (d x : Reg) : Bool :=
  decide (sop < 29) && (!(sop == 0 || sop == 25) || (d == 0 && x == 0)) && (!(sop == 27 || sop == 28) || x == 0)

/-- Two halves name one destination (03 R112): a register each, or a slot each. -/
def sameDest (s1 : Nat) (d1 : Reg) (s2 : Nat) (d2 : Reg) : Bool :=
  let none_ (n : Nat) : Bool := n == 0 || n == 25
  !none_ s1 && !none_ s2 && (s1 == 19) == (s2 == 19) && d1 == d2

/-- The registers a half reads or writes: S is an immediate or a frame slot in nine of the short operations, and no
operand in four (03 R118). -/
def halfRegs (sop : Nat) (d x : Reg) : List Reg :=
  match sop with
  | 0 | 25 => []
  | 9 | 10 | 11 | 12 | 13 | 17 | 18 | 26 | 27 | 28 => [d]
  | 19 => [x]
  | _ => [d, x]

/-- Take a store-buffer entry for a slot (03 R150): its reserved one, or one of the eight shared. -/
def State.takeStore (s : State) (c : CellId) (k : SlotId) (e : StEnt) : Option State :=
  let buf := (s.cell c).stbuf
  let ownFree := !(buf.any fun y => y.slot == k && !y.shared && y.kind != .side)
  let sharedUsed := (buf.filter fun y => y.shared).length
  if !ownFree && decide (8 ≤ sharedUsed) then none
  else
    let (n, s) := s.fresh
    let e := { e with id := n, slot := k, shared := !ownFree, isSealed := false, sent := false }
    let e := { e with performed := false, ended := false, waited := false }
    some (s.modCell c fun x => { x with stbuf := x.stbuf ++ [e] })

/-- A store entry before it is numbered. -/
def storeEntry (kind : StKind) (addr : Nat) (home : BitVec 4) (cacheable : Bool) (mask : BitVec 4)
    (v : TWord) : StEnt :=
  { id := 0, slot := 0, kind := kind, addr := addr, home := home, cacheable := cacheable, mask := mask
    val := v, isSealed := false, sent := false, performed := false, shared := false, ended := false, waited := false }

/-- Put stores in the store buffer; when an entry is missing the strand takes a commit point and waits
(03 R150). The instruction's own boundary has not passed: its next instruction is itself. -/
def State.bufferStores (s : State) (c : CellId) (k : SlotId) (es : List StEnt) : Option State :=
  match es with
  | [] => some s
  | e :: rest => (s.takeStore c k e).bind fun s => State.bufferStores s c k rest

/-- A store that found no entry: a commit point before the store (03 R150, 13 R535), which then waits to issue. -/
def State.storeWaits (s : State) (c : CellId) (k : SlotId) : State :=
  let t := s.slot c k
  if t.allWritten ∧ (s.storesOf c k).any (fun e => !e.isSealed) then
    if s.awaitsTwin c k then s.waitTwin c k else (s.commitPoint c k t.pc).waitOperand c k
  else s.waitOperand c k

/-- A strand reaches its end (03 R131): the firing commits next. -/
def State.endStrand (s : State) (i : Iss) (len : Nat) : State :=
  s.modSlot i.cell i.slot fun t => { t with state := .commit, pc := t.pc + BitVec.ofNat 32 len }

/-- Perform the effects of both halves, whose sources were all read before (03 R111). -/
def State.pairDo (s : State) (i : Iss) (t : Slot) (h1 h2 : Half) : Act :=
  let f := frameOf t.act.ctx
  let wr : Half → List (Reg × TWord)
    | .write d v => [(d, v)]
    | _ => []
  let st : Half → List StEnt
    | .store n v => [storeEntry (.slot f (n.setWidth 8)) 0 0 false 0 v]
    | _ => []
  match s.bufferStores i.cell i.slot (st h1 ++ st h2) with
  | none => .waits (s.storeWaits i.cell i.slot)
  | some s =>
    let s := s.modSlot i.cell i.slot fun t => t.setGs (wr h1 ++ wr h2)
    let s := s.pmc i.cell (some t.sup) 0x03
    if h1 = .ends ∨ h2 = .ends then .done (s.endStrand i 1) else .done (s.finish i 1 [])

/-- Issue a paired word (03 R111, R112), given one half with its short operation; the other half is
decoded from its 15 bits. Both read before either writes. When both halves raise an event, the upper
half's is raised (DEDUCED, assumption 10). -/
def State.pair (s : State) (i : Iss) (sop : Nat) (p : PairOp) : Outcome :=
  let o : BitVec 15 := p.other
  let osop := (o >>> 10).toNat
  let od : Reg := (o >>> 5).setWidth 5
  let ox : Reg := o.setWidth 5
  let legal := !p.bit15 && halfLegal sop p.d p.s && halfLegal osop od ox && !sameDest sop p.d osop od
  s.issue i 1 legal false (halfRegs sop p.d p.s ++ halfRegs osop od ox) fun s t =>
    let me := s.short i.cell i.slot t sop p.d p.s
    let other := s.short i.cell i.slot t osop od ox
    let (up, lo) := if p.upper then (me, other) else (other, me)
    match up, lo with
    | .error r, _ => .event (tagEv r) s
    | _, .error r => .event (tagEv r) s
    | .ok h1, .ok h2 => s.pairDo i t h1 h2

/-! ### Long operations -/

/-- A long operation of majors 0x01 to 0x06 that computes one value from A and B or the immediate. -/
def State.aluLong (s : State) (i : Iss) (x : LongOp) (l : Layout) (uOk : Bool)
    (f : Slot → TWord → TWord → Except Byte TWord) : Outcome :=
  s.issue i x.len (x.legal l uOk true) false x.regs fun s t =>
    s.compute i x.len x.pre x.d t.sup (f t (t.g x.a) (x.opB t))

/-- Either form of an operation with a short counterpart. -/
def State.aluForm (s : State) (i : Iss) (x : Form) (sop : Nat) (uOk : Bool)
    (f : Bool → TWord → TWord → Except Byte TWord) : Outcome :=
  match x with
  | .long x => s.aluLong i x .both uOk fun _ a b => f x.u a b
  | .short p => s.pair i sop p

/-- ADD (03 R122). -/
def execAdd (i : Iss) (f : Form) (s : State) : Outcome := s.aluForm i f 2 true addV
/-- SUB (03 R122). -/
def execSub (i : Iss) (f : Form) (s : State) : Outcome := s.aluForm i f 3 true subV
/-- AND (03 R123). -/
def execAnd (i : Iss) (f : Form) (s : State) : Outcome := s.aluForm i f 4 true fun u => logicV u (· &&& ·)
/-- OR (03 R123). -/
def execOr (i : Iss) (f : Form) (s : State) : Outcome := s.aluForm i f 5 true fun u => logicV u (· ||| ·)
/-- XOR (03 R123). -/
def execXor (i : Iss) (f : Form) (s : State) : Outcome := s.aluForm i f 6 true fun u => logicV u (· ^^^ ·)
/-- ANDN (03 R123). -/
def execAndn (i : Iss) (x : LongOp) (s : State) : Outcome :=
  s.aluLong i x .both true fun _ a b => logicV x.u andnW a b
/-- MIN (03 R124). -/
def execMin (i : Iss) (f : Form) (s : State) : Outcome := s.aluForm i f 21 true fun u => intV u minW
/-- MAX (03 R124). -/
def execMax (i : Iss) (f : Form) (s : State) : Outcome := s.aluForm i f 22 true fun u => intV u maxW
/-- SHL (03 R124). -/
def execShl (i : Iss) (x : LongOp) (s : State) : Outcome := s.aluLong i x .both true fun _ a b => intV x.u shlW a b
/-- SHR (03 R124). -/
def execShr (i : Iss) (x : LongOp) (s : State) : Outcome := s.aluLong i x .both true fun _ a b => intV x.u shrW a b
/-- SAR (03 R124). -/
def execSar (i : Iss) (x : LongOp) (s : State) : Outcome := s.aluLong i x .both true fun _ a b => intV x.u sarW a b
/-- ROL (03 R117, R124). -/
def execRol (i : Iss) (x : LongOp) (s : State) : Outcome := s.aluLong i x .both true fun _ a b => intV x.u rolW a b
/-- ROT, rotate right (03 R117, R124). -/
def execRot (i : Iss) (x : LongOp) (s : State) : Outcome := s.aluLong i x .both true fun _ a b => intV x.u rotW a b
/-- CLZ (03 R124). -/
def execClz (i : Iss) (x : LongOp) (s : State) : Outcome :=
  s.aluLong i x .both true fun _ a _ => unaryInt x.u (fun w => BitVec.ofNat 32 (clz32 w)) a
/-- CTZ (03 R124). -/
def execCtz (i : Iss) (x : LongOp) (s : State) : Outcome :=
  s.aluLong i x .both true fun _ a _ => unaryInt x.u (fun w => BitVec.ofNat 32 (ctz32 w)) a
/-- POPC (03 R124). -/
def execPopc (i : Iss) (x : LongOp) (s : State) : Outcome :=
  s.aluLong i x .both true fun _ a _ => unaryInt x.u (fun w => BitVec.ofNat 32 (popc32 w)) a

/-- EQ (03 R125). -/
def execEq (i : Iss) (f : Form) (s : State) : Outcome := s.aluForm i f 14 true eqV
/-- NE (03 R125). -/
def execNe (i : Iss) (x : LongOp) (s : State) : Outcome :=
  s.aluLong i x .both true fun _ a b => compareOp x.u false (· != ·) a b
/-- LT (03 R125). -/
def execLt (i : Iss) (f : Form) (s : State) : Outcome := s.aluForm i f 15 true ltV
/-- LE (03 R125). -/
def execLe (i : Iss) (x : LongOp) (s : State) : Outcome :=
  s.aluLong i x .both true fun _ a b => compareOp x.u true BitVec.sle a b
/-- LTU (03 R125). -/
def execLtu (i : Iss) (f : Form) (s : State) : Outcome := s.aluForm i f 16 true ltuV
/-- LEU (03 R125). -/
def execLeu (i : Iss) (x : LongOp) (s : State) : Outcome :=
  s.aluLong i x .both true fun _ a b => compareOp x.u true BitVec.ule a b

/-- LI (03 R126): its layout is LI, which alone has the immediate (DEDUCED, assumption 9). -/
def execLi (i : Iss) (x : LongOp) (s : State) : Outcome :=
  s.issue i x.len (x.legal .li false true) false [x.d] fun s t =>
    s.compute i x.len x.pre x.d t.sup (.ok (TWord.int x.imm))
/-- MOV (03 R126). -/
def execMov (i : Iss) (f : Form) (s : State) : Outcome :=
  match f with
  | .long x => s.aluLong i x .both false fun _ a _ => .ok a
  | .short p => s.pair i 1 p
/-- SEL (03 R95, R126). -/
def execSel (i : Iss) (x : LongOp) (s : State) : Outcome :=
  s.aluLong i x .both false fun t a b =>
    let d := t.g x.d
    if d.tag = Tag.poison then .error 0x05
    else if d.tag ≠ Tag.bool then .error 0x01
    else .ok (if d.data = 0 then b else a)
/-- SELF (03 R126). -/
def execSelf (i : Iss) (f : Form) (s : State) : Outcome :=
  match f with
  | .long x => s.aluLong i x .both false fun t _ _ => .ok ⟨Tag.ctx, t.act.ctx⟩
  | .short p => s.pair i 27 p
/-- ITER (03 R126). -/
def execIter (i : Iss) (f : Form) (s : State) : Outcome :=
  match f with
  | .long x => s.aluLong i x .both false fun t _ _ => .ok (TWord.int (t.act.iter.setWidth 32))
  | .short p => s.pair i 28 p

/-- TAGOF (03 R95, R127). -/
def execTagof (i : Iss) (f : Form) (s : State) : Outcome :=
  match f with
  | .long x => s.aluLong i x .both false fun _ a _ => .ok (TWord.int (a.tag.setWidth 32))
  | .short p => s.pair i 20 p
/-- TTEST (03 R95, R127): the tag to test is in the second operand's bits [3:0]. -/
def execTtest (i : Iss) (x : LongOp) (s : State) : Outcome :=
  s.aluLong i x .both false fun _ a b => .ok (TWord.bool (a.tag == b.data.setWidth 4))
/-- RETAG (03 R94, R97, R127): a POISON B names no tag, and gives a POISON result too. -/
def execRetag (i : Iss) (x : LongOp) (s : State) : Outcome :=
  s.aluLong i x .both false fun t a b =>
    if b.tag = Tag.poison then .ok (if a.tag = Tag.poison then a else b) else retagV t.sup (b.data.setWidth 4) a

/-- ILL: a word of major 0x00, of a reserved MAJOR, FN or SOP, or a prefix word that no instruction follows, is an
illegal encoding (03 R109, R117, R118). A word that spells an operation is that operation's command. -/
def execIll (i : Iss) (w : Word) (s : State) : Outcome :=
  if noOperation w then s.issue i 1 false false [] fun s _ => .done s else idle s

/-- NOP (03 R118). -/
def execNop (i : Iss) (p : PairOp) (s : State) : Outcome := s.pair i 0 p
/-- NOT (03 R118, R123). -/
def execNot (i : Iss) (p : PairOp) (s : State) : Outcome := s.pair i 7 p
/-- NEG (03 R118). -/
def execNeg (i : Iss) (p : PairOp) (s : State) : Outcome := s.pair i 8 p
/-- ADDI (03 R118). -/
def execAddi (i : Iss) (p : PairOp) (s : State) : Outcome := s.pair i 9 p
/-- LI5 (03 R118). -/
def execLi5 (i : Iss) (p : PairOp) (s : State) : Outcome := s.pair i 10 p
/-- SHLI (03 R118). -/
def execShli (i : Iss) (p : PairOp) (s : State) : Outcome := s.pair i 11 p
/-- SHRI (03 R118). -/
def execShri (i : Iss) (p : PairOp) (s : State) : Outcome := s.pair i 12 p
/-- SARI (03 R118). -/
def execSari (i : Iss) (p : PairOp) (s : State) : Outcome := s.pair i 13 p
/-- EQI (03 R118). -/
def execEqi (i : Iss) (p : PairOp) (s : State) : Outcome := s.pair i 17 p
/-- ZXB (03 R118). -/
def execZxb (i : Iss) (p : PairOp) (s : State) : Outcome := s.pair i 23 p
/-- ZXH (03 R118). -/
def execZxh (i : Iss) (p : PairOp) (s : State) : Outcome := s.pair i 24 p
/-- ANDI (03 R118). -/
def execAndi (i : Iss) (p : PairOp) (s : State) : Outcome := s.pair i 26 p

/-! ### Multiply and divide (04 R169 to R180) -/

/-- The unit an iterative operation holds (04 R169): told by its cycle's place, the unit's number. -/
def unitBusy (s : State) (c : CellId) (k : SlotId) (unit : Nat) : Bool :=
  allSlots.any fun j => j != k && (match (s.slot c j).iter with | some o => o.unit == unit | none => false)

/-- Begin an iterative operation (04 R170): its result is written when it completes. -/
def State.startIter (s : State) (i : Iss) (len unit : Nat) (ws : List (Reg × TWord)) (flags : BitVec 5)
    (trap : Option Word) (cycles : Nat) : Act :=
  if unitBusy s i.cell i.slot unit then .waits (s.waitOperand i.cell i.slot)
  else
    .done (s.modSlot i.cell i.slot fun t =>
      { t with iter := some { pc := t.pc, unit := unit, writes := ws, flags := flags, trap := trap
                              cycles := cycles }
               pc := t.pc + BitVec.ofNat 32 len })

/-- An integer multiply or divide (03 R99, R113, R124; 04 R171, R175): PFX.TAG sets the tag of its result. -/
def State.iterLong (s : State) (i : Iss) (x : LongOp) (unit : Nat) (f : Word → Word → Word)
    (cycles : Word → Word → Nat) : Outcome :=
  s.issue i x.len (x.legal .lr true true) false x.regs fun s t =>
    let a := t.g x.a
    let b := t.g x.b
    match (intV x.u f a b).bind (tagged x.pre t.sup) with
    | .error r => .event (tagEv r) s
    | .ok v => s.startIter i x.len unit [(x.d, v)] 0 none (cycles a.data b.data)

/-- MUL (04 R171, R173). -/
def execMul (i : Iss) (x : LongOp) (s : State) : Outcome := s.iterLong i x 0 (· * ·) fun _ b => mulCycles b
/-- MULH (04 R171, R173). -/
def execMulh (i : Iss) (x : LongOp) (s : State) : Outcome := s.iterLong i x 0 mulhS fun _ b => mulCycles b
/-- MULHU (04 R171, R173). -/
def execMulhu (i : Iss) (x : LongOp) (s : State) : Outcome := s.iterLong i x 0 mulhU fun _ b => mulhuCycles b
/-- DIV (04 R174, R175). -/
def execDiv (i : Iss) (x : LongOp) (s : State) : Outcome := s.iterLong i x 1 divS (divCycles true)
/-- DIVU (04 R174, R175). -/
def execDivu (i : Iss) (x : LongOp) (s : State) : Outcome := s.iterLong i x 1 divU (divCycles false)
/-- REM (04 R174, R175). -/
def execRem (i : Iss) (x : LongOp) (s : State) : Outcome := s.iterLong i x 1 remS (divCycles true)
/-- REMU (04 R174, R175). -/
def execRemu (i : Iss) (x : LongOp) (s : State) : Outcome := s.iterLong i x 1 remU (divCycles false)

/-- The slots of a cell that wait for a unit try again once an operation has left it. -/
def State.unitFree (s : State) (c : CellId) : State :=
  s.each allSlots fun s k => s.modSlot c k fun t => { t with wait := t.wait.hasOperand }

/-- The mark of an abandoned operation goes once that operation, at `pc`, has completed (04 R180). -/
def Slot.resumed (t : Slot) (pc : Word) : Slot :=
  if t.abandoned = some pc then { t with abandoned := none, noSlice := false } else t

/-- ITERATIVE_COMPLETE (04 R170, R179, R180; 05 R226, R229; 03 R188): the operation writes its result
and flags, or raises its trap. In stall mode a machine check or debug event that is due is taken first,
and an operation with an enabled trap is then abandoned; a time slice waits behind the trap. -/
def execIterativeComplete (cell : CellId) (slot : SlotId) (s : State) : Outcome :=
  let t := s.slot cell slot
  match t.iter with
  | none => idle s
  | some o =>
    match o.trap with
    | none =>
      let s := s.modSlot cell slot fun t =>
        ({ (t.setGs o.writes) with fpf := t.fpf ||| o.flags, iter := none } : Slot).resumed o.pc
      .next ((s.unitFree cell).sampled cell slot)
    | some w =>
      if t.state ≠ .handler ∧ (t.dueMc.isSome ∨ t.dueDbg.isSome) then
        let s := (s.modSlot cell slot fun t => { t with iter := none, abandoned := some o.pc, pc := o.pc }).bump
          (clcCell cell 0xA40)
        .next (((s.unitFree cell).pmc cell (some t.sup) 0x22).sampled cell slot)
      else
        let s := s.modSlot cell slot fun t =>
          ({ t with iter := none, pc := o.pc } : Slot).resumed o.pc
        .next ((s.unitFree cell).raise cell slot (fpEv w))

end Sys2Proof.Machine
end

