-- ==== Sys2Proof/Machine/Floating.lean ====
section
/-! DEFINITION. Floating-point instructions (03 R128, R105, R110; 04 R185 to R205): operand tags, POISON,
flags and traps around the arithmetic of Flags.lean. -/

namespace Sys2Proof.Machine

/-- The kinds of operand and result: a binary32 register, a binary64 pair, an INT register, a BOOL. -/
inductive FK where
  | s
  | d
  | int
  | bool
  deriving DecidableEq, Repr

/-- The second register of a pair. -/
def pairOf (r : Reg) : Reg := r + 1

/-- A register field that a kind allows (03 R105): a binary64 field names an even register. -/
def FK.fits (k : FK) (r : Reg) : Bool := k != .d || !r.getLsbD 0

/-- The words of an operand. -/
def Slot.fwords (t : Slot) (k : FK) (r : Reg) : List TWord := if k = .d then [t.g r, t.g (pairOf r)] else [t.g r]

/-- The value of an operand, or none where its tags are not the kind's (03 R105, R128). -/
def Slot.fval (t : Slot) (k : FK) (r : Reg) : Option Nat :=
  let a := t.g r
  match k with
  | .s => if a.tag = Tag.f32 then some a.data.toNat else none
  | .int => if a.tag = Tag.int then some a.data.toNat else none
  | .bool => none
  | .d =>
    let b := t.g (pairOf r)
    if a.tag = Tag.f64h ∧ b.tag = Tag.f64l then some (a.data.toNat * 2 ^ 32 + b.data.toNat) else none

/-- The registers that a result of a kind writes. -/
def fresult (k : FK) (r : Reg) (v : Nat) : List (Reg × TWord) :=
  match k with
  | .s => [(r, ⟨Tag.f32, BitVec.ofNat 32 v⟩)]
  | .d => [(r, ⟨Tag.f64h, BitVec.ofNat 32 (v / 2 ^ 32)⟩), (pairOf r, ⟨Tag.f64l, BitVec.ofNat 32 v⟩)]
  | .int => [(r, TWord.int (BitVec.ofNat 32 v))]
  | .bool => [(r, TWord.bool (v != 0))]

/-- A POISON result (03 R94, 04 R190): every register of the result holds it. -/
def fpoison (k : FK) (r : Reg) (p : TWord) : List (Reg × TWord) :=
  if k = .d then [(r, p), (pairOf r, p)] else [(r, p)]

/-- The registers an operand or a result of a kind names. -/
def fregs (k : FK) (r : Reg) : List Reg := if k = .d then [r, pairOf r] else [r]

/-- The control an operation runs under (03 R106, R110; 04 R186, R189). -/
def Slot.fctl (t : Slot) (rm : BitVec 3) : FCtl :=
  { rm := if rm = 0 then t.fpc.setWidth 2 else rm.setWidth 2, ftz := t.fpc.getLsbD 2, utrap := t.fpc.getLsbD 6 }

/-- The trap enables (03 R106). -/
def Slot.enables (t : Slot) : FFlags := (t.fpc >>> 3).setWidth 5

/-- A floating-point instruction: `ks` names its operands in the order A, B, D, `r` its result; `f` computes
the result from their values. A POISON operand gives POISON with no flag; an enabled flag traps. -/
def State.fpOp (s : State) (i : Iss) (x : LongOp) (ks : List (FK × Reg)) (r : FK) (iter : Option Nat)
    (f : FCtl → List Nat → FRes) : Outcome :=
  let legal := x.legal .lr false false && ks.all (fun y => y.1.fits y.2) && r.fits x.d
  let uses := (ks.map fun y => fregs y.1 y.2).flatten ++ fregs r x.d
  s.issue i x.len legal false uses fun s t =>
    let s := s.pmc i.cell (some t.sup) 0x20
    let finish (ws : List (Reg × TWord)) (flags : FFlags) (trap : Option Word) : Act :=
      match iter with
      | some n => s.startIter i x.len 2 ws flags trap n
      | none =>
        match trap with
        | some w => .event (fpEv w) s
        | none => .done ((s.finish i x.len ws).modSlot i.cell i.slot fun t => { t with fpf := t.fpf ||| flags })
    match poisonOf ((ks.map fun y => t.fwords y.1 y.2).flatten) with
    | some p => finish (fpoison r x.d p) 0 none
    | none =>
      match ks.mapM fun y => t.fval y.1 y.2 with
      | none => .event (tagEv 0x01) s
      | some vs =>
        let o := f (t.fctl x.rm) vs
        finish (fresult r x.d o.bits) o.flags (fpTrapInfo t.enables o.flags)

/-- Operations of two operands, one operand, and A × B + D. -/
def two (f : Nat → Nat → FRes) (vs : List Nat) : FRes := f (vs.getD 0 0) (vs.getD 1 0)
def one (f : Nat → FRes) (vs : List Nat) : FRes := f (vs.getD 0 0)
def three (f : Nat → Nat → Nat → FRes) (vs : List Nat) : FRes := f (vs.getD 0 0) (vs.getD 1 0) (vs.getD 2 0)


/-- A comparison's BOOL and flags as a result. -/
def cmpRes (r : Bool × FFlags) : FRes := { bits := if r.1 then 1 else 0, flags := r.2 }
/-- An INT and flags as a result. -/
def intRes (r : Word × FFlags) : FRes := { bits := r.1.toNat, flags := r.2 }

def intLt (a b : Int) : Bool := decide (a < b)
def intLe (a b : Int) : Bool := decide (a ≤ b)
def intEq (a b : Int) : Bool := a == b

/-- FADD.S (04 R196). -/
def execFaddS (i : Iss) (x : LongOp) (s : State) : Outcome :=
  s.fpOp i x [(.s, x.a), (.s, x.b)] .s none fun c => two (binary32.add c)
/-- FSUB.S (04 R187, R196). -/
def execFsubS (i : Iss) (x : LongOp) (s : State) : Outcome :=
  s.fpOp i x [(.s, x.a), (.s, x.b)] .s none fun c => two (binary32.sub c)
/-- FMUL.S (04 R197). -/
def execFmulS (i : Iss) (x : LongOp) (s : State) : Outcome :=
  s.fpOp i x [(.s, x.a), (.s, x.b)] .s none fun c => two (binary32.mul c)
/-- FMA.S (03 R128, 04 R198). -/
def execFmaS (i : Iss) (x : LongOp) (s : State) : Outcome :=
  s.fpOp i x [(.s, x.a), (.s, x.b), (.s, x.d)] .s none fun c => three (binary32.fma c)
/-- FDIV.S (04 R193, R199). -/
def execFdivS (i : Iss) (x : LongOp) (s : State) : Outcome :=
  s.fpOp i x [(.s, x.a), (.s, x.b)] .s (some 12) fun c => two (binary32.div c)
/-- FSQRT.S (04 R193, R200). -/
def execFsqrtS (i : Iss) (x : LongOp) (s : State) : Outcome :=
  s.fpOp i x [(.s, x.a)] .s (some 12) fun c => one (binary32.sqrt c)
/-- FMIN.S (04 R194, R201). -/
def execFminS (i : Iss) (x : LongOp) (s : State) : Outcome :=
  s.fpOp i x [(.s, x.a), (.s, x.b)] .s none fun _ => two (binary32.minmax false)
/-- FMAX.S (04 R194, R201). -/
def execFmaxS (i : Iss) (x : LongOp) (s : State) : Outcome :=
  s.fpOp i x [(.s, x.a), (.s, x.b)] .s none fun _ => two (binary32.minmax true)

/-- FADD.D (04 R196). -/
def execFaddD (i : Iss) (x : LongOp) (s : State) : Outcome :=
  s.fpOp i x [(.d, x.a), (.d, x.b)] .d none fun c => two (binary64.add c)
/-- FSUB.D (04 R187, R196). -/
def execFsubD (i : Iss) (x : LongOp) (s : State) : Outcome :=
  s.fpOp i x [(.d, x.a), (.d, x.b)] .d none fun c => two (binary64.sub c)
/-- FMUL.D (04 R197). -/
def execFmulD (i : Iss) (x : LongOp) (s : State) : Outcome :=
  s.fpOp i x [(.d, x.a), (.d, x.b)] .d none fun c => two (binary64.mul c)
/-- FMA.D (03 R128, 04 R198). -/
def execFmaD (i : Iss) (x : LongOp) (s : State) : Outcome :=
  s.fpOp i x [(.d, x.a), (.d, x.b), (.d, x.d)] .d none fun c => three (binary64.fma c)
/-- FDIV.D (04 R193, R199). -/
def execFdivD (i : Iss) (x : LongOp) (s : State) : Outcome :=
  s.fpOp i x [(.d, x.a), (.d, x.b)] .d (some 24) fun c => two (binary64.div c)
/-- FSQRT.D (04 R193, R200). -/
def execFsqrtD (i : Iss) (x : LongOp) (s : State) : Outcome :=
  s.fpOp i x [(.d, x.a)] .d (some 24) fun c => one (binary64.sqrt c)
/-- FMIN.D (04 R194, R201). -/
def execFminD (i : Iss) (x : LongOp) (s : State) : Outcome :=
  s.fpOp i x [(.d, x.a), (.d, x.b)] .d none fun _ => two (binary64.minmax false)
/-- FMAX.D (04 R194, R201). -/
def execFmaxD (i : Iss) (x : LongOp) (s : State) : Outcome :=
  s.fpOp i x [(.d, x.a), (.d, x.b)] .d none fun _ => two (binary64.minmax true)

/-- FEQ.S (04 R194). -/
def execFeqS (i : Iss) (x : LongOp) (s : State) : Outcome :=
  s.fpOp i x [(.s, x.a), (.s, x.b)] .bool none fun _ => two fun a b => cmpRes (binary32.cmp true intEq a b)
/-- FLT.S (04 R194). -/
def execFltS (i : Iss) (x : LongOp) (s : State) : Outcome :=
  s.fpOp i x [(.s, x.a), (.s, x.b)] .bool none fun _ => two fun a b => cmpRes (binary32.cmp false intLt a b)
/-- FLE.S (04 R194). -/
def execFleS (i : Iss) (x : LongOp) (s : State) : Outcome :=
  s.fpOp i x [(.s, x.a), (.s, x.b)] .bool none fun _ => two fun a b => cmpRes (binary32.cmp false intLe a b)
/-- FUN.S (04 R194). -/
def execFunS (i : Iss) (x : LongOp) (s : State) : Outcome :=
  s.fpOp i x [(.s, x.a), (.s, x.b)] .bool none fun _ => two fun a b => cmpRes (binary32.unordered a b)
/-- FEQ.D (04 R194). -/
def execFeqD (i : Iss) (x : LongOp) (s : State) : Outcome :=
  s.fpOp i x [(.d, x.a), (.d, x.b)] .bool none fun _ => two fun a b => cmpRes (binary64.cmp true intEq a b)
/-- FLT.D (04 R194). -/
def execFltD (i : Iss) (x : LongOp) (s : State) : Outcome :=
  s.fpOp i x [(.d, x.a), (.d, x.b)] .bool none fun _ => two fun a b => cmpRes (binary64.cmp false intLt a b)
/-- FLE.D (04 R194). -/
def execFleD (i : Iss) (x : LongOp) (s : State) : Outcome :=
  s.fpOp i x [(.d, x.a), (.d, x.b)] .bool none fun _ => two fun a b => cmpRes (binary64.cmp false intLe a b)
/-- FUN.D (04 R194). -/
def execFunD (i : Iss) (x : LongOp) (s : State) : Outcome :=
  s.fpOp i x [(.d, x.a), (.d, x.b)] .bool none fun _ => two fun a b => cmpRes (binary64.unordered a b)

/-- CVT.S.I: INT to binary32 (04 R202). -/
def execCvtSI (i : Iss) (x : LongOp) (s : State) : Outcome :=
  s.fpOp i x [(.int, x.a)] .s none fun c => one fun a => binary32.ofInt c (BitVec.ofNat 32 a)
/-- CVT.I.S: binary32 to INT (04 R195, R202). -/
def execCvtIS (i : Iss) (x : LongOp) (s : State) : Outcome :=
  s.fpOp i x [(.s, x.a)] .int none fun c => one fun a => intRes (binary32.toInt c.rm a)
/-- CVT.D.I: INT to binary64 (04 R202). -/
def execCvtDI (i : Iss) (x : LongOp) (s : State) : Outcome :=
  s.fpOp i x [(.int, x.a)] .d none fun c => one fun a => binary64.ofInt c (BitVec.ofNat 32 a)
/-- CVT.I.D: binary64 to INT (04 R195, R202). -/
def execCvtID (i : Iss) (x : LongOp) (s : State) : Outcome :=
  s.fpOp i x [(.d, x.a)] .int none fun c => one fun a => intRes (binary64.toInt c.rm a)
/-- CVT.S.D: binary64 to binary32 (04 R187, R202). -/
def execCvtSD (i : Iss) (x : LongOp) (s : State) : Outcome :=
  s.fpOp i x [(.d, x.a)] .s none fun c => one fun a => binary64.convert binary32 c a
/-- CVT.D.S: binary32 to binary64 (04 R187, R202). -/
def execCvtDS (i : Iss) (x : LongOp) (s : State) : Outcome :=
  s.fpOp i x [(.s, x.a)] .d none fun c => one fun a => binary32.convert binary64 c a
/-- FCLASS.S (04 R195). -/
def execFclassS (i : Iss) (x : LongOp) (s : State) : Outcome :=
  s.fpOp i x [(.s, x.a)] .int none fun _ => one fun a => intRes (binary32.classMask a, 0)
/-- FCLASS.D (04 R195). -/
def execFclassD (i : Iss) (x : LongOp) (s : State) : Outcome :=
  s.fpOp i x [(.d, x.a)] .int none fun _ => one fun a => intRes (binary64.classMask a, 0)

end Sys2Proof.Machine
end

