-- ==== Sys2Proof/Machine/Control.lean ====
section
/-! DEFINITION. Branches, the end of a strand, tokens, windows, time and the strand state registers
(03 R129 to R137, R143, R161, R162, R167; 05 R233). -/

namespace Sys2Proof.Machine

/-! ### Branches (03 R129, R130) -/

/-- Go on at an address. -/
def State.jump (s : State) (i : Iss) (target : Word) : Act :=
  .done (s.modSlot i.cell i.slot fun t => { t with pc := target })

/-- B (03 R130). -/
def execB (i : Iss) (x : LongOp) (s : State) : Outcome :=
  s.issue i x.len (x.legal .li false false) false [] fun s t => s.jump i (t.pc + x.imm)

/-- BZ and BNZ (03 R96, R129, R130): `onZero` tells which. Where the branch is not taken its target has been fetched all
the same (05 R216). -/
def State.branch (s : State) (i : Iss) (x : LongOp) (onZero : Bool) : Outcome :=
  s.issue i x.len (x.legal .li false false) false [x.d] fun s t =>
    let v := t.g x.d
    if v.tag = Tag.poison then .event (tagEv 0x05) s
    else if v.tag ≠ Tag.int ∧ v.tag ≠ Tag.bool then .event (tagEv 0x01) s
    else if (v.data == 0) == onZero then s.jump i (t.pc + x.imm)
    else .done ((s.fetchAhead i.cell i.slot (t.pc + x.imm)).finish i x.len [])

/-- BZ (03 R129, R130). -/
def execBz (i : Iss) (x : LongOp) (s : State) : Outcome := s.branch i x true
/-- BNZ (03 R129, R130). -/
def execBnz (i : Iss) (x : LongOp) (s : State) : Outcome := s.branch i x false

/-- JR (03 R96, R130). -/
def execJr (i : Iss) (x : LongOp) (s : State) : Outcome :=
  s.issue i x.len (x.legal .lr false false) false [x.a] fun s t =>
    let v := t.g x.a
    if v.tag = Tag.poison then .event (tagEv 0x05) s
    else if v.tag ≠ Tag.code then .event (tagEv 0x01) s
    else s.jump i v.data

/-- END (03 R131). -/
def execEndStrand (i : Iss) (f : Form) (s : State) : Outcome :=
  match f with
  | .long x => s.issue i x.len (x.legal .lr false false) false [] fun s _ => .done (s.endStrand i x.len)
  | .short p => s.pair i 25 p

/-! ### Tokens (03 R133 to R137) -/

/-- A context operand (03 R96, R104, R133): g0 names the own context where `self` allows it. -/
def ctxOperand (t : Slot) (r : Reg) (self : Bool) : Except Byte Word :=
  if r = 0 ∧ self then .ok t.act.ctx
  else
    let v := t.g r
    if v.tag = Tag.poison then .error 0x05
    else if v.tag ≠ Tag.ctx then .error 0x01
    else .ok v.data

/-- Add one commit item to the send list (02 R49, 03 R133): a 65th is a tag event. -/
def Slot.addItem (t : Slot) (it : Item) : Except Byte Slot :=
  if 64 ≤ t.items then .error 0x0B else .ok { t with items := t.items + 1, sends := t.sends ++ [it] }

/-- The token that SEND forms (02 R38, R40; 03 R133). -/
def State.formToken (s : State) (t : Slot) (dest : Word) (stmt : BitVec 16) (x : LsOp) (sid : BitVec 16) :
    Token :=
  let flags := if (s.frame (frameOf t.act.ctx)).tracing then flTrace else 0
  mkToken dest stmt (iterOf t x.itm) x.port flags sid (t.g x.v)

/-- The checks of SEND from the destination on, and the item (03 R133). -/
def State.sendTo (s : State) (i : Iss) (x : LsOp) (t : Slot) (ends : Bool) (dest : Except Byte Word)
    (stmt : BitVec 16) (sid : BitVec 16) : Act :=
  let r : Except Byte Slot := do
    let d ← dest
    if isNullCtx d then throw 0x0F
    storable t (t.g x.v)
    t.addItem (.token (s.formToken t d stmt x sid))
  match r with
  | .error e => .event (tagEv e) s
  | .ok t =>
    let s := s.setSlot i.cell i.slot t
    .done (if ends then s.endStrand i x.len else s.finish i x.len [])

/-- SEND and SEND.E. -/
def State.sendOp (s : State) (i : Iss) (x : LsOp) (ends : Bool) : Outcome :=
  s.issue i x.len x.legal false [x.v, x.c] fun s t =>
    s.sendTo i x t ends (ctxOperand t x.c true) x.statement t.sid

/-- SWITCH and SWITCH.E (03 R135). -/
def State.switchOp (s : State) (i : Iss) (x : LsOp) (ends : Bool) : Outcome :=
  s.issue i x.len x.legal false [x.v, x.c] fun s t =>
    let p := t.g x.c
    if p.tag = Tag.poison then .event (tagEv 0x05) s
    else if p.tag ≠ Tag.bool then .event (tagEv 0x01) s
    else s.sendTo i x t ends (.ok t.act.ctx) (if p.data = 0 then x.statement + 1 else x.statement) t.sid

/-- SENDX and SENDX.E (03 R137). -/
def State.sendxOp (s : State) (i : Iss) (x : LsOp) (ends : Bool) : Outcome :=
  s.issue i x.len x.legal true [x.v, x.c] fun s t =>
    s.sendTo i x t ends (ctxOperand t x.c false) x.statement t.xsid

/-- SEND (03 R133). -/
def execSend (i : Iss) (x : LsOp) (s : State) : Outcome := s.sendOp i x false
/-- SEND.E (03 R131, R133). -/
def execSendE (i : Iss) (x : LsOp) (s : State) : Outcome := s.sendOp i x true
/-- SWITCH (03 R135). -/
def execSwitch (i : Iss) (x : LsOp) (s : State) : Outcome := s.switchOp i x false
/-- SWITCH.E (03 R131, R135). -/
def execSwitchE (i : Iss) (x : LsOp) (s : State) : Outcome := s.switchOp i x true
/-- SENDX (02 R40, 03 R137). -/
def execSendx (i : Iss) (x : LsOp) (s : State) : Outcome := s.sendxOp i x false
/-- SENDX.E (03 R131, R137). -/
def execSendxE (i : Iss) (x : LsOp) (s : State) : Outcome := s.sendxOp i x true

/-! ### Windows (03 R143, 02 R69) -/

/-- An INT operand (03 R96): POISON is reason 0x05, any other tag 0x01. R96 lists the operands that raise 0x05; values,
selectors, queue numbers and register numbers (R143, R144, R161, R162, R167), which it does not list, are taken alike
(DESIGN CHOICE, assumption 120). -/
def intOperand (v : TWord) : Except Byte Word :=
  if v.tag = Tag.poison then .error 0x05 else if v.tag ≠ Tag.int then .error 0x01 else .ok v.data

/-- WINSET (03 R143): it takes effect at commit. -/
def execWinset (i : Iss) (x : LongOp) (s : State) : Outcome :=
  s.issue i x.len (x.legal .lr false false) false [x.a] fun s t =>
    match intOperand (t.g x.a) with
    | .error r => .event (tagEv r) s
    | .ok v =>
      if 512 < v.toNat then .event (tagEv 0x0F) s
      else
        .done ((s.modSlot i.cell i.slot fun t => { t with wins := t.wins ++ [.winset (v.setWidth 10)] }).finish
          i x.len [])

/-- IRETIRE (02 R69, 03 R143): the event is decided here, the bit set at commit. An operand outside 0 to
4,095 names the iteration of its low 12 bits (DEDUCED from the mod 4,096 of R69). -/
def execIretire (i : Iss) (x : LongOp) (s : State) : Outcome :=
  s.issue i x.len (x.legal .lr false false) false [x.a] fun s t =>
    match intOperand (t.g x.a) with
    | .error r => .event (tagEv r) s
    | .ok v =>
      let d := (s.frame (frameOf t.act.ctx)).distance (v.setWidth 12)
      if 512 ≤ d ∧ d < 1024 then .event (tagEv 0x0F) s
      else
        .done ((s.modSlot i.cell i.slot fun t => { t with wins := t.wins ++ [.retire (v.setWidth 12)] }).finish
          i x.len [])

/-! ### Time (03 R161, R162) -/

/-- System time as a strand reads it by selector 0 or 1. -/
def State.timeSel (s : State) (t : Slot) (sel : Word) : Option (Word × Slot) :=
  if sel = 0 then some (s.now.setWidth 32, { t with timeHi := some ((s.now >>> 32).setWidth 32) })
  else if sel = 1 then some (t.timeHi.getD ((s.now >>> 32).setWidth 32), t)
  else none

/-- The selector: register A in layout LR, IMM11 in layout LI (DEDUCED, assumption 11). -/
def selOperand (x : LongOp) (t : Slot) : Except Byte Word :=
  if x.body.isLi then .ok x.imm else intOperand (t.g x.a)

/-- RDTIME (03 R161). -/
def execRdtime (i : Iss) (x : LongOp) (s : State) : Outcome :=
  s.issue i x.len (x.legal .both false false) false [x.d, x.a] fun s t =>
    match selOperand x t with
    | .error r => .event (tagEv r) s
    | .ok sel =>
      match s.timeSel t sel with
      | none => .event (tagEv 0x0F) s
      | some (v, t) => .done ((s.setSlot i.cell i.slot t).finish i x.len [(x.d, TWord.int v)])

/-- The DRBG gives bits (12 R510): CRY_ES_STAT shows RUNNING and no HEALTH_FAIL. -/
def State.drbgRuns (s : State) : Bool :=
  let w := s.reg (cryBase 4 + 0xC)
  bit w 31 && !bit w 30

/-- A sample of an asynchronous input (03 R162). FREE VALUE: the DRBG's bits, and the data of the POISON
that selector 2 returns while the entropy source has failed (12 R510). -/
def State.agreeSample (s : State) (c : CellId) (t : Slot) (sel : Word) : Option (TWord × Slot × State) :=
  match s.timeSel t sel with
  | some (v, t) => some (TWord.int v, t, s)
  | none =>
    if sel = 2 then
      let (r, s) := s.draw
      some (⟨if s.drbgRuns then Tag.int else Tag.poison, r.setWidth 32⟩, t, s)
    else if 16 ≤ sel.toNat ∧ sel.toNat ≤ 31 then
      let a := pmcBase (clusterOf c).toNat + cellIndex c * 0x100 + 0x1000 + 8 * (sel.toNat - 16)
      some (TWord.int (s.reg a), t, s)
    else none

/-- AGREE (03 R162, 13 R552, R553): in twin mode both twins' requests have arrived when it completes, and
one sample serves both (assumption 22). -/
def execAgree (i : Iss) (x : LongOp) (s : State) : Outcome :=
  s.issue i x.len (x.legal .both false false) false [x.d, x.a] fun s t =>
    match selOperand x t with
    | .error r => .event (tagEv r) s
    | .ok sel =>
      match s.agreeSample i.cell t sel with
      | none => .event (tagEv 0x0F) s
      | some (v, t, s) => .done ((s.setSlot i.cell i.slot t).finish i x.len [(x.d, v)])

/-! ### Supervisor calls and the strand state registers (03 R106, R167; 05 R233) -/

/-- SVC (03 R119, R167): IMM11 goes to SSR_EINFO, zero-extended. -/
def execSvc (i : Iss) (x : LongOp) (s : State) : Outcome :=
  s.issue i x.len (x.legal .li false false) false [] fun s _ =>
    match x.body with
    | .li _ _ n => .event (svcEv n x.len) s
    | .lr .. => .event (tagEv 0x02) s

/-- The number operand of RDSR and WRSR, and the field that must name g0 (03 R167). -/
def srNumber (x : LongOp) (t : Slot) : Except Byte Nat :=
  (if x.body.isLi then .ok x.imm else intOperand (t.g x.a)).bind fun n =>
    if 16 ≤ n.toNat then .error 0x0F else .ok n.toNat
def srLegal (x : LongOp) : Bool :=
  x.legal .both false false && (if x.body.isLi then x.a == 0 else x.b == 0)

/-- RDSR (03 R106, R167). -/
def execRdsr (i : Iss) (x : LongOp) (s : State) : Outcome :=
  s.issue i x.len (srLegal x) false [x.d, x.a] fun s t =>
    match (srNumber x t).bind t.readSr with
    | .error r => .event (tagEv r) s
    | .ok v => .done (s.finish i x.len [(x.d, TWord.int v)])

/-- WRSR (03 R106, R167; 08 R329): a SSR_XSID not bound to the strand's partition is out of range. -/
def execWrsr (i : Iss) (x : LongOp) (s : State) : Outcome :=
  s.issue i x.len (srLegal x) false [x.d, x.a] fun s t =>
    let r : Except Byte Slot := do
      let n ← srNumber x t
      let v ← intOperand (t.g x.d)
      let t ← t.writeSr n v
      if n = 3 ∧ !s.sidBoundTo (v.setWidth 16) t.part then throw 0x0F
      return t
    match r with
    | .error r => .event (tagEv r) s
    | .ok t => .done ((s.setSlot i.cell i.slot t).finish i x.len [])

/-- The page of an address has the user right: as a TLB holds it, or as the tables stand (DEDUCED, assumption
12: a page that does not translate leaves the strand in supervisor mode, and its fetch faults). -/
def State.pageIsUser (s : State) (c : CellId) (t : Slot) (va : Word) : Bool :=
  let held := ((s.cell c).tlb ++ (s.cluster (clusterOf c)).tlb).find? fun e => e.covers t.sid t.part va
  match held with
  | some e => e.u
  | none =>
    match s.blockLeaf t.sid va with
    | .ok (p, e, _) => p == t.part && e.getLsbD 5
    | .error _ => false

/-- ERET (05 R231, R233; 03 R103; 04 R180): it resumes the strand, in user mode when the resumed page has
the user right; a due event is taken at the boundary that follows. Outside a handler the strand resumes
at A's address all the same; with g0, at SSR_EPC (DEDUCED, assumption 12). -/
def execEret (i : Iss) (x : LongOp) (s : State) : Outcome :=
  s.issue i x.len (x.legal .lr false false) true [x.a] fun s t =>
    let v := t.g x.a
    if x.a ≠ 0 ∧ v.tag ≠ Tag.code then
      if t.state = .handler then .done (s.doubleEvent i.cell i.slot) else .event (tagEv 0x01) s
    else
      let pc := if x.a ≠ 0 then v.data else t.epc + BitVec.ofNat 32 t.afterSvc
      let back := { t with state := .run, pc := pc, afterSvc := 0
                           noSlice := t.abandoned == some pc || t.noSlice }
      .done ((s.setSlot i.cell i.slot { back with sup := !s.pageIsUser i.cell t pc }).sampled i.cell i.slot)

end Sys2Proof.Machine
end

