-- ==== Sys2Proof/Machine/Registers.lean ====
section
/-! DEFINITION. Reading and writing the system window (00 R10 to R16): the registers that show other state,
the 64-bit pairs, the registers a write acts through, and the register commands. -/

namespace Sys2Proof.Machine

/-! ### Registers that show other state -/

/-- CLC_TQ_STAT_n (02 R91). -/
def State.tqStat (s : State) (c : CellId) : Word :=
  let x := s.cell c
  BitVec.ofNat 32 ((if x.ovf.isEmpty then 0 else 2 ^ 31) + min 256 (s.outqUsed c) * 2 ^ 16 + min 1024 x.inq.length)

/-- CLC_MS_OCC_n (02 R91). -/
def State.msOcc (s : State) (c : CellId) : Word :=
  let x := s.cell c
  BitVec.ofNat 32 ((if x.narrowed then 2 ^ 31 else 0) + x.occupancy)

/-- The physical cell that serves a logical one, as the collector keys it. -/
def State.physOf (s : State) (c : CellId) : Nat := (clusterOf c).toNat * 32 + s.regField (clcCell c 0xF40) 4 0

/-- The partition whose cell list holds a cell. -/
def State.ownerOf (s : State) (c : CellId) : Option (BitVec 6) :=
  (s.parts.find? fun e => e.2.isLive && e.2.cells.contains c).map fun e => BitVec.ofNat 6 e.1

/-- Resident-frame places that a cell has reserved for frames on their way to it (07 R301 step 1). -/
def State.reservedAt (s : State) (c : CellId) : Nat :=
  (s.inMove.filter fun e => e.2.2 == c && s.cellOf e.1 != c).length

/-- A cell accepts no new frames (07 R285 step 1, 13 R548): it is drained, failed, under replacement, a
shadow or full, or its partition is quiesced. -/
def State.noPlace (s : State) (c : CellId) : Bool :=
  let x := s.cell c
  x.draining || x.stopped || s.col.lostCells.contains c || (s.col.copying.any fun e => e.1 == c)
    || Map.get false s.col.failMark (s.physOf c) || bit (s.reg (clcCell c 0xF80)) 30
    || decide (16384 ≤ (s.framesOn c).length + s.reservedAt c)
    || (match s.ownerOf c with | some p => (s.part p).quiesced | none => false)

/-- CLC_PL_CELL_n (07 R322). -/
def State.plCell (s : State) (c : CellId) : Word :=
  BitVec.ofNat 32 ((s.framesOn c).length * 2 ^ 16 + (s.cell c).fwd.length * 256 + (if s.noPlace c then 1 else 0))

/-- CLC_THR_STAT (07 R323): releases held and flows full in the cluster's Threshold slice. -/
def State.thrStat (s : State) (g : Nat) : Word :=
  let mine := s.flows.filter fun e => e.1 % 16 == g
  let held := (mine.map fun e => e.2.held.length).sum
  BitVec.ofNat 32 (min 0xFFFF held * 2 ^ 16 + (mine.filter fun e => e.2.full).length)

/-- CLC_UC_STAT (06 R279). -/
def State.ucStat (s : State) (g : Nat) : Word :=
  let banks := (List.range 18).filter fun p => bit (s.reg (clcBase g + 0xC40 + 4 * p)) 0
  let b := banks.map fun p => bit (s.reg (clcBase g + 0xC40 + 4 * p)) 2
  let mixed : Bool := b.any id && b.any (!·)
  BitVec.ofNat 32 ((if mixed then 2 else 0) + (if s.ben.patch.isSome then 1 else 0))

/-- CLC_TIME_STAT (15 R663). -/
def State.timeStat (s : State) : Word :=
  BitVec.ofNat 32 ((if s.hier.locked then 2 ^ 31 else 0) + (if s.hier.holdover then 2 ^ 30 else 0)
    + s.hier.offset.toNat)

/-- CCH_STAT (09 R407). -/
def State.cchStat (s : State) (g : BitVec 4) : Word :=
  let cl := s.cluster g
  let bound := ((List.range 4).filter fun j => bit (s.reg (pantryReg g j)) 31).length
  BitVec.ofNat 32 (cl.misses.length * 2 ^ 16 + bound * 256 + cl.porch.length)

/-- DIR_STAT (10 R452). -/
def State.dirStat (s : State) (h : BitVec 4) : Word :=
  BitVec.ofNat 32 ((s.home h).queue.length * 2 ^ 22 + (s.home h).starve.length)

/-- CHN_STAT (11 R497). -/
def State.chnStat (s : State) (n : BitVec 4) : Word :=
  let p := s.port n
  BitVec.ofNat 32 (p.link.toNat * 2 ^ 29 + (if p.side then 2 ^ 28 else 0) + (if p.standbyOk then 2 ^ 27 else 0)
    + p.session.toNat)

/-- A slice's CFG and STAT registers (12 R531). -/
def Slice.cfg (x : Slice) : Word :=
  if x.state = 0 then 0
  else BitVec.ofNat 32 (2 ^ 31 + x.share.toNat * 2 ^ 24 + (x.depth - 1) * 2 ^ 16 + x.sid.toNat)
def Slice.stat (x : Slice) : Word := BitVec.ofNat 32 (x.state.toNat * 2 ^ 30 + x.queue.length * 2 ^ 16)

/-- Key-store entries in use (12 R530). -/
def State.keysUsed (s : State) : Word := BitVec.ofNat 32 (s.keys.filter fun e => e.2.inUse).length

/-- FCL_STAT and FCL_ASSERT_g (13 R577). -/
def State.fclStat (s : State) : Word :=
  BitVec.ofNat 32 ((s.col.store.filter fun r => r.isOpen).length * 2 ^ 16
    + (s.col.srcs.filter fun e => e.2.storm).length)
def State.fclAssert (s : State) (g : Nat) : Word :=
  BitVec.ofNat 32 (((List.range 32).filter fun b => (Map.get source0 s.col.srcs (32 * g + b)).asserted).map
    (2 ^ ·)).sum

/-- FCL_EVT_STAT and FCL_OUT_STAT (16 R708). -/
def State.evtStat (s : State) : Word :=
  let e (n : Nat) : EvtIn := Map.get evtIn0 s.plat.evts n
  BitVec.ofNat 32 (((List.range 4).map fun n => (if (e n).stuck then 2 ^ (8 + n) else 0)
    + (if (e n).level then 2 ^ n else 0)).sum)
def State.outStat (s : State) : Word :=
  BitVec.ofNat 32 (s.plat.openOut.toNat * 256 + s.plat.shortOut.toNat)

/-- CLC_UC_CELL_p (06 R280): DRAINED is 1 while a drained cell's slots are all IDLE (R272 step 3); a spare that serves no
logical cell is drained in its turn. -/
def State.ucCell (s : State) (g p : Nat) : Word :=
  let drained : Bool := match (cellsOf (BitVec.ofNat 4 g)).find? fun c => s.regField (clcCell c 0xF40) 4 0 == p with
    | some c => (s.cell c).draining && allSlots.all fun k => (s.slot c k).state == .idle
    | none => match s.ben.patch with
      | some { todo := (x, _) :: _, .. } => x == g * 256 + p
      | _ => false
  withField (s.reg (clcBase g + 0xC40 + 4 * p)) 1 1 (if drained then 1 else 0)

/-- What a read of a register of the cluster controller shows. -/
def State.clcShows (s : State) (g off : Nat) : Option Word :=
  let c (o : Nat) : CellId := cellAt (BitVec.ofNat 4 g) ((off - o) / 4)
  if within off 0x840 16 then some (s.tqStat (c 0x840))
  else if within off 0x880 16 then some (s.msOcc (c 0x880))
  else if within off 0xC40 18 then some (s.ucCell g ((off - 0xC40) / 4))
  else if within off 0xD40 16 then some (s.plCell (c 0xD40))
  else if off = 0xE00 then some (s.thrStat g)
  else if off = 0xC04 then some (s.ucStat g)
  else if off = 0xE44 then some s.timeStat
  else none

/-- What a read of an engine block's register shows. -/
def State.engShows (s : State) (k : BitVec 3) (off : Nat) : Option Word :=
  let sl := Map.get slice0 (s.eclass k).slices ((off - 0x400) / 16)
  if within off 0x400 256 ∧ off % 16 = 0 then some sl.cfg
  else if within off 0x400 256 ∧ off % 16 = 4 then some sl.stat
  else if off = 0x010 ∧ k = 4 then some s.keysUsed
  else none

/-- What a register shows that holds no bits of its own. -/
def State.shows (s : State) (a : Nat) : Option Word :=
  if 0x00E00000 ≤ a ∧ a < 0x00F00000 then s.clcShows ((a - 0x00E00000) / 0x10000) (a % 0x10000)
  else if a / 0x10000 = 0x00F1 ∧ a % 0x1000 = 4 then some (s.cchStat (BitVec.ofNat 4 (a / 0x1000)))
  else if a / 0x10000 = 0x00F2 ∧ a % 0x1000 = 4 then some (s.dirStat (BitVec.ofNat 4 (a / 0x1000)))
  else if 0x00F30000 ≤ a ∧ a < 0x00F38000 then
    if a % 0x1000 = 4 then some (s.chnStat (BitVec.ofNat 4 (a / 0x1000 % 8)))
    else if a % 0x1000 = 8 then some ((s.port (BitVec.ofNat 4 (a / 0x1000 % 8))).peer.setWidth 32) else none
  else if a = ldgBase then some (BitVec.ofNat 32 s.ledger.length)
  else if lfmBase ≤ a ∧ a < lfmBase + 0x1000 then s.engShows 0 (a % 0x1000)
  else if 0x00F50000 ≤ a ∧ a < 0x00F54000 then s.engShows (BitVec.ofNat 3 (a / 0x1000 % 16 + 1)) (a % 0x1000)
  else if a = fclBase + 4 then some s.fclStat
  else if fclBase + 0x300 ≤ a ∧ a < fclBase + 0x3C0 then some (s.fclAssert ((a - fclBase - 0x300) / 4))
  else if a = fclBase + 0x84 then some s.evtStat
  else if a = fclBase + 0x88 then some s.outStat
  else if 0x00F80000 ≤ a ∧ a < 0x00FC0000 ∧ a % 0x4000 = 0x2020 then
    some (withField (s.reg a) 10 0 (s.cluster (BitVec.ofNat 4 ((a - 0x00F80000) / 0x4000))).trace.length)
  else none

/-- The current value of a register. -/
def State.regNow (s : State) (a : Nat) : Word := (s.shows a).getD (s.reg a)

/-- The value a read returns, where WO fields read 0 (00 R14): STEP and FORCE of TST_LFSR_c are never
stored, so a stored value already is what a read returns. -/
def State.windowRead (s : State) (a : Nat) : Word × State :=
  if isLo a then (s.regNow a, { s with hiLatch := Map.set none s.hiLatch (a + 4) (some (s.regNow (a + 4))) })
  else if isHi a then
    match Map.get none s.hiLatch a with
    | some v => (v, { s with hiLatch := Map.del s.hiLatch a })
    | none => (s.regNow a, s)
  else (s.regNow a, s)

/-! ### Writes -/

/-- TST_CTRL.OPEN (13 R570, R579). -/
def State.tstOpen (s : State) : Bool := bit (s.reg tstBase) 0

/-- The cell loads its vector registers and its event prefetch store (05 R230, R241), when every entry of
the table is tagged CODE. -/
def State.loadVectors (s : State) (c : CellId) : State :=
  let sid := s.esid c
  let at_ := s.reg (clcCell c 0xB40)
  let s := s.touches sid (at_ + 1) 7
  match s.spaceReads sid (at_ + 1) 7 with
  | .error _ => s
  | .ok vs =>
    if vs.any fun v => v.tag != Tag.code then s
    else
      let s := s.each vs fun s v => s.touches sid v.data 4
      let words (v : TWord) : List TWord := match s.spaceReads sid v.data 4 with
        | .ok ws => ws
        | .error _ => []
      let pre := (vs.zipIdx.map fun (v, i) => (words v).zipIdx.map fun (w, j) => (4 * i + j, w)).flatten
      s.modCell c fun x =>
        { x with vectors := (vs.zipIdx.map fun (v, i) => (i + 1, v.data)).foldl (fun m e => Map.set 0 m e.1 e.2) []
                 prefetch := pre.foldl (fun m e => Map.set TWord.empty m e.1 e.2) [] }

/-- CCH_LFSR and DIR_LFSR (09 R377, 10 R451): a write of 0 is ignored. -/
def isLfsr (a : Nat) : Bool := (a / 0x10000 == 0x00F1 || a / 0x10000 == 0x00F2) && a % 0x1000 == 8

/-- The registers of the CLC_EVEC_n table. -/
def isEvec (a : Nat) : Bool :=
  decide (0x00E00000 ≤ a) && decide (a < 0x00F00000) && within (a % 0x10000) 0xB40 16
def evecCell (a : Nat) : CellId :=
  cellAt (BitVec.ofNat 4 ((a - 0x00E00000) / 0x10000)) ((a % 0x10000 - 0xB40) / 4)

/-- TST_LFSR_c (13 R579): the address of the LFSR it selects. -/
def tstLfsrReg (c : Nat) : Nat := tstBase + 0x10C + 0x20 * c
def isTstLfsr (a : Nat) : Bool :=
  decide (tstBase + 0x100 ≤ a) && decide (a < tstBase + 0x300) && (a - tstBase - 0x100) % 0x20 == 0x0C
def selectedLfsr (c : Nat) (v : Word) : Nat := if bit v 31 then dirBase c + 8 else cchBase c + 8

/-- Steps of an LFSR. -/
def lfsrSteps : Nat → BitVec 16 → BitVec 16
  | 0, x => x
  | n + 1, x => lfsrSteps n (lfsrStep x)

/-- A write of TST_LFSR_c (13 R579, R572): SEL and VALUE are stored; FORCE loads VALUE unless it is 0; then
STEP steps, whatever LOCK holds. -/
def State.writeTstLfsr (s : State) (c : Nat) (v : Word) : State :=
  let s := s.regWrite (tstLfsrReg c) v
  let a := selectedLfsr c v
  let s := if bit v 30 && field v 15 0 != 0 then s.setReg a (BitVec.ofNat 32 (field v 15 0)) else s
  s.setReg a ((lfsrSteps (field v 23 16) ((s.reg a).setWidth 16)).setWidth 32)

/-- The cell in whose PMC window an address lies (15 R664). -/
def pmcOwner (a : Nat) : Option CellId :=
  if 0x00F80000 ≤ a ∧ a < 0x00FC0000 ∧ a % 0x4000 < 0x1000 then
    some (cellAt (BitVec.ofNat 4 ((a - 0x00F80000) / 0x4000)) (a % 0x4000 / 0x100))
  else none

/-- A writer may write the register (15 R652): a strand only its own cell's PMC registers. The system window has no
address on a PCIe port (14 R595). -/
def mayWrite (w : Writer) (a : Nat) : Bool :=
  match w, pmcOwner a with
  | .strand c, some x => c == x
  | .pcie _, _ => false
  | _, _ => true

/-- A write of MBX_CTRL_m or MBX_STAT_m through BAR0 of a PCIe port (14 R596, R597), without GO and CANCEL, which are
MBX_DOORBELL and MBX_CANCEL: IRQ_EN is taken, OVERRUN is cleared by a 1. A mailbox whose transport is another ignores
it. -/
def State.barWrite (s : State) (n : BitVec 1) (a : Nat) (v : Word) : State :=
  let m := BitVec.ofNat 5 (a / 16)
  if !within a 0x20000 0x80 || (s.mbx m).transport != some (Transport.pcie n) then s
  else if a % 16 = 0 then s.modMbx m fun b => { b with irqEn := bit v 2 }
  else if a % 16 = 4 then s.modMbx m fun b => { b with overrun := b.overrun && !bit v 3 }
  else s

/-- A write through the system window with everything it does (00 R12 to R16; 05 R241, 09 R377, 13 R570,
R579, 15 R652). Benus writes over the management bus and is not the sender here. The low word that a write of NAME_LO
left is held until the next such write: NAME_HI written again without one takes the same low word again (DESIGN CHOICE,
assumption 122: R12 does not say). -/
def State.windowWrite (s : State) (w : Writer) (a : Nat) (v : Word) : State :=
  let wr (s : State) (a : Nat) (v : Word) : State := if w = .benus then s.busWrite a v else s.regWrite a v
  if !mayWrite w a then s
  else if tstBase ≤ a ∧ a < tstBase + 0x1000 then
    if !s.tstOpen then s else if isTstLfsr a then s.writeTstLfsr ((a - tstBase - 0x100) / 0x20) v else wr s a v
  else if isLfsr a then
    if (v.setWidth 16 : BitVec 16) = 0 then s else wr s a v
  else if isEvec a then (wr s a v).loadVectors (evecCell a)
  else if isLo a then { s with loHold := Map.set 0 s.loHold a v }
  else if isHi a then wr (wr s (a - 4) (Map.get 0 s.loHold (a - 4))) a v
  else wr s a v

/-- A window address: the access reaches a register the spec describes, or it is refused. -/
def onRegister (a : BitVec 24) (s : State) (f : State → Outcome) : Outcome :=
  if (regSpec a.toNat).isSome then f s else .refused (.deviceNotDescribed a)

/-- The access masks of a register. -/
def specOf (a : Nat) : RegSpec := (regSpec a).getD roReg

/-- A register write that belongs to the row: else the command cannot come about (assumption 3). -/
def State.writeRow (s : State) (w : Writer) (a : BitVec 24) (v : Word) (is : Bool) : Outcome :=
  onRegister a s fun s => whenever is s fun s => .next (s.windowWrite w a.toNat v)

/-- LOCK_WRITE (00 R16). -/
def execLockWrite (w : Writer) (address : BitVec 24) (value : Word) (s : State) : Outcome :=
  s.writeRow w address value
    (bit ((specOf address.toNat).w1s ||| if w = .benus then (specOf address.toNat).busSet else 0) 31 && bit value 31)
/-- W1C_WRITE (00 R14): through a PCIe port, of MBX_STAT_m (14 R597). -/
def execW1cWrite (w : Writer) (address : BitVec 24) (value : Word) (s : State) : Outcome :=
  match w with
  | .pcie n => whenever (address.toNat % 16 == 4) s fun s => .next (s.barWrite n address.toNat value)
  | _ => s.writeRow w address value ((specOf address.toNat).w1c != 0)
/-- REG64_LO_READ (00 R12): the read latches NAME_HI. -/
def execReg64LoRead (_w : Writer) (address : BitVec 24) (s : State) : Outcome :=
  onRegister address s fun s => whenever (isLo address.toNat) s fun s => .next (s.windowRead address.toNat).2
/-- REG64_HI_WRITE (00 R12): the held low word takes effect with it. -/
def execReg64HiWrite (w : Writer) (address : BitVec 24) (value : Word) (s : State) : Outcome :=
  s.writeRow w address value (isHi address.toNat)
/-- EVEC_WRITE (05 R230, R241). -/
def execEvecWrite (w : Writer) (address : BitVec 24) (value : Word) (s : State) : Outcome :=
  s.writeRow w address value (isEvec address.toNat)
/-- LFSR_WRITE (09 R377, R406; 10 R451). -/
def execLfsrWrite (w : Writer) (address : BitVec 24) (value : Word) (s : State) : Outcome :=
  s.writeRow w address value (isLfsr address.toNat)
/-- PMC_FROZEN_RELEASE (15 R650, R665). -/
def execPmcFrozenRelease (w : Writer) (address : BitVec 24) (value : Word) (s : State) : Outcome :=
  s.writeRow w address value ((pmcOwner address.toNat).isSome && address.toNat % 0x100 == 0xC0 && bit value 1)
/-- TST_INJ_WRITE (13 R570, R571, R579): the inversion acts at the collector's samples. -/
def execTstInjWrite (w : Writer) (value : Word) (s : State) : Outcome :=
  .next (s.windowWrite w (tstBase + 4) value)
/-- TST_LFSR_FORCE (13 R579). -/
def execTstLfsrForce (w : Writer) (cluster : BitVec 4) (value : Word) (s : State) : Outcome :=
  whenever (bit value 30) s fun s => .next (s.windowWrite w (tstLfsrReg cluster.toNat) value)
/-- TST_LFSR_STEP (09 R377, 13 R579). -/
def execTstLfsrStep (w : Writer) (cluster : BitVec 4) (value : Word) (s : State) : Outcome :=
  whenever (field value 23 16 != 0) s fun s => .next (s.windowWrite w (tstLfsrReg cluster.toNat) value)
/-- REGISTER_WRITE (00 R14, R15; 15 R652): through a PCIe port, of MBX_CTRL_m with neither GO nor CANCEL (14 R597). -/
def execRegisterWrite (w : Writer) (address : BitVec 24) (value : Word) (s : State) : Outcome :=
  match w with
  | .pcie n =>
    whenever (address.toNat % 16 == 0 && value &&& 3 == 0) s fun s => .next (s.barWrite n address.toNat value)
  | _ => s.writeRow w address value true

end Sys2Proof.Machine
end

