-- ==== Sys2Proof/Machine/MemOps.lean ====
section
/-! DEFINITION. Loads and stores, frame slots, split-phase requests, I-structure operations, the reserved
pair, fences and maintenance by address (03 R147 to R160, 09 R370 to R372, R399 to R402, 10 R437 to R446),
with the store buffer's own commands. -/

namespace Sys2Proof.Machine

/-! ### Operands (03 R96, R147) -/

/-- An address operand. -/
def ptrOperand (v : TWord) : Except Byte Word :=
  if v.tag = Tag.poison then .error 0x05 else if v.tag ≠ Tag.ptr then .error 0x01 else .ok v.data

/-- The word address and the byte position of an access. -/
def addressOf (t : Slot) (x : LongOp) (byteForm : Bool) : Except Byte (Word × BitVec 2) := do
  let a ← ptrOperand (t.g x.a)
  let o ← intOperand (x.opB t)
  return if byteForm then (a + o.sshiftRight 2, o.setWidth 2) else (a + o, 0)

/-- Stop at a watchpoint that an access meets (15 R657, R658): the instruction performs nothing. -/
def State.watchStop (s : State) (i : Iss) (va : Word) (store : Bool) (go : State → Act) : Act :=
  let t := s.slot i.cell i.slot
  match (if t.watched = some t.pc then none else s.watchHit i.cell t va store) with
  | none => go s
  | some w => .waits ((s.debugStop i.cell i.slot w).modSlot i.cell i.slot fun y => { y with watched := some t.pc })

/-- Go on with one translated word, or stop on its event or its walk. -/
def State.onWord (s : State) (i : Iss) (va : Word) (a : Access) (go : State → TlbEnt → Nat → Act) : Act :=
  match s.xlate i.cell i.slot va a with
  | (.walk, s) => .waits s
  | (.event e, s) => .event e s
  | (.ok e w, s) => s.watchStop i va (a.kind == 1) fun s => go s e w

/-- Go on with both words of a split access (03 R153, 08 R347): both are translated and checked first, the
word of the lower address before the other; straddling the window is code 0x07. -/
def State.onWords (s : State) (i : Iss) (va : Word) (a : Access)
    (go : State → TlbEnt → Nat → TlbEnt → Nat → Act) : Act :=
  let t := s.slot i.cell i.slot
  let straddles := t.windowed va a != t.windowed (va + 1) a
  let fault : Ev := faultEv false 0 a.kind 0x07 va
  match s.xlate i.cell i.slot va a with
  | (.walk, s) => .waits s
  | (r1, s) =>
    match s.xlate i.cell i.slot (va + 1) a with
    | (.walk, s) => .waits s
    | (r2, s) =>
      match r1, r2 with
      | .event e, _ => .event (if straddles && decide (7 < field e.info 7 0) then fault else e) s
      | _, .event e => .event (if straddles then fault else e) s
      | .ok e1 w1, .ok e2 w2 =>
        if straddles then .event fault s
        else s.watchStop i va (a.kind == 1) fun s => s.watchStop i (va + 1) (a.kind == 1) fun s => go s e1 w1 e2 w2
      | _, _ => .waits s

/-! ### Commit-first operations (03 R151, 13 R535 to R538) -/

/-- The commit point before a commit-first operation: it waits for the strand's operations, and for the
acknowledgements of those of its stores that `awaits` names. The state in the error is that of a strand that waits
inside its instruction (05 R223). -/
def State.cfAfter (s : State) (i : Iss) (awaits : StEnt → Bool) : Except State State :=
  let t := s.slot i.cell i.slot
  if !t.allWritten then .error (s.waitAgain i.cell i.slot)
  else if s.awaitsTwin i.cell i.slot then .error (s.waitTwin i.cell i.slot)
  else
    let s := s.commitPoint i.cell i.slot t.pc
    if (s.storesOf i.cell i.slot).any awaits then .error (s.waitAgain i.cell i.slot) else .ok s

/-- The commit point of an operation that is performed after every earlier store of the strand has been acknowledged
(`afterStores`, 10 R439), or of one that is not so ordered. -/
def State.cfBefore (s : State) (i : Iss) (afterStores : Bool) : Except State State := s.cfAfter i fun _ => afterStores

/-- The operation is complete: its result is written and recorded. A check that failed after it left the
cell is a machine check (13 R538). -/
def State.cfDone (s : State) (i : Iss) (len : Nat) (ws : List (Reg × TWord)) : Act :=
  let s := s.finish i len ws
  let s := s.recordResult i.cell i.slot (s.slot i.cell i.slot).pc
  if i.check = .left then
    .done ((s.assertSrc (s.cellSource i.cell)).ownCheck i.cell i.slot (s.cellSource i.cell) 0)
  else .done s

/-- An operation leaves for its home and the strand waits for the answer. -/
def State.hopOut (s : State) (i : Iss) (e : TlbEnt) (w : Nat) (op : HomeOp) (dest : Option Reg) (len : Nat) :
    Act :=
  let t := s.slot i.cell i.slot
  let s := s.toHome (sectorOf w) (.hop (homeOf e.homing w) (s.agentOf (clusterOf i.cell)) w op)
  let s := s.modSlot i.cell i.slot fun t => { t with wait := .hop dest (t.pc + BitVec.ofNat 32 len) }
  if i.check = .left then
    let (n, s) := s.makeRecord { kind := 4, source := s.cellSource i.cell, cell := s.recCell i.cell, sid := t.sid
                                 ctx := t.act.ctx }
    .waits ((s.assertSrc (s.cellSource i.cell)).machineCheck i.cell i.slot n)
  else .waits s

/-! ### Loads (03 R148, R153; 09 R367, R370; 10 R437) -/

/-- What a buffered store makes of a word for its own strand (09 R370). -/
def StEnt.over (e : StEnt) (w : Nat) (v : TWord) : TWord :=
  match e.kind with
  | .word => if e.addr = w then e.val else v
  | .sub => if e.addr = w then storedWord .sub e.mask e.val v else v
  | .zero => if sectorOf e.addr = sectorOf w then storedWord .zero 0 e.val v else v
  | .slot .. | .side | .clean | .flush => v

/-- The strand's own stores over a word, oldest first. -/
def withOwn (es : List StEnt) (w : Nat) (v : TWord) : TWord := es.foldl (fun v e => e.over w v) v

/-- The stores that a strand has buffered and that are not performed yet. -/
def State.ownStores (s : State) (c : CellId) (k : SlotId) : List StEnt :=
  (s.storesOf c k).filter fun e => !e.performed

/-- Sign or zero extension of the low `n` bytes. -/
def extendBytes (n : Nat) (signed : Bool) (w : Word) : Word :=
  if n = 1 then (if signed then (w.setWidth 8 : BitVec 8).signExtend 32 else (w.setWidth 8 : BitVec 8).setWidth 32)
  else if n = 2 then
    (if signed then (w.setWidth 16 : BitVec 16).signExtend 32 else (w.setWidth 16 : BitVec 16).setWidth 32)
  else w

/-- What a load writes, from its words in rising address order (03 R148, R153). -/
def LdForm.value (f : LdForm) (vs : List TWord) : Except Byte TWord :=
  let v := vs.headD TWord.empty
  match f with
  | .word => .ok (loadedWord v)
  | .sub o n sg =>
    if v.tag = Tag.empty ∨ v.tag = Tag.defer then .ok TWord.empty
    else if v.tag ≠ Tag.int then .error 0x0A
    else .ok (TWord.int (extendBytes n sg (v.data >>> (8 * o.toNat))))
  | .split o n sg =>
    let u := (vs.drop 1).headD TWord.empty
    if v.tag ≠ Tag.int ∨ u.tag ≠ Tag.int then .error 0x0A
    else
      let both : BitVec 64 := u.data ++ v.data
      .ok (TWord.int (extendBytes n sg ((both >>> (8 * o.toNat)).setWidth 32)))

/-- The cell cache's word of a line that it holds. -/
def State.lineWord (s : State) (c : CellId) (w : Nat) : TWord :=
  let cl := s.cluster (clusterOf c)
  if s.pantryOf w = some (clusterOf c) then Map.get TWord.empty cl.pantry (localWord w)
  else wordOf (cl.sectorAt (sectorOf w)).data w

/-- What asking for a word gives: its value at once, its value on its way, or nothing yet. -/
inductive Asked where
  | now (v : TWord)
  | later (v : Option TWord)
  deriving DecidableEq, Repr

/-- Count a load that waits for a Porch entry (09 R410). -/
def State.porchWait (s : State) (c : CellId) (k : SlotId) : State :=
  let t := s.slot c k
  if !t.porchWaited && decide (32 ≤ (s.cluster (clusterOf c)).porch.length) then
    (s.bump (cchBase (clusterOf c).toNat + 0x34)).modSlot c k fun t => { t with porchWaited := true }
  else s

/-- Ask for one word of a load for a register. None: the access must wait and is made again. -/
def State.askWord (s : State) (i : Iss) (d : Reg) (e : TlbEnt) (w : Nat) (own : List StEnt) :
    Option Asked × State :=
  let c := i.cell
  let g := clusterOf c
  let p := (s.slot c i.slot).part
  let sec := sectorOf w
  if own.any (fun y => y.kind == .word && y.addr == w) then (some (.now (withOwn own w TWord.empty)), s)
  else if !e.c then
    (some (.later none), s.toHome sec (.hop (homeOf e.homing w) (s.agentOf g) w (.load c i.slot d)))
  else if (s.cell c).hasLine sec then (some (.now (withOwn own w (s.lineWord c w))), s)
  else
    let count (s : State) : State :=
      (s.bump (cchBase g.toNat + 0x80 + 4 * cellIndex c)).pmc c (some (s.slot c i.slot).sup) 0x10
    match s.clusterRead g p w with
    | (.hit v, s) => (some (.later (some v)), (count s).modCell c fun x => x.fillLine sec)
    | (.waits, s) => (none, s)
    | (.miss, s) =>
      match s.joinMiss g p (homeOf e.homing w) sec false (.load c i.slot d w) w (homeOf e.homing (w + 16)) with
      | none => (none, s.porchWait c i.slot)
      | some s => (some (.later none), count s)

/-- An outstanding load has not got all its words. -/
def PLoad.unbound (l : PLoad) : Bool := l.parts.any fun p => p.2.isNone

/-- Loads of a strand get their values in program order (10 R437). -/
def Slot.loadsBound (t : Slot) : Bool := !(t.loads.any PLoad.unbound)

/-- Perform a load of one or two words. A word that the cell holds is loaded at once; else the load is
outstanding, and a sub-word or split load, which may still raise an event, keeps its strand. -/
def State.performLoad (s : State) (i : Iss) (x : LongOp) (f : LdForm) (ws : List (TlbEnt × Nat)) : Act :=
  let c := i.cell
  let k := i.slot
  let own := s.ownStores c k
  let ask : Option (List (Nat × Asked)) × State → TlbEnt × Nat → Option (List (Nat × Asked)) × State :=
    fun (acc, s) (e, w) =>
      match acc with
      | none => (none, s)
      | some l =>
        match s.askWord i x.d e w own with
        | (none, s) => (none, s)
        | (some a, s) => (some (l ++ [(w, a)]), s)
  match ws.foldl ask (some [], s) with
  | (none, s) => .waits (s.waitOperand c k)
  | (some as_, s) =>
    let now (a : Nat × Asked) : Option TWord := match a.2 with | .now v => some v | .later _ => none
    if as_.all fun a => (now a).isSome then
      match f.value (as_.filterMap now) with
      | .error r => .event (tagEv r) s
      | .ok v => .done (s.finish i x.len [(x.d, v)])
    else
      let part (a : Nat × Asked) : Nat × Option TWord :=
        match a.2 with
        | .now v => (a.1, some v)
        | .later v => (a.1, v.map (withOwn own a.1))
      let hom := (ws.map fun e => e.1.homing).headD 0
      let cach := (ws.map fun e => e.1.c).headD true
      let l : PLoad := { reg := x.d, form := f, parts := as_.map part, homing := hom, cacheable := cach
                         own := own, reserve := none }
      let s := s.modSlot c k fun t => { t with loads := t.loads ++ [l] }
      match f with
      | .word => .done (s.finish i x.len [])
      | .sub .. | .split .. =>
        .waits (s.modSlot c k fun t => { t with wait := .load (t.pc + BitVec.ofNat 32 x.len) })

/-- A check that failed after a commit-first operation left concerns only such operations. -/
def State.notLeft (s : State) (i : Iss) (go : State → Act) : Act :=
  if i.check = .left then .waits (s.retryFiring i.cell i.slot) else go s

/-- A window address of a word of a device block. -/
def windowAddr (w : Nat) : Nat := localWord w * 4 % 2 ^ 24

/-- The side-effect stores that a side-effect access of a cell's strand to a word follows: the strand's own (08 R350),
and the cell's to the same device block, whose requests carry one stream identifier (10 R449; 08 R340). -/
def StEnt.leads (e : StEnt) (k : SlotId) (w : Nat) : Bool :=
  e.kind == .side && ((e.slot == k && !e.ended) || windowAddr e.addr / 2 ^ 19 == windowAddr w / 2 ^ 19)

/-- A side-effect load (03 R151, 08 R350, 10 R439, R449; 00 R11): performed once, after the side-effect stores that
come before it, its result recorded. -/
def State.sideLoad (s : State) (i : Iss) (x : LongOp) (w : Nat) : Act :=
  match s.cfBefore i true with
  | .error s => .waits s
  | .ok s =>
    if (s.cell i.cell).stbuf.any fun e => e.leads i.slot w then .waits (s.waitAgain i.cell i.slot)
    else if (regSpec (windowAddr w)).isNone then .stops (.deviceNotDescribed (BitVec.ofNat 24 (windowAddr w)))
    else
      let (v, s) := s.windowRead (windowAddr w)
      s.cfDone i x.len [(x.d, TWord.int v)]

/-- A load of `n` bytes; `byteForm` is a byte offset (03 R147). -/
def State.loadOp (s : State) (i : Iss) (x : LongOp) (n : Nat) (signed byteForm : Bool) : Outcome :=
  s.issue i x.len (x.legal .both false false) false x.regs (cf := true) fun s t =>
    match addressOf t x byteForm with
    | .error r => .event (tagEv r) s
    | .ok (va, o) =>
      if !t.loadsBound then .waits (s.waitOperand i.cell i.slot)
      else if 4 < o.toNat + n then
        s.onWords i va accSubLoad fun s e1 w1 e2 w2 =>
          s.notLeft i fun s => s.performLoad i x (.split o n signed) [(e1, w1), (e2, w2)]
      else
        s.onWord i va (if byteForm then accSubLoad else accLoad) fun s e w =>
          if e.se then s.sideLoad i x w
          else s.notLeft i fun s => s.performLoad i x (if n = 4 then .word else .sub o n signed) [(e, w)]

/-- LD (03 R148). -/
def execLd (i : Iss) (x : LongOp) (s : State) : Outcome := s.loadOp i x 4 false false
/-- LDB (03 R148). -/
def execLdb (i : Iss) (x : LongOp) (s : State) : Outcome := s.loadOp i x 1 true true
/-- LDBU (03 R148). -/
def execLdbu (i : Iss) (x : LongOp) (s : State) : Outcome := s.loadOp i x 1 false true
/-- LDH (03 R148, R153). -/
def execLdh (i : Iss) (x : LongOp) (s : State) : Outcome := s.loadOp i x 2 true true
/-- LDHU (03 R148, R153). -/
def execLdhu (i : Iss) (x : LongOp) (s : State) : Outcome := s.loadOp i x 2 false true
/-- LDX (03 R147, R153). -/
def execLdx (i : Iss) (x : LongOp) (s : State) : Outcome := s.loadOp i x 4 false true

/-- LOAD_DATA_RETURN fails its error code (09 R404): the word is POISON with a machine check, or the access is made
again. -/
def State.loadError (s : State) (c : CellId) (k : SlotId) (l : PLoad) (w : Nat) (tags : Bool) : State :=
  let g := clusterOf c
  let part (v : Option TWord) (s : State) : State := s.modSlot c k fun t =>
    { t with loads := t.loads.map fun y => if y.reg = l.reg then
        { y with parts := y.parts.map fun p => if p.1 = w then (w, v) else p } else y }
  match s.sectorError g w tags with
  | (some v, s) => part (some v) (s.ownCheck c k (clusterSource g 18) (localWord w * 4))
  | (none, s) =>
    match s.joinMiss g (s.slot c k).part (homeOf l.homing w) (sectorOf w) false (.load c k l.reg w) w
        (homeOf l.homing (w + 16)) with
    | none => s
    | some s => part none s

/-- LOAD_DATA_RETURN (09 R382, R404; 05 R214): the register is written, or the event of a sub-word or split
load is raised at its instruction. -/
def execLoadDataReturn (cell : CellId) (slot : SlotId) (reg : Reg) (ecc : Ecc) (s : State) : Outcome :=
  let t := s.slot cell slot
  match t.loads.find? fun l => l.reg == reg && !l.unbound && l.reserve.isNone with
  | none => idle s
  | some l =>
    let w := (l.parts.map Prod.fst).headD 0
    if l.cacheable && (ecc == .payload || ecc == .key) then .next (s.loadError cell slot l w (ecc == .key))
    else
      let s := if ecc = .corrected then
          (s.bump (cchBase (clusterOf cell).toNat + 0x38)).assertSrc (clusterSource (clusterOf cell) 18) else s
      let s := s.modSlot cell slot fun t => { t with loads := t.loads.filter fun y => y.reg != reg }
      match l.form.value (l.parts.filterMap Prod.snd), t.wait with
      | .ok v, .load next =>
        let s := s.modSlot cell slot fun t => { (t.setG reg v) with wait := .none, pc := next }
        .next ((s.afterInstr cell slot).sampled cell slot)
      | .ok v, _ => .next (s.modSlot cell slot fun t => { (t.setG reg v) with wait := t.wait.hasOperand })
      | .error r, _ => .next ((s.modSlot cell slot fun t => { t with wait := .none }).raiseInTurn cell slot (tagEv r) t.pc)

/-! ### Stores (03 R149, R150, R153; 08 R350, R351) -/

/-- A side-effect store (03 R96, R151; 10 R445): the device block takes it into its posted queue, behind those that the
block has of its cell. -/
def State.sideStore (s : State) (i : Iss) (x : LongOp) (w : Nat) (v : TWord) : Act :=
  if v.tag = Tag.poison then .event (tagEv 0x06) s
  else
    match s.cfAfter i (·.kind != .side) with
    | .error s => .waits s
    | .ok s =>
      let (n, s) := s.fresh
      let e := { storeEntry .side w 0 false 15 v with id := n, slot := i.slot, isSealed := true, sent := true }
      (s.modCell i.cell fun y => { y with stbuf := y.stbuf ++ [e] }).cfDone i x.len []

/-- The bytes that a store of `n` bytes at position `o` writes: in its word, and in the next one. -/
def maskLow (o : BitVec 2) (n : Nat) : BitVec 4 := BitVec.ofNat 4 ((2 ^ n - 1) * 2 ^ o.toNat)
def maskHigh (o : BitVec 2) (n : Nat) : BitVec 4 := BitVec.ofNat 4 ((2 ^ n - 1) * 2 ^ o.toNat / 16)

/-- A buffered store of a word, or of bytes; a POISON value stored by bytes makes the word POISON
(assumption 14). -/
def memEntry (e : TlbEnt) (w : Nat) (isSub : Bool) (m : BitVec 4) (v : TWord) (bytes : Word) : StEnt :=
  if isSub && v.tag != Tag.poison then storeEntry .sub w (homeOf e.homing w) e.c m (TWord.int bytes)
  else storeEntry .word w (homeOf e.homing w) e.c 15 v

/-- Take the stores of an instruction into the store buffer. -/
def State.takeStores (s : State) (i : Iss) (len : Nat) (es : List StEnt) : Act :=
  match s.bufferStores i.cell i.slot es with
  | none => .waits (s.storeWaits i.cell i.slot)
  | some s => .done (s.finish i len [])

/-- What a store's value may be: by bytes only INT, or POISON (03 R94; assumption 14). -/
def storeValue (t : Slot) (isSub : Bool) (v : TWord) : Except Byte Unit := do
  storable t v
  if isSub && v.tag != Tag.int && v.tag != Tag.poison then throw 0x01

/-- A store of `n` bytes. -/
def State.storeOp (s : State) (i : Iss) (x : LongOp) (n : Nat) (byteForm : Bool) : Outcome :=
  s.issue i x.len (x.legal .both false false) false x.regs (cf := true) fun s t =>
    match addressOf t x byteForm with
    | .error r => .event (tagEv r) s
    | .ok (va, o) =>
      let v := t.g x.d
      let own := s.ownStores i.cell i.slot
      let oldTag (s : State) (w : Nat) : Tag := (withOwn own w (s.peek w)).tag
      if 4 < o.toNat + n then
        s.onWords i va accSubStore fun s e1 w1 e2 w2 => s.notLeft i fun s =>
          match storeValue t true v with
          | .error r => .event (tagEv r) s
          | .ok _ =>
            let fits (w : Nat) : Bool := oldTag s w == Tag.int || oldTag s w == Tag.empty
            if !fits w1 || !fits w2 then .event (tagEv 0x0A) s
            else
              s.takeStores i x.len
                [memEntry e1 w1 true (maskLow o n) v (v.data <<< (8 * o.toNat)),
                 memEntry e2 w2 true (maskHigh o n) v (v.data >>> (32 - 8 * o.toNat))]
      else
        s.onWord i va (if byteForm then accSubStore else accStore) fun s e w =>
          let isSub := n != 4
          match storeValue t isSub v with
          | .error r => .event (tagEv r) s
          | .ok _ =>
            if e.se then s.sideStore i x w v
            else s.notLeft i fun s =>
              let g := oldTag s w
              if g = Tag.defer then .event (tagEv 0x09) s
              else if isSub ∧ g ≠ Tag.int ∧ g ≠ Tag.empty then .event (tagEv 0x0A) s
              else s.takeStores i x.len [memEntry e w isSub (maskLow o n) v (v.data <<< (8 * o.toNat))]

/-- ST (03 R149). -/
def execSt (i : Iss) (x : LongOp) (s : State) : Outcome := s.storeOp i x 4 false
/-- STB (03 R149). -/
def execStb (i : Iss) (x : LongOp) (s : State) : Outcome := s.storeOp i x 1 true
/-- STH (03 R149, R153). -/
def execSth (i : Iss) (x : LongOp) (s : State) : Outcome := s.storeOp i x 2 true
/-- STX (03 R147, R153). -/
def execStx (i : Iss) (x : LongOp) (s : State) : Outcome := s.storeOp i x 4 true

/-! ### Frame slots (03 R107, R154) -/

/-- The slot index of the long forms. -/
def slotIndex (x : LongOp) (t : Slot) : Except Byte (BitVec 8) :=
  (intOperand (x.opB t)).bind fun n => if 224 ≤ n.toNat then .error 0x0F else .ok (n.setWidth 8)

/-- LDS (03 R107, R118, R154). -/
def execLds (i : Iss) (f : Form) (s : State) : Outcome :=
  match f with
  | .short p => s.pair i 18 p
  | .long x =>
    s.issue i x.len (x.legal .both false false) false x.regs fun s t =>
      match slotIndex x t with
      | .error r => .event (tagEv r) s
      | .ok n => .done (s.finish i x.len [(x.d, s.slotWord i.cell i.slot (frameOf t.act.ctx) n)])

/-- STS (03 R107, R118, R154). -/
def execSts (i : Iss) (f : Form) (s : State) : Outcome :=
  match f with
  | .short p => s.pair i 19 p
  | .long x =>
    s.issue i x.len (x.legal .both false false) false x.regs fun s t =>
      let r : Except Byte (BitVec 8) := do
        let n ← slotIndex x t
        storable t (t.g x.d)
        return n
      match r with
      | .error r => .event (tagEv r) s
      | .ok n => s.takeStores i x.len [storeEntry (.slot (frameOf t.act.ctx) n) 0 0 false 0 (t.g x.d)]

/-! ### Split-phase requests (03 R155, 02 R82) -/

/-- LDP and IFETCH: the address is translated here, the request leaves at commit as a commit item. -/
def State.requestOp (s : State) (i : Iss) (x : LsOp) (isFetch : Bool) : Outcome :=
  s.issue i x.len x.legal false [x.v, x.c] fun s t =>
    let addr : Except Byte Word := do
      let a ← ptrOperand (t.g x.c)
      let n ← if x.v = 0 then pure 0 else intOperand (t.g x.v)
      return a + n
    match addr with
    | .error r => .event (tagEv r) s
    | .ok va =>
      s.onWord i va accSplit fun s e w =>
        let (n, s) := s.fresh
        let trc := if (s.frame (frameOf t.act.ctx)).tracing then flTrace else 0
        let resp := mkToken t.act.ctx x.statement (iterOf t x.itm) x.port (flDefr ||| trc) t.sid TWord.zero
        let rq : Request := { id := n, fetch := isFetch, addr := w, va := va, homing := e.homing
                              cacheable := e.c, part := t.part, resp := resp, reissue := false, deferred := false }
        match (s.slot i.cell i.slot).addItem (.request rq) with
        | .error r => .event (tagEv r) s
        | .ok t => .done ((s.setSlot i.cell i.slot t).finish i x.len [])

/-- LDP (03 R155). -/
def execLdp (i : Iss) (x : LsOp) (s : State) : Outcome := s.requestOp i x false
/-- IFETCH (03 R155, 02 R81). -/
def execIfetch (i : Iss) (x : LsOp) (s : State) : Outcome := s.requestOp i x true

/-! ### I-structure operations (03 R156, 10 R439) -/

/-- ISTORE and ICLEAR leave for the word's home. -/
def State.iStructure (s : State) (i : Iss) (x : LongOp) (value : Slot → Except Byte TWord)
    (op : TWord → HomeOp) : Outcome :=
  s.issue i x.len (x.legal .both false false) false x.regs (cf := true) fun s t =>
    match addressOf t x false with
    | .error r => .event (tagEv r) s
    | .ok (va, _) =>
      s.onWord i va accHomeW fun s e w =>
        match value t with
        | .error r => .event (tagEv r) s
        | .ok v =>
          match s.cfBefore i true with
          | .error s => .waits s
          | .ok s => s.hopOut i e w (op v) none x.len

/-- ISTORE (03 R156, 02 R81). -/
def execIstore (i : Iss) (x : LongOp) (s : State) : Outcome :=
  s.iStructure i x (fun t => (storable t (t.g x.d)).map fun _ => t.g x.d) fun v => .istore i.cell i.slot (s.slot i.cell i.slot).part v
/-- ICLEAR (03 R156, 02 R81). -/
def execIclear (i : Iss) (x : LongOp) (s : State) : Outcome :=
  s.iStructure i x (fun _ => .ok TWord.empty) fun _ => .iclear i.cell i.slot

/-! ### The reserved pair (03 R157, 10 R441 to R443) -/

/-- LOADR: on a page with C it needs the sector with write permission; else it is performed at the word's
home, which keeps the reservation, as it is for a word in another cluster's Pantry (09 R395). It replaces the strand's
reservation, and the one that an earlier LOADR, still outstanding, would set. -/
def State.loadReserve (s : State) (i : Iss) (x : LongOp) (e : TlbEnt) (w : Nat) : Act :=
  let c := i.cell
  let k := i.slot
  let g := clusterOf c
  let sec := sectorOf w
  let t := s.slot c k
  let own := s.ownStores c k
  let take (s : State) (v : Option TWord) (r : Option Nat) : Act :=
    let l : PLoad := { reg := x.d, form := .word, parts := [(w, v.map (withOwn own w))], homing := e.homing
                       cacheable := e.c, own := own, reserve := if v.isSome then none else r, noFill := true }
    .done ((s.modSlot c k fun t =>
      { t with loads := t.endResv.loads ++ [l], resv := if v.isSome then r else none
               holdProbes := t.holdProbes || decide (2 ≤ t.storecFails) }).finish i x.len [])
  if !e.c || ((s.pantryOf w).isSome && s.pantryOf w != some g) then
    take (s.toHome sec (.hop (homeOf e.homing w) (s.agentOf g) w (.loadr c k x.d))) none (some sec)
  else
    match s.clusterRead g t.part w with
    | (.waits, s) => .waits (s.waitOperand c k)
    | (.hit v, s) =>
      if s.pantryOf w = some g || (s.cluster g).writable sec then take s (some v) (some sec)
      else if ((s.cluster g).missOf sec).isSome then .waits (s.waitOperand c k)
      else
        match s.joinMiss g t.part (homeOf e.homing w) sec true (.load c k x.d w) w (homeOf e.homing (w + 16)) with
        | none => .waits ((s.porchWait c k).waitOperand c k)
        | some s => take s none (some sec)
    | (.miss, s) =>
      let fits := match (s.cluster g).missOf sec with | some m => m.wantX | none => true
      if !fits then .waits (s.waitOperand c k)
      else
        match s.joinMiss g t.part (homeOf e.homing w) sec true (.load c k x.d w) w (homeOf e.homing (w + 16)) with
        | none => .waits ((s.porchWait c k).waitOperand c k)
        | some s => take s none (some sec)

/-- LOADR (03 R157, 10 R441). -/
def execLoadr (i : Iss) (x : LongOp) (s : State) : Outcome :=
  s.issue i x.len (x.legal .both false false) false x.regs fun s t =>
    match addressOf t x false with
    | .error r => .event (tagEv r) s
    | .ok (va, _) =>
      if !t.loadsBound then .waits (s.waitOperand i.cell i.slot)
      else s.onWord i va accHomeR fun s e w => s.loadReserve i x e w

/-- The perturbation register forces this STOREC to write BOOL 0 (13 R579): the (EVERY + 1)-th of a masked
cell. -/
def State.storecForced (s : State) (c : CellId) : Bool × State :=
  let r := s.reg (tstBase + 0x110 + 0x20 * (clusterOf c).toNat)
  if !bit r (cellIndex c) then (false, s)
  else
    let n := (s.cell c).storecs + 1
    (n % (field r 19 16 + 1) == 0, s.modCell c fun x => { x with storecs := n })

/-- STOREC's outcome for its strand: BOOL, and how many in a row failed (10 R443). -/
def Slot.storecDone (t : Slot) (ok : Bool) : Slot :=
  { t with resv := none, holdProbes := false, storecFails := if ok then 0 else t.storecFails + 1 }

/-- A strand's place in the rotating order of its cluster: cell, then slot (10 R443). -/
def strandNo (c : CellId) (k : SlotId) : Nat := c.toNat % 16 * 8 + k.toNat

/-- The service of a strand whose reservation qualifies has ended: the next in the order follows (10 R443). -/
def State.endTurn (s : State) (c : CellId) (k : SlotId) : State :=
  if (s.slot c k).holdProbes then s.modCluster (clusterOf c) fun cl => { cl with turn := strandNo c k } else s

/-- STOREC has its outcome. -/
def State.storecEnds (s : State) (c : CellId) (k : SlotId) (ok : Bool) : State :=
  (s.endTurn c k).modSlot c k fun t => t.storecDone ok

/-- STOREC on a page with C: performed in the cluster cache while the reservation holds (10 R442). The
commit point before it does not end the reservation that it tests (DEDUCED, assumption 15). -/
def State.storeConditional (s : State) (i : Iss) (x : LongOp) (w : Nat) (v : TWord) (resv : Option Nat) : Act :=
  let c := i.cell
  let k := i.slot
  let g := clusterOf c
  let sec := sectorOf w
  let (forced, s) := s.storecForced c
  let cl := s.cluster g
  let held := resv == some sec && !forced
    && (s.pantryOf w == some g || (cl.writable sec && (cl.combineOf sec).isNone && (cl.porchOf sec).isNone))
  let s := if held then s.clusterWrite g w (some (c, k)) fun _ => v else s
  (s.storecEnds c k held).cfDone i x.len [(x.d, TWord.bool held)]

/-- STOREC (03 R157, 10 R441, R442). A DEFER word is not overwritten: the tag event of an ordinary store
(DEDUCED, assumption 15). R117 gives its major the layouts LR and LI, R157 a value in register B: in layout LI, which
has no B, the word is an illegal encoding (DESIGN CHOICE, assumption 117). -/
def execStorec (i : Iss) (x : LongOp) (s : State) : Outcome :=
  s.issue i x.len (x.legal .lr false false) false x.regs (cf := true) fun s t =>
    match ptrOperand (t.g x.a) with
    | .error r => .event (tagEv r) s
    | .ok va =>
      s.onWord i va accHomeW fun s e w =>
        let v := t.g x.b
        match storable t v with
        | .error r => .event (tagEv r) s
        | .ok _ =>
          if (withOwn (s.ownStores i.cell i.slot) w (s.peek w)).tag = Tag.defer then .event (tagEv 0x09) s
          else
            let back (s : State) : State := s.modSlot i.cell i.slot fun y => { y with resv := t.resv }
            match s.cfBefore i true with
            | .error s => .waits (back s)
            | .ok s =>
              let away := (s.pantryOf w).isSome && s.pantryOf w != some (clusterOf i.cell)
              if e.c && !away then s.storeConditional i x w v t.resv
              else
                let (forced, s) := s.storecForced i.cell
                if forced || t.resv != some (sectorOf w) then
                  (s.storecEnds i.cell i.slot false).cfDone i x.len [(x.d, TWord.bool false)]
                else s.hopOut i e w (.storec i.cell i.slot v) (some x.d) x.len

/-- RESERVATION_HOLD_END (10 R443): the cluster no longer holds probes for the strand's reserved sector. -/
def execReservationHoldEnd (cell : CellId) (slot : SlotId) (s : State) : Outcome :=
  whenever (s.slot cell slot).holdProbes s fun s =>
    .next ((s.endTurn cell slot).modSlot cell slot fun t => { t with holdProbes := false })

/-! ### Fences (03 R158 to R160, 10 R444) -/

/-- A fence that waits for the strand's stores: inside the instruction (05 R223). -/
def State.storeFence (s : State) (i : Iss) (x : LongOp) : Outcome :=
  s.issue i x.len (x.legal .lr false false) false [x.d] fun s t =>
    if !t.allWritten then .waits (s.waitAgain i.cell i.slot)
    else if s.awaitsTwin i.cell i.slot then .waits (s.waitTwin i.cell i.slot)
    else
      let s := s.commitPoint i.cell i.slot t.pc
      if (s.storesOf i.cell i.slot).isEmpty then
        let ok := !t.storeLost
        let s := s.modSlot i.cell i.slot fun t => { t with storeLost := false }
        .done (s.finish i x.len [(x.d, TWord.bool ok)])
      else .waits (s.waitAgain i.cell i.slot)

/-- A fence that waits for the strand's loads. -/
def State.loadFence (s : State) (i : Iss) (x : LongOp) : Outcome :=
  s.issue i x.len (x.legal .lr false false) false [x.d] fun s t =>
    if t.loadsBound then .done (s.finish i x.len [(x.d, TWord.bool true)]) else .waits (s.waitOperand i.cell i.slot)

/-- FENCE (03 R158, R159). -/
def execFence (i : Iss) (x : LongOp) (s : State) : Outcome := s.storeFence i x
/-- FENCE.SL (03 R158, R159). -/
def execFenceSL (i : Iss) (x : LongOp) (s : State) : Outcome := s.storeFence i x
/-- FENCE.SS (03 R158, R159). -/
def execFenceSS (i : Iss) (x : LongOp) (s : State) : Outcome := s.storeFence i x
/-- FENCE.LL (03 R158, R159). -/
def execFenceLL (i : Iss) (x : LongOp) (s : State) : Outcome := s.loadFence i x
/-- FENCE.LS (03 R158, R159). -/
def execFenceLS (i : Iss) (x : LongOp) (s : State) : Outcome := s.loadFence i x

/-- IFENCE (03 R160, 05 R220): a commit point, and the strand's stores are visible to fetch. -/
def execIfence (i : Iss) (x : LongOp) (s : State) : Outcome :=
  s.issue i x.len (x.legal .lr false false) false [] fun s t =>
    if !t.allWritten then .waits (s.waitAgain i.cell i.slot)
    else if s.awaitsTwin i.cell i.slot then .waits (s.waitTwin i.cell i.slot)
    else
      let s := s.commitPoint i.cell i.slot t.pc
      if (s.storesOf i.cell i.slot).all fun e => e.kind == .side then .done (s.finish i x.len [])
      else .waits (s.waitAgain i.cell i.slot)

/-! ### Maintenance by address (09 R399 to R402) -/

/-- CLEAN, FLUSH and ZERO take a store-buffer entry. -/
def State.maintain (s : State) (i : Iss) (x : LongOp) (kind : StKind) (a : Access) : Outcome :=
  s.issue i x.len (x.legal .lr false false && x.d == 0) true x.regs fun s t =>
    match addressOf t x false with
    | .error r => .event (tagEv r) s
    | .ok (va, _) =>
      s.onWord i va a fun s e w =>
        s.takeStores i x.len [storeEntry kind w (homeOf e.homing w) e.c 0 TWord.zero]

/-- CMAINT.CLEAN (09 R399 to R401). -/
def execCmaintClean (i : Iss) (x : LongOp) (s : State) : Outcome :=
  s.maintain i x .clean { kind := 1, needR := true }
/-- CMAINT.FLUSH (09 R399 to R401). -/
def execCmaintFlush (i : Iss) (x : LongOp) (s : State) : Outcome :=
  s.maintain i x .flush { kind := 1, needR := true }
/-- CMAINT.ZERO (09 R399 to R401). -/
def execCmaintZero (i : Iss) (x : LongOp) (s : State) : Outcome := s.maintain i x .zero accSubStore

/-- The table reads of a stage-2 translation (08 R344): none where the cluster TLB holds the block's entry. -/
def State.stage2Reads (s : State) (g : BitVec 4) (p : BitVec 6) (pa : Nat) : Nat :=
  if (s.cluster g).tlb2.any fun e => e.part == p && e.pblk == pa / 2 ^ 21 then 0
  else if (s2Table (s.peek64 (s.s2RootAt p pa))).isSome then 2 else 1

/-- The table reads of a whole walk, made within one step (08 R344). -/
def State.quietReads (s : State) (g : BitVec 4) (sid : BitVec 16) (p : BitVec 6) (va : Word) : Nat :=
  let n := if (s.cluster g).roots.any fun r => r.1 == sid then 0 else 1
  let level (n pa lv : Nat) (next : Nat → BitVec 64 → Nat) : Nat :=
    let n := n + s.stage2Reads g p pa
    if (s.stage2 p pa).any fun l => !l.dev then
      match s.blockS1 p lv pa with
      | .ok e => next (n + 1) e
      | .error _ => n + 1
    else n
  match s.spaceEntry sid with
  | none => n
  | some (root, q) =>
    if q ≠ p then n
    else level n (root + 8 * (va.toNat / 2 ^ 19)) 2 fun n e =>
      if e.getLsbD 1 then n + s.stage2Reads g p (leafPa e true va)
      else level n (level2At e va) 3 fun n e => n + s.stage2Reads g p (leafPa e false va)

/-- The translation of an access that raises no event: none when it would fault (08 R345, 09 R400). A page
in no TLB is walked within the step, its misses and reads counted (08 R365) and the entry found installed. -/
def State.quietXlate (s : State) (c : CellId) (t : Slot) (va : Word) (a : Access) : Option (TlbEnt × Nat) × State :=
  let win := t.windowed va a
  let sid := s.sidFor c t win
  let g := clusterOf c
  let (ent, s) : Option TlbEnt × State :=
    match s.tlbLookup c sid t.part va with
    | (some e, s) => (some e, s)
    | (none, s) =>
      let s := (s.pmc c (some t.sup) 0x11).bumpBy (trnBase g.toNat + 0x24) (s.quietReads g sid t.part va)
      match s.blockLeaf sid va with
      | .error _ => (none, s)
      | .ok (p, e, big) =>
        if p ≠ t.part then (none, s)
        else
          match s.stage2 p (leafPa e big va) with
          | none => (none, s)
          | some l =>
            let e := tlbEntry sid p va e big l
            (some e, (s.clusterTlbInstall g e).cellTlbInstall c e)
  let found := ent.bind fun e =>
    let j : Judge := if win then .window else if t.sup then .sup else .user
    match e.check a j (s.devGranted t.part (localWord (e.word va) * 4 % 2 ^ 24)) with
    | some _ => none
    | none => some (e, e.word va)
  (found, s)

/-- CMAINT.PREFETCH (09 R399, R400, R402, R381): it acts at issue and raises no event of translation. -/
def execCmaintPrefetch (i : Iss) (x : LongOp) (s : State) : Outcome :=
  s.issue i x.len (x.legal .lr false false && x.d == 0) true x.regs fun s t =>
    match addressOf t x false with
    | .error r => .event (tagEv r) s
    | .ok (va, _) =>
      let g := clusterOf i.cell
      let s := match s.quietXlate i.cell t va { kind := 0, needR := true } with
        | (none, s) => s
        | (some (e, w), s) =>
          let cl := s.cluster g
          let sec := sectorOf w
          if !e.c || (s.pantryOf w).isSome || (cl.sectorAt sec).st != 0 || (cl.missOf sec).isSome
              || (cl.porchOf sec).isSome then s
          else (s.openMiss g { newMiss sec (homeOf e.homing w) 0 t.part with prefetch := true }).getD s
      .done (s.finish i x.len [])

/-! ### Deferred readers (02 R81, R82; 03 R710) -/

/-- The readers that a store finds waiting at its drain are answered with the word it leaves (03 R710). -/
def State.answerAtDrain (s : State) (c : CellId) (e : StEnt) : State :=
  let old := s.peek e.addr
  if old.tag = Tag.defer ∧ (e.kind = .word ∨ e.kind = .sub) then
    s.answerReaders e.home (s.partOfCell c) old.data (storedWord e.kind e.mask e.val old)
  else s

/-! ### The store buffer's commands (09 R371, R372, R387; 10 R437) -/

/-- Mark an entry of a cell's store buffer. -/
def State.modStore (s : State) (c : CellId) (n : Nat) (f : StEnt → StEnt) : State :=
  s.modCell c fun x => { x with stbuf := x.stbuf.map fun e => if e.id = n then f e else e }

/-- The entry has left the buffer's head; and it is performed. -/
def StEnt.gone (e : StEnt) : StEnt := { e with sent := true }
def StEnt.made (e : StEnt) : StEnt := { e with sent := true, performed := true }

/-- Perform an entry in a sector that the cluster holds in X, or in its Pantry. -/
def State.storeHere (s : State) (c : CellId) (e : StEnt) : State :=
  let g := clusterOf c
  let by_ := some (c, e.slot)
  match e.kind with
  | .zero =>
    s.each (List.range 16) fun s j =>
      let w := sectorOf e.addr * 16 + j
      s.clusterWrite g w by_ (storedWord .zero 0 TWord.zero)
  | k => (s.answerAtDrain c e).clusterWrite g e.addr by_ (storedWord k e.mask e.val)

/-- Put a store in a COMBINE entry and ask for the sector with write permission (09 R387). None when it
must wait in the store buffer. -/
def State.combine (s : State) (c : CellId) (e : StEnt) : Option State :=
  let g := clusterOf c
  let cl := s.cluster g
  let sec := sectorOf e.addr
  let mine : Nat × StEnt := (c.toNat, e)
  match cl.combineOf sec with
  | some _ => some (s.modCluster g fun cl => { cl with porch := cl.porch.map fun q =>
      if q.state == .combine && q.sector == sec then { q with stores := q.stores ++ [mine] } else q })
  | none =>
    if 16 ≤ (cl.porch.filter fun q => q.state == .combine).length ∨ 32 ≤ cl.porch.length then none
    else
      let put (s : State) : State := s.modCluster g fun cl => { cl with porch := cl.porch ++
        [{ state := .combine, block := sec / 4, home := e.home, sectors := [], sector := sec, stores := [mine] }] }
      match cl.missOf sec with
      | some m => if m.doomed then none else some (put s)
      | none =>
        let held := (cl.sectorAt sec).st == 1
        let isZero := e.kind == .zero
        (s.openMiss g { newMiss sec e.home 0 (s.partOfCell c) with
            wantX := true, upg := held && !isZero, zero := isZero, reqs := [.store c e.id]
            firstBeat := e.addr % 16 / 4 }).map put

/-- Drain one entry: some state when it left the buffer's head. -/
def State.drainOne (s : State) (c : CellId) (e : StEnt) : Option State :=
  let g := clusterOf c
  let sec := sectorOf e.addr
  let hop (op : HomeOp) : Option State :=
    some ((s.modStore c e.id StEnt.gone).toHome sec (.hop e.home (s.agentOf g) e.addr op))
  let upkeep : Bool := e.kind == .clean || e.kind == .flush
  if upkeep && (!e.cacheable || (s.pantryOf e.addr).isSome) then some (s.modStore c e.id StEnt.made)
  else if e.kind = .clean then hop (.clean c e.id)
  else if e.kind = .flush then hop (.flush c e.id)
  else if !e.cacheable || ((s.pantryOf e.addr).isSome && s.pantryOf e.addr != some g) then
    if e.kind = .zero then hop (.zero c e.id)
    else
      let m : BitVec 4 := if e.kind = .word then 15 else e.mask
      hop (.store c e.id (s.partOfCell c) m e.val)
  else if s.pantryOf e.addr = some g then some ((s.storeHere c e).modStore c e.id StEnt.made)
  else
    let s := s.takeBack g (s.partOfCell c) sec
    let cl := s.cluster g
    if (cl.porchOf sec).isSome then none
    else if cl.writable sec && (cl.combineOf sec).isNone then
      some (((s.storeHere c e).bump (cchBase g.toNat + 0x20)).modStore c e.id StEnt.made)
    else (s.combine c e).map fun (s : State) => s.modStore c e.id StEnt.gone

/-- STORE_DRAIN (09 R371, R387; 10 R437; 03 R710): the first sealed entry of the cell drains. A store that
is not performed yet holds back the cell's later stores, but for those that merge into its sector. -/
def execStoreDrain (cell : CellId) (s : State) : Outcome :=
  let x := s.cell cell
  match x.stbuf.find? fun e => e.isSealed && !e.sent with
  | none => idle s
  | some e =>
    let ahead := x.stbuf.filter fun y => y.sent && !y.performed && y.kind != .side
    let merges := ahead.all fun y => y.cacheable && e.cacheable && sectorOf y.addr == sectorOf e.addr
      && ((s.cluster (clusterOf cell)).combineOf (sectorOf e.addr)).isSome
    if !merges then idle s
    else
      match s.drainOne cell e with
      | some s => .next s
      | none =>
        if e.waited then idle s
        else .next ((s.bump (cchBase (clusterOf cell).toNat + 0x34)).modStore cell e.id fun y => { y with waited := true })

/-- STORE_ACK (09 R372): a performed store leaves the buffer. -/
def execStoreAck (cell : CellId) (entry : Nat) (s : State) : Outcome :=
  whenever ((s.cell cell).stbuf.any fun e => e.id == entry && e.performed) s fun s =>
    .next (s.modCell cell fun x => { x with stbuf := x.stbuf.filter fun e => e.id != entry })

/-- SIDE_EFFECT_STORE_ACK (10 R445): the device performs the store, after those that come before it (08 R350, 10
R449). -/
def execSideEffectStoreAck (cell : CellId) (entry : Nat) (s : State) : Outcome :=
  match (s.cell cell).stbuf.find? fun e => e.id == entry && e.kind == .side with
  | none => idle s
  | some e =>
    let a := BitVec.ofNat 24 (windowAddr e.addr)
    if ((s.cell cell).stbuf.takeWhile fun y => y.id != entry).any fun y => y.leads e.slot e.addr then idle s
    else onRegister a s fun s =>
      .next ((s.windowWrite (.strand cell) a.toNat e.val.data).modCell cell fun x =>
        { x with stbuf := x.stbuf.filter fun e => e.id != entry })

/-- STORE_LOST (10 R446): a side-effect store, or a store homed on a dead module, is retired as lost. -/
def execStoreLost (cell : CellId) (entry : Nat) (s : State) : Outcome :=
  match (s.cell cell).stbuf.find? fun e => e.id == entry && e.sent && !e.performed with
  | none => idle s
  | some e =>
    let dead := !s.isOwn e.addr && s.hier.gone.contains (BitVec.ofNat 12 (modOf e.addr))
    if e.kind ≠ .side ∧ !dead then idle s
    else
      let t := s.slot cell e.slot
      let h := if e.kind = .side then clusterOf cell else e.home
      let s := (s.bump (dirBase h.toNat + 0x3C)).log 2 (t.part.setWidth 8)
        (natLe 8 (localWord e.addr * 4) ++ natLe 2 t.sid.toNat ++ natLe 2 cell.toNat)
      let s := s.assertSrc (homeSource h 3)
      let s := if e.ended then s else s.modSlot cell e.slot fun t => { t with storeLost := true }
      .next (s.modCell cell fun x => { x with stbuf := x.stbuf.filter fun e => e.id != entry })

end Sys2Proof.Machine
end

