-- ==== Sys2Proof/Machine/System.lean ====
section
/-! DEFINITION. Contexts and placement on one module (03 R138 to R142, 07 R281 to R292), work (03 R144 to
R146, 07 R310 to R318), ledger and mailbox submissions (11 R476, R719, 14 R600 to R602), and TLB
invalidation (08 R357, R358). -/

namespace Sys2Proof.Machine

/-! ### Placement (07 R281 to R289) -/

/-- The classes of 07 R281. -/
abbrev clsLatency : BitVec 2 := 1
abbrev clsThroughput : BitVec 2 := 2
abbrev clsIo : BitVec 2 := 3

/-- The cluster to which a port attaches (01 R24). -/
def attachCluster (n : BitVec 3) : BitVec 4 :=
  BitVec.ofNat 4 (if n.toNat < 4 then 4 * n.toNat else 4 * (n.toNat - 4) + 3)

/-- Hops between two clusters of the 4 by 4 mesh (01 R23). -/
def hops (a b : BitVec 4) : Nat :=
  let d (x y : Nat) := if x < y then y - x else x - y
  d (a.toNat / 4) (b.toNat / 4) + d (a.toNat % 4) (b.toNat % 4)

/-- The pin set of a port in a partition (07 R284): by default the port's attachment cluster. -/
def State.pinSet (s : State) (p : BitVec 6) (n : BitVec 3) : BitVec 16 :=
  (Map.get none (s.part p).pins n.toNat).getD (1 <<< (attachCluster n).toNat)

/-- Keep what `f` names, unless nothing would be left (07 R285). -/
def restrict (xs : List CellId) (f : CellId → Bool) : List CellId :=
  let ys := xs.filter f
  if ys = [] then xs else ys

/-- What an allocation asks for, with the class already inherited. -/
structure Placing where
  part : BitVec 6
  cls : BitVec 2
  port : BitVec 3
  pin : Bool
  nomig : Bool
  aff : BitVec 8
  ref : BitVec 4
  deriving DecidableEq, Repr

/-- The candidate set (07 R285). -/
def State.candidates (s : State) (q : Placing) : List CellId :=
  let xs := (s.part q.part).cells.filter fun c => !s.noPlace c
  let xs := if q.pin then restrict xs fun c => (s.pinSet q.part q.port).getLsbD (clusterOf c).toNat else xs
  let (anchor, members) := Map.get (0, 0) (s.part q.part).affs q.aff.toNat
  let xs := if q.aff ≠ 0 ∧ members ≠ 0 then restrict xs fun c => clusterOf c == anchor else xs
  if q.cls = clsLatency then restrict xs fun c => decide (hops (clusterOf c) q.ref ≤ 1)
  else if q.cls = clsIo ∧ !q.pin then
    restrict xs fun c => decide (hops (clusterOf c) (attachCluster q.port) ≤ 1)
  else xs

/-- The score of a cell (07 R286), from its samples (R287). -/
def State.score (s : State) (q : Placing) (c : CellId) : Nat :=
  let w := s.reg (clcBase q.ref.toNat + 0xD04)
  let (inq, ready, frames) := Map.get (0, 0, 0) s.samples c.toNat
  let ref := if q.cls = clsIo then attachCluster q.port else q.ref
  let dist := if q.cls = clsThroughput then 0 else hops (clusterOf c) ref
  field w 31 24 * (inq / 16 + ready) + field w 23 16 * (frames / 256) + field w 15 8 * dist

/-- The cell with the lowest score; on a tie the first at or after the rotating pointer (07 R286). -/
def State.bestCell (s : State) (q : Placing) (xs : List CellId) : Option CellId :=
  let order := (List.range 256).map fun i => BitVec.ofNat 8 (s.placePtr + i)
  let here := order.filter xs.contains
  here.foldl (fun best c =>
    match best with
    | none => some c
    | some b => if s.score q c < s.score q b then some c else some b) none

/-- The first free frame number at or after `n`; never frame 0. `fuel` exceeds the frames in use. -/
def State.freeFrameFrom (s : State) : Nat → Nat → Option (BitVec 20)
  | 0, _ => none
  | fuel + 1, n =>
    let f := BitVec.ofNat 20 n
    if f ≠ 0 ∧ (s.ctxEnt f).valid = false then some f else State.freeFrameFrom s fuel (n + 1)

/-- Frames that a partition holds. -/
def State.framesHeld (s : State) (p : BitVec 6) : Nat :=
  (s.frames.filter fun e => e.2.state != stFree && e.2.part == p).length

/-- Make the frame of a new context on a cell (03 R139, 07 R289, R299). FREE VALUE: where the search for a free
frame number begins. None when no frame is left. -/
def State.settle (s : State) (q : Placing) (x : Frame) (c : CellId) : Option (Word × State) :=
  if (s.part q.part).quota ≤ s.framesHeld q.part then none
  else
    let (r, s) := s.draw
    match s.freeFrameFrom (s.ctxMap.length + 2) (r.toNat % 2 ^ 20) with
    | none => none
    | some f =>
      let ctx := s.ctxOf f
      let s := s.setFrame f
        { x with part := q.part, state := stActive, ctx := ctx, lastCommit := s.now, aff := q.aff, cls := q.cls
                 port := q.port, pin := q.pin, nomig := q.nomig }
      let s := s.modCtxEnt f fun e => { e with valid := true, moving := false, cell := c }
      some (ctx, s.modPart q.part fun y =>
        if q.aff = 0 then y
        else
          let (anchor, members) := Map.get (0, 0) y.affs q.aff.toNat
          { y with affs := Map.set (0, 0) y.affs q.aff.toNat
                            (if members = 0 then clusterOf c else anchor, members + 1) })

/-- Place a context on this module and make its frame (03 R139, 07 R285 to R289). None when it fails
(07 R288). -/
def State.place (s : State) (q : Placing) (x : Frame) : Option (Word × State) :=
  match s.bestCell q (s.candidates q) with
  | none => none
  | some c =>
    match s.settle q x c with
    | none => none
    | some (ctx, s) =>
      let (inq, ready, frames) := Map.get (0, 0, 0) s.samples c.toNat
      let s := { s with samples := Map.set (0, 0, 0) s.samples c.toNat (inq, ready + 1, frames)
                        placePtr := (c.toNat + 1) % 256 }
      some (ctx, s.pmc c none 0x40)

/-! ### ALLOC and FREE (03 R138 to R142) -/

/-- The fields of a hint (07 R281). -/
def hintClass (h : Word) : BitVec 2 := BitVec.ofNat 2 (field h 13 12)
def hintPort (h : Word) : BitVec 3 := BitVec.ofNat 3 (field h 19 17)
def hintAff (h : Word) : BitVec 8 := h.setWidth 8

/-- A hint that ALLOC refuses (07 R282). -/
def badHint (h : Word) : Bool :=
  field h 31 20 != 0 || field h 11 8 != 0 || (bit h 16 && hintClass h != clsIo)

/-- What an allocation asks for (07 R281 to R283). `heir` is the allocating context, none where the new
context has no allocating context of its own space. -/
def placing (p : BitVec 6) (ref : BitVec 4) (h : Word) (heir : Option Frame) (sup : Bool) : Placing :=
  let cls := hintClass h
  let own := if cls = 0 then (match heir with | some x => x.cls | none => clsThroughput) else cls
  { part := p
    cls := own
    port := if cls = clsIo then hintPort h
      else if own = clsIo then (match heir with | some x => x.port | none => 0) else 0
    pin := bit h 16 && sup, nomig := bit h 15, aff := hintAff h, ref := ref }

/-- The module on which an ALLOC with LOCAL clear places (07 R292): weighted rotation over the span's
weights (DESIGN CHOICE, assumption 21: the rotation's position counts weights in module order). -/
def Part.rotate (x : Part) (own : BitVec 12) : BitVec 12 :=
  let total := (x.weights.map fun w => w.2.toNat).sum
  if total = 0 then own
  else
    let pos := x.spanPtr % total
    let pick : Option (BitVec 12) × Nat → BitVec 12 × BitVec 8 → Option (BitVec 12) × Nat :=
      fun (got, seen) (m, w) =>
        match got with
        | some g => (some g, seen)
        | none => if pos < seen + w.toNat then (some m, seen) else (none, seen + w.toNat)
    (x.weights.foldl pick (none, 0)).1.getD own

/-- The hint that goes to a peer module: the class and the port as this module resolved them from the allocating context,
and a PIN that user mode may not set is 0 (07 R282, R283). -/
def Placing.hint (q : Placing) (h : Word) : Word :=
  withField (withField (withField h 13 12 q.cls.toNat) 19 17 q.port.toNat) 16 16 (if q.pin then 1 else 0)

/-- The continuation of a new frame, as a peer is told it (03 R140). -/
def Frame.cont (x : Frame) : Option Cont :=
  if x.contCtx = 0 then none
  else some { ctx := x.contCtx, stmt := x.contStmt, iter := x.contIter, port := x.contPort, sid := x.contSid }

/-- A new frame with the continuation that a peer's allocation names. -/
def Frame.withCont (x : Frame) (c : Option Cont) : Frame :=
  match c with
  | some c => { x with contCtx := c.ctx, contStmt := c.stmt, contIter := c.iter, contPort := c.port, contSid := c.sid }
  | none => x

/-- Allocate for a strand: on this module, or on a peer of the span. FREE VALUE: a peer's answer. -/
def State.allocate (s : State) (q : Placing) (x : Frame) (hint : Word) : Word × State :=
  let own := s.hier.modn
  let isLocal := bit hint 14 || (s.part q.part).weights.isEmpty
  let chosen := if isLocal then own else (s.part q.part).rotate own
  let s := if isLocal then s else s.modPart q.part fun y => { y with spanPtr := y.spanPtr + 1 }
  let away (s : State) (m : BitVec 12) : Word × State :=
    let (r, s) := s.draw
    let f : BitVec 20 := r.setWidth 20
    let s := s.emit (.placement m q.part x.sid x.code (q.hint hint) x.cont)
    if f = 0 then (0, s) else (m ++ f, s)
  if chosen ≠ own then away s chosen
  else
    match s.place q x with
    | some r => r
    | none =>
      let others := (s.part q.part).weights.filter fun w => w.1 != own && w.2 != 0
      match isLocal, (s.part q.part).quiesced, others with
      | false, true, (m, _) :: _ => away s m
      | _, _, _ => (0, s)

/-- ALLOC and its variants (03 R138 to R141, 07 R281 to R283): the SID of the new context and whether it
has a continuation. -/
def State.allocOp (s : State) (i : Iss) (x : LongOp) (otherSpace hasCont : Bool) : Outcome :=
  let legal := x.legal (if hasCont then .li else .lr) false false
    && (!hasCont || ((preImm x.pre).isSome && field x.imm 31 18 == 0))
  s.issue i x.len legal otherSpace x.regs (cf := true) fun s t =>
    let a := t.g x.a
    let args : Except Byte Word := do
      if a.tag = Tag.poison then throw 0x05
      if a.tag ≠ Tag.code then throw 0x01
      let h ← intOperand (if hasCont then t.g x.d else t.g x.b)
      if badHint h then throw 0x0F
      return h
    match args with
    | .error r => .event (tagEv r) s
    | .ok h =>
      match s.cfBefore i false with
      | .error s => .waits s
      | .ok s =>
        let me := s.frame (frameOf t.act.ctx)
        let sid := if otherSpace then t.xsid else t.sid
        let s := if bit h 16 && !t.sup then s.pmc i.cell (some t.sup) 0x41 else s
        let heir := if sid = t.sid then some me else none
        let q := placing t.part (clusterOf i.cell) h heir t.sup
        let x0 : Frame := { frame0 with sid := sid, code := a.data }
        let x0 := if hasCont then
            { x0 with contCtx := t.act.ctx, contStmt := x.imm.setWidth 16, contIter := t.its
                      contPort := (x.imm >>> 16).setWidth 2, contSid := t.sid }
          else x0
        let (ctx, s) := s.allocate q x0 h
        if ctx = 0 then s.cfDone i x.len [(x.d, TWord.zero)]
        else
          let s := if hasCont then s.addCount (frameOf t.act.ctx) 1 else s
          s.cfDone i x.len [(x.d, ⟨Tag.ctx, ctx⟩)]

/-- ALLOC (03 R138 to R141). -/
def execAlloc (i : Iss) (x : LongOp) (s : State) : Outcome := s.allocOp i x false false
/-- ALLOC.K (03 R138 to R141). -/
def execAllocK (i : Iss) (x : LongOp) (s : State) : Outcome := s.allocOp i x false true
/-- ALLOC.X (03 R138 to R141). -/
def execAllocX (i : Iss) (x : LongOp) (s : State) : Outcome := s.allocOp i x true false
/-- ALLOC.XK (03 R138 to R141). -/
def execAllocXK (i : Iss) (x : LongOp) (s : State) : Outcome := s.allocOp i x true true

/-- PEER_PLACEMENT (07 R292): a peer's ALLOC is placed here; the answer goes back, 0 when it failed. -/
def execPeerPlacement (source : BitVec 12) (part : BitVec 6) (sid : BitVec 16) (code : Word) (hint : PeerHint)
    (s : State) : Outcome :=
  if !(s.part part).isLive || !(s.part part).span.contains source then idle s
  else
    let q := placing part 0 hint.word none true
    match s.place q (({ frame0 with sid := sid, code := code } : Frame).withCont hint.cont) with
    | some (ctx, s) => .next (s.emit (.notify 0x50 ctx))
    | none => .next (s.emit (.notify 0x50 0))

/-- A frame that FREE may free (03 R142). -/
def Frame.freeable (x : Frame) (sid : BitVec 16) : Bool :=
  x.sid == sid && (x.state == stComplete || x.state == stFailed
    || (x.persist && (x.state == stActive || x.state == stStalled) && x.count == 0))

/-- The routers drop what they have cached of a frame whose context-map entry is written anew (07 R300; DEDUCED,
assumption 114). -/
def State.unroute (s : State) (f : BitVec 20) : State :=
  { s with clusters := s.clusters.map fun (k, cl) => (k, { cl with mapCache := cl.mapCache.filter fun e => e.1 != f }) }

/-- Free a frame: its entry of the context map, its cell's header and its place in an affinity group go
(07 R289, R299), and a migration that has not begun to move it is cancelled. The header is 0 afterwards, its SID with
it (DESIGN CHOICE, assumption 110). -/
def State.freeFrame (s : State) (f : BitVec 20) : State :=
  let s := s.cancelMigration f
  let x := s.frame f
  let c := s.cellOf f
  let s := s.modPart x.part fun y =>
    if x.aff = 0 then y
    else
      let (anchor, members) := Map.get (0, 0) y.affs x.aff.toNat
      { y with affs := Map.set (0, 0) y.affs x.aff.toNat
                        (if members ≤ 1 then (0, 0) else (anchor, members - 1)) }
  let s := (s.setFrame f frame0).modCtxEnt f fun e => { e with valid := false, moving := false }
  (s.modCell c fun y => { y with hdr := y.hdr.filter (· != f) }).unroute f

/-- FREE (03 R142). A frame of another module of the span (07 R292, R293) is freed there: the request goes out. FREE
VALUE: that module's answer (assumption 128). -/
def execFree (i : Iss) (x : LongOp) (s : State) : Outcome :=
  s.issue i x.len (x.legal .lr false false) false [x.d, x.a] (cf := true) fun s t =>
    match ctxOperand t x.a true with
    | .error r => .event (tagEv r) s
    | .ok ctx =>
      match s.cfBefore i false with
      | .error s => .waits s
      | .ok s =>
        let f := frameOf ctx
        if ctxModule ctx ≠ s.hier.modn then
          let (v, s) := (s.emit (.freeFrame ctx t.sid)).draw
          s.cfDone i x.len [(x.d, TWord.bool (v.getLsbD 0))]
        else
        let ok := (s.frame f).freeable t.sid
        let s := if ok then s.freeFrame f else s
        s.cfDone i x.len [(x.d, TWord.bool ok)]

/-! ### Work (03 R144 to R146, 07 R310 to R318) -/

/-- The oldest item of a queue that waits to be taken (07 R310). -/
def State.nextItem (s : State) (p q : BitVec 6) : Option WItem :=
  (s.workq p q).items.findSome? fun n =>
    match s.item n with
    | some i => if i.taken || i.ended || i.abandoned then none else some i
    | none => none

/-- Give an item to the context that takes it. -/
def State.giveItem (s : State) (i : WItem) (ctx : Word) : State :=
  s.modItem i.id fun y => { y with taken := true, taker := some ctx }

/-- End a parked WORKGET with a value (03 R144): the strand runs on. -/
def State.unpark (s : State) (c : CellId) (k : SlotId) (v : TWord) : State :=
  match (s.slot c k).wait with
  | .work _ _ d next =>
    let s := (s.leaveQueue c k).modSlot c k fun t =>
      { (t.setG d v) with state := if t.state = .parked then .run else t.state, wait := .none, pc := next }
    (s.afterInstr c k).sampled c k
  | _ => s

/-- WORKGET (03 R144, R145; 07 R310). The queue number comes from A or, in layout LI, from the immediate
(DEDUCED, assumption 11). -/
def execWorkget (i : Iss) (x : LongOp) (s : State) : Outcome :=
  s.issue i x.len (x.legal .both false false) false [x.d, x.a] fun s t =>
    match selOperand x t with
    | .error r => .event (tagEv r) s
    | .ok n =>
      let q : BitVec 6 := n.setWidth 6
      let w := s.workq t.part q
      if 63 < n.toNat ∨ w.bound = false ∨ w.sid ≠ t.sid then .event (tagEv 0x0F) s
      else
        match s.nextItem t.part q with
        | some it => .done ((s.giveItem it t.act.ctx).finish i x.len [(x.d, ⟨Tag.ptr, it.desc⟩)])
        | none =>
          if 4 ≤ (s.cell i.cell).parked.length then .done (s.finish i x.len [(x.d, TWord.zero)])
          else
            let s := s.pmc i.cell (some t.sup) 0x14
            let s := s.modCell i.cell fun y => { y with parked := y.parked ++ [i.slot] }
            let s := s.modWorkq t.part q fun y => { y with parked := y.parked ++ [(i.cell, i.slot)] }
            .waits (s.modSlot i.cell i.slot fun t =>
              { t with state := if t.state = .run then .parked else t.state
                       wait := .work t.part q x.d (t.pc + BitVec.ofNat 32 x.len) })

/-- WORKGET_TIMEOUT (03 R144): no item within half the partition's quiet time; none when stall detection is
disabled. -/
def execWorkgetTimeout (cell : CellId) (slot : SlotId) (s : State) : Outcome :=
  let t := s.slot cell slot
  match t.wait, s.quietNs t.part with
  | .work .., some _ => .next (s.unpark cell slot TWord.zero)
  | _, _ => idle s

/-- The buffered stores of a strand that are not sealed yet: FLCOMMIT takes them (assumption 17). -/
def State.unsealedStores (s : State) (c : CellId) (k : SlotId) : List StEnt :=
  (s.storesOf c k).filter fun e =>
    !e.isSealed && (match e.kind with | .word | .sub | .zero => true | _ => false)

/-- FLCOMMIT (03 R146, 07 R315 to R318): the strand's buffered stores become a memory commit of the item. A
strand whose release finds no room waits and submits it again. A PTR that names no item of the strand's partition and
space raises reason 0x0F, as R317 gives it for an item that has ended (DESIGN CHOICE, assumption 123). -/
def execFlcommit (i : Iss) (x : LongOp) (s : State) : Outcome :=
  s.issue i x.len (x.legal .lr false false) false [x.a] (cf := true) fun s t =>
    match ptrOperand (t.g x.a) with
    | .error r => .event (tagEv r) s
    | .ok va =>
      match s.itemAt t.part t.sid va with
      | none => .event (tagEv 0x0F) s
      | some it =>
        if it.ended || it.abandoned then .event (tagEv 0x0F) s
        else if !t.allWritten then .waits (s.waitAgain i.cell i.slot)
        else if s.awaitsTwin i.cell i.slot then .waits (s.waitTwin i.cell i.slot)
        else
          let es := s.unsealedStores i.cell i.slot
          match s.submitRelease it (.memory es) with
          | (.waits, s) => .waits (s.modSlot i.cell i.slot fun t => { t with wait := .release none })
          | (_, s) =>
            let s := s.modCell i.cell fun y => { y with stbuf := y.stbuf.filter fun e => !es.contains e }
            (s.commitPoint i.cell i.slot t.pc).cfDone i x.len []

/-- RELEASE_STORE_FREE (07 R318): entries of the release store are free again; a strand that waits for them
submits its release again. -/
def execReleaseStoreFree (cell : CellId) (slot : SlotId) (s : State) : Outcome :=
  match (s.slot cell slot).wait with
  | .release _ =>
    if s.storeUsed < 65536 then .next (s.modSlot cell slot fun t => { t with wait := .none }) else idle s
  | _ => idle s

/-- FLDONE (03 R146, 07 R315, R317). A PTR that names no item raises reason 0x0F (DESIGN CHOICE, assumption 123). -/
def execFldone (i : Iss) (x : LongOp) (s : State) : Outcome :=
  s.issue i x.len (x.legal .lr false false) false [x.a] (cf := true) fun s t =>
    match ptrOperand (t.g x.a) with
    | .error r => .event (tagEv r) s
    | .ok va =>
      match s.itemAt t.part t.sid va with
      | none => .event (tagEv 0x0F) s
      | some it =>
        if it.ended || it.abandoned then .event (tagEv 0x0F) s
        else
          match s.cfBefore i false with
          | .error s => .waits s
          | .ok s => (s.endItem it.id).cfDone i x.len []

/-! ### Submissions (03 R165, 11 R476, R719) -/

/-- Read a descriptor of `n` words as the block that takes it does (08 R712): none where it cannot be read
(assumption 16). -/
def State.readDesc (s : State) (sid : BitVec 16) (va : Word) (n : Nat) : Option (List TWord) × State :=
  let s := s.touches sid va n
  match s.spaceReads sid va n with
  | .ok ws => (some ws, s)
  | .error _ => (none, s)

/-- Whether a space's words may be written. -/
def State.mayStore (s : State) (sid : BitVec 16) (va : Word) : Bool :=
  match s.spaceWord sid va true with
  | .ok _ => true
  | .error _ => false

/-- The status of an LCOMMIT that submits nothing (11 R476, R719), none when it is accepted. The order of
the checks is the model's (DESIGN CHOICE, assumption 18). -/
def State.lcommitRefused (s : State) (sid : BitVec 16) (p : BitVec 6) (va : Word) (ws : List TWord)
    (it : Option WItem) : Option Nat :=
  let w0 := (ws.headD TWord.zero).data
  let isRecord := lcOp w0 == 1
  if lcMalformed ws || (isRecord && !(s.mayStore sid (va + 2) && s.mayStore sid (va + 3))) then some 3
  else if s.plat.ledgerClosed then some 6
  else if lcItem w0 && (match it with | some x => x.ended || x.abandoned | none => true) then some 2
  else if lcMirror w0 && s.hier.partner.isNone then some 4
  else if !isRecord && (s.findRecord (wordsTn (ws.map TWord.data)) sid).isNone then some 5
  else if isRecord && !s.ledgerRoom p then some 1
  else none

/-- LCOMMIT (03 R165; 11 R476, R719; 07 R315 to R318). -/
def execLcommit (i : Iss) (x : LongOp) (s : State) : Outcome :=
  s.issue i x.len (x.legal .lr false false) false [x.d, x.a] (cf := true) fun s t =>
    match ptrOperand (t.g x.a) with
    | .error r => .event (tagEv r) s
    | .ok va =>
      match s.cfBefore i true with
      | .error s => .waits s
      | .ok s =>
        let status (s : State) (n : Nat) : Act := s.cfDone i x.len [(x.d, TWord.int (BitVec.ofNat 32 n))]
        match s.readDesc t.sid va 12 with
        | (none, s) => status s 3
        | (some ws, s) =>
          if ws.any fun w => w.tag == Tag.poison then .event (tagEv 0x05) s
          else
            let ds := ws.map TWord.data
            let it := if lcItem (ds.headD 0) then s.itemAt t.part t.sid (ds.getD 1 0) else none
            match s.lcommitRefused t.sid t.part va ws it with
            | some n => status s n
            | none =>
              match it with
              | none => status (s.lcommitPass va t.sid t.part ds 0) 0
              | some item =>
                match s.submitRelease item (.ledger va t.sid t.part ds) with
                | (.waits, s) => .waits (s.modSlot i.cell i.slot fun t => { t with wait := .release (some x.d) })
                | (_, s) => status s 0

/-! ### Mailboxes as a strand reaches them (14 R600 to R602) -/

/-- The mailbox belongs to the partition's SUPERVISOR identity over MBX (14 R591, R600). -/
def Mailbox.servesPart (b : Mailbox) (p : BitVec 6) : Bool :=
  b.transport == some .mbx && b.owner == whoSupervisor && b.part == p

/-- A request header that MBX.SEND refuses: its LEN is out of range, or it is a cancel request with LEN or
FLAGS not 0 (assumption 19). -/
def badHeader (req : List Byte) : Bool :=
  decide (2032 < bytesAt req 2 2) || (bytesAt req 0 2 == 0xFFFF && !isCancel req)

/-- What MBX.SEND does with a block that it has read (14 R589, R600). -/
def State.mbxSubmit (s : State) (m : BitVec 5) (p : BitVec 6) (sid : BitVec 16) (va : Word) (ws : List TWord) :
    Nat × State :=
  let req := (ws.map fun w => wordBytes w.data).flatten
  let b := s.mbx m
  if (ws.any fun w => w.tag != Tag.int) || badHeader req then (3, s)
  else if !b.servesPart p then (2, s)
  else if isCancel req then (0, s.cancelMbx m (bytesAt req 4 4))
  else if b.state = mbQueued ∨ b.state = mbRunning then (1, s)
  else (0, s.ring m (req.take (16 + bytesAt req 2 2)) (some (va, sid, p, BitVec.ofNat 16 (bytesAt req 10 2))))

/-- MBX.SEND (03 R165; 14 R589, R600): the block's page is translated for reading and for writing, with
precise faults. -/
def execMbxSend (i : Iss) (x : LongOp) (s : State) : Outcome :=
  s.issue i x.len (x.legal .lr false false) true x.regs (cf := true) fun s t =>
    let args : Except Byte (Word × Word) := do
      let m ← intOperand (t.g x.a)
      let va ← ptrOperand (t.g x.b)
      return (m, va)
    match args with
    | .error r => .event (tagEv r) s
    | .ok (m, va) =>
      let status (s : State) (n : Nat) : Act := s.cfDone i x.len [(x.d, TWord.int (BitVec.ofNat 32 n))]
      if 31 < m.toNat ∨ va.toNat % 512 ≠ 0 then
        match s.cfBefore i true with
        | .error s => .waits s
        | .ok s => status s (if 31 < m.toNat then 4 else 3)
      else
        s.onWord i va accSubLoad fun s _ w =>
          s.onWord i va accSubStore fun s _ _ =>
            match s.cfBefore i true with
            | .error s => .waits s
            | .ok s =>
              let t := s.slot i.cell i.slot
              let ws := (List.range 512).map fun n => s.peek (w + n)
              let sid := s.sidFor i.cell t (t.windowed va accSubLoad)
              let (n, s) := s.mbxSubmit (m.setWidth 5) t.part sid va ws
              status s n

/-- MBX.POLL (03 R165; 14 R602). A number above 31 is out of range (DEDUCED, assumption 19). -/
def execMbxPoll (i : Iss) (x : LongOp) (s : State) : Outcome :=
  s.issue i x.len (x.legal .lr false false) true [x.d, x.a] (cf := true) fun s t =>
    match intOperand (t.g x.a) with
    | .error r => .event (tagEv r) s
    | .ok m =>
      if 31 < m.toNat then .event (tagEv 0x0F) s
      else
        match s.cfBefore i false with
        | .error s => .waits s
        | .ok s =>
          let b := s.mbx (m.setWidth 5)
          let v := if b.servesPart t.part then b.state.toNat + 4 + b.status * 65536 else 0
          s.cfDone i x.len [(x.d, TWord.int (BitVec.ofNat 32 v))]

/-! ### TLBI (08 R357, R358) -/

/-- Remove entries from every TLB, and restart the walks that have not installed yet (08 R358 steps 2, 3). -/
def State.invalidate (s : State) (p : BitVec 6) (f : TlbEnt → Bool) : State :=
  (s.dropTlb f fun _ => false).restartWalks p

/-- TLBI: the strand waits until every TLB has acknowledged. -/
def State.tlbi (s : State) (i : Iss) (x : LongOp) (legal : Bool) (sidOf : State → Slot → Except Byte (BitVec 16))
    (f : Slot → BitVec 16 → TlbEnt → Bool) : Outcome :=
  s.issue i x.len (x.legal .lr false false && x.d == 0 && legal) true x.regs fun s t =>
    match sidOf s t with
    | .error r => .event (tagEv r) s
    | .ok n =>
      if !t.allWritten then .waits (s.waitAgain i.cell i.slot)
      else if s.awaitsTwin i.cell i.slot then .waits (s.waitTwin i.cell i.slot)
      else
        let s := s.commitPoint i.cell i.slot t.pc
        if !(s.storesOf i.cell i.slot).isEmpty then .waits (s.waitAgain i.cell i.slot)
        else
          let s := (s.invalidate t.part (f t n)).finish i x.len []
          let s := s.tellSpan t.part
          .waits (s.modSlot i.cell i.slot fun t => { t with wait := .tlbi 1 })

/-- The SID operand of TLBI: bound to the strand's partition (08 R357). -/
def State.tlbiSidOf (s : State) (x : LongOp) (t : Slot) : Except Byte (BitVec 16) := do
  let n ← intOperand (t.g x.b)
  if 65536 ≤ n.toNat ∨ !s.sidBoundTo (n.setWidth 16) t.part then throw 0x0F
  return n.setWidth 16

/-- TLBI.VA (08 R357): A is PTR or INT. -/
def execTlbiVa (i : Iss) (x : LongOp) (s : State) : Outcome :=
  let va (t : Slot) : TWord := t.g x.a
  s.tlbi i x true
    (fun s t => do
      if (va t).tag = Tag.poison then throw 0x05
      if (va t).tag ≠ Tag.ptr ∧ (va t).tag ≠ Tag.int then throw 0x01
      s.tlbiSidOf x t)
    fun t n e => e.covers n t.part (va t).data
/-- TLBI.SID (08 R357). -/
def execTlbiSid (i : Iss) (x : LongOp) (s : State) : Outcome :=
  s.tlbi i x (x.a == 0) (fun s => s.tlbiSidOf x) fun t n e => e.part == t.part && !e.glob && e.sid == n
/-- TLBI.PART (08 R357). -/
def execTlbiPart (i : Iss) (x : LongOp) (s : State) : Outcome :=
  s.tlbi i x (x.a == 0 && x.b == 0) (fun _ _ => .ok 0) fun t _ e => e.part == t.part

/-- TLB_INVALIDATE_ACK (08 R358, R359): every TLB has acknowledged, and the strand continues. -/
def execTlbInvalidateAck (cell : CellId) (slot : SlotId) (s : State) : Outcome :=
  match (s.slot cell slot).wait with
  | .tlbi _ =>
    let s := s.modSlot cell slot fun t => { t with wait := .none }
    .next ((s.afterInstr cell slot).sampled cell slot)
  | _ => idle s

end Sys2Proof.Machine
end

