-- ==== Sys2Proof/Machine/Slots.lean ====
section
/-! DEFINITION. The life of a strand slot: slot assign and strand entry (05 R208, R210; 03 R100 to R103), the
commit of a firing (05 R215; 02 R49, R69, R72 to R76; 10 R438) and the time slice (05 R224). -/

namespace Sys2Proof.Machine

/-! ### Strand entry (03 R100 to R103) -/

/-- Translate a word of the code block: it is read as a fetch, with no mode to judge (DEDUCED, assumption
23). -/
def State.entryXlate (s : State) (c : CellId) (k : SlotId) (va : Word) : Xlate × State :=
  let t := s.slot c k
  match s.tlbLookup c t.sid t.part va with
  | (none, s) => (.walk, (s.pmc c none 0x11).startWalk c k va t.sid 2 false)
  | (some e, s) =>
    match e.check accFetch .block (s.devGranted t.part (localWord (e.word va) * 4 % 2 ^ 24)) with
    | some code => (.event (faultEv false 0 2 code va), s)
    | none => (.ok e (e.word va), s)

/-- A strand that entry leaves running, or in its handler. -/
def State.entered (s : State) (c : CellId) (k : SlotId) : State :=
  let t := s.slot c k
  let hits (p : DbgPoint) : Bool := p.addr == t.act.ctx && p.spec.setWidth 16 == t.act.stmt
  match pointHit s.dbg.tbreaks 4 hits with
  | some (u, p) => s.debugStop c k (pointDue 5 u p)
  | none => s

/-- Read the code-block header, the entry word and the page of the first instruction, and start the strand
(03 R100 to R103, 05 R210, 13 R535). It waits where a page must be walked. -/
def State.enterStrand (s : State) (c : CellId) (k : SlotId) : State :=
  let t := s.slot c k
  let base := (s.frame (frameOf t.act.ctx)).code
  let ea := base + 1 + t.act.stmt.setWidth 32
  let bad (s : State) (e : Ev) : State := s.enterEvent c k e ea
  match s.entryXlate c k base with
  | (.walk, s) => s
  | (.event e, s) => bad s e
  | (.ok _ w0, s) =>
    let h := s.peek w0
    if h.tag ≠ Tag.int ∨ h.data.setWidth 16 < t.act.stmt then bad s (tagEv 0x0C)
    else
      match s.entryXlate c k ea with
      | (.walk, s) => s
      | (.event e, s) => bad s e
      | (.ok _ w1, s) =>
        let v := s.peek w1
        if v.tag ≠ Tag.code then bad s (tagEv 0x0C)
        else
          match s.entryXlate c k v.data with
          | (.walk, s) => s
          | (.event e, s) => s.enterEvent c k e v.data
          | (.ok e _, s) =>
            let s := s.modSlot c k fun t =>
              { t with state := .run, pc := v.data, fpc := (h.data >>> 16).setWidth 8, sup := !e.u, wait := .none }
            (s.commitPoint c k v.data).entered c k

/-- A slot in ENTRY whose walk has ended goes on with its entry. -/
def State.resumeEntry (s : State) (c : CellId) (k : SlotId) : State :=
  if (s.slot c k).state = .entry ∧ (s.slot c k).wait = .none then s.enterStrand c k else s

/-! ### Slot assign (05 R208, 02 R50) -/

/-- The activity may go to a slot: its frame is not leaving the cell (07 R301 step 2). -/
def State.eligible (s : State) (c : CellId) (a : Activity) : Bool :=
  !((s.cell c).fwd.any fun e => e.frame == frameOf a.ctx)

/-- The eligible activity that SA gives next (02 R50): a Control activity first, else the oldest. -/
def State.nextActivity (s : State) (c : CellId) : Option Activity :=
  let es := (s.cell c).ready.filter (s.eligible c)
  match es.find? fun a => a.port == portControl with
  | some a => some a
  | none => es.head?

/-- A slot that SA may use: idle and not halted, unless a firing step lets one activity through (15 R657). -/
def State.freeSlot (s : State) (c : CellId) : Option SlotId :=
  allSlots.find? fun k =>
    let t := s.slot c k
    t.state == .idle && (t.halted.isNone || t.stepping == 2)

/-- SA of a cell is stopped: it drains, its partition is quiesced, it is replaced, lost or under self-test, or it
is a shadow, which follows its lead (06 R272, 14 R606, 13 R544, R546, R549, R551). -/
def State.saStopped (s : State) (c : CellId) : Bool :=
  let x := s.cell c
  x.draining || x.stopped || s.col.lostCells.contains c || (s.part (s.partOfCell c)).quiesced || (s.col.selfTests.any fun e => e.1 == c)
    || bit (s.reg (clcCell c 0xF80)) 30

/-- SLOT_ASSIGN (05 R208, R210; 02 R50; 03 R100 to R103). An activity of a context that failed or was freed is
discarded (13 R547). -/
def execSlotAssign (cell : CellId) (check : Detect) (s : State) : Outcome :=
  if s.saStopped cell then idle s
  else
    match s.nextActivity cell, s.freeSlot cell with
    | some a, some k =>
      let out := s.modCell cell fun x => { x with ready := x.ready.erase a }
      let f := frameOf a.ctx
      let fr := s.frame f
      if fr.state = stFailed ∨ fr.state = stFree then .next out
      else
        let old := s.slot cell k
        let regs := Map.set TWord.zero (Map.set TWord.zero [] 1 a.g1) 2 a.g2
        let s := out.setSlot cell k
          { slot0 with
            state := .entry, act := a, sid := fr.sid, part := fr.part, regs := regs, its := a.iter, xsid := fr.sid
            halted := none, stepping := old.stepping, dueDbg := old.dueDbg }
        let s := match check with
          | .dispatch i => s.microFailed cell (8192 + i.toNat)
          | .microword m => s.microFailed cell m.toNat
          | .corrected => s.assertSrc (s.cellSource cell)
          | _ => s
        .next (s.enterStrand cell k)
    | _, _ => idle s

/-! ### Commit (05 R215, 02 R69, R72, R74, R76) -/

/-- Advance BASE while its bit is set (02 R69); `fuel` is the bitmap's size. -/
def Frame.advance (x : Frame) : Nat → Frame
  | 0 => x
  | n + 1 =>
    let i := x.base.toNat % 512
    if x.retire.getLsbD i then
      Frame.advance { x with retire := x.retire &&& ~~~((1 : BitVec 512) <<< i), base := x.base + 1 } n
    else x

/-- IRETIRE at commit (02 R69). -/
def Frame.retireIter (x : Frame) (i : BitVec 12) : Frame :=
  if x.distance i < 512 then
    Frame.advance { x with retire := x.retire ||| ((1 : BitVec 512) <<< (i.toNat % 512)) } 512
  else x

/-- One window operation at commit, and the held tokens that it lets go (02 R69, 03 R143). -/
def State.winOp (s : State) (f : BitVec 20) (w : WinOp) : State :=
  match w with
  | .winset n => (s.modFrame f fun x => { x with win := n, weff := n }).releaseHeld f
  | .retire i => (s.modFrame f fun x => x.retireIter i).releaseHeld f

/-- Send one commit item (02 R49, R72; 03 R133, R155). -/
def State.sendItem (s : State) (c : CellId) (ctx : Word) (it : Item) : State :=
  match it with
  | .token t => (s.send (.cell c) t (some ctx) false false).pmc c none 0x30
  | .request r => (s.modCell c fun x => { x with reqs := x.reqs ++ [r] }).sendRequest c r

/-- The COUNT update of a commit (02 R72), one update; then the context may complete (R74) and a stalled one
is active again (R76). A frame that is migrating keeps its saved state (07 R301, R306). -/
def State.commitCount (s : State) (f : BitVec 20) (used : Nat) (items : Nat) : State :=
  let s := s.modFrame f fun x =>
    if x.ignoresCount then x
    else
      { x with saved := if x.saved = stStalled then stActive else x.saved
               count := x.count + BitVec.ofNat 32 items - BitVec.ofNat 32 used, committed := true, lastCommit := s.now
               due := false
               state := if x.state = stStalled then stActive else x.state }
  s.tryComplete f

/-- What remains of a slot after its firing (15 R657 to R659): a firing step halts, and so does a halt request
that waited for the commit. -/
def Slot.afterFiring (t : Slot) (now : BitVec 64) : Slot :=
  let due : Option Byte := match t.dueDbg with
    | some w => if haltsOnly w then some (w.setWidth 8) else none
    | none => none
  { slot0 with halted := (if t.stepping = 2 then some 3 else due).map fun r => (r, now) }

/-- The tokens of a send list. -/
def Slot.tokenItems (t : Slot) : Nat := (t.sends.filter fun x => match x with | .token _ => true | _ => false).length

/-- FIRING_COMMIT (05 R215; 02 R49, R69, R72 to R76; 03 R131, R134, R155; 10 R438; 13 R535): the commit point;
then, when the firing's stores are acknowledged and the output queue has room, its items leave, its operands
are consumed and the slot is idle. -/
def execFiringCommit (cell : CellId) (slot : SlotId) (check : Detect) (s : State) : Outcome :=
  let t := s.slot cell slot
  if t.state ≠ .commit ∨ t.halted.isSome ∨ t.lost ∨ !t.allWritten ∨ (t.wait ≠ .none ∧ t.wait ≠ .stores) then idle s
  else
    match s.checked cell slot check false with
    | some s => .next s
    | none =>
      let s := if check = .corrected then s.assertSrc (s.cellSource cell) else s
      if s.awaitsTwin cell slot && t.wait == .none then .next (s.waitTwin cell slot)
      else
        let s := if t.wait = .none then
            (s.commitPoint cell slot t.pc).modSlot cell slot fun t => { t with wait := .stores } else s
        let t := s.slot cell slot
        let unacked := (s.storesOf cell slot).any fun e => e.kind != .side
        if t.sends ≠ [] ∧ (unacked ∨ 256 < s.outqUsed cell + t.tokenItems) then .next s
        else
          let f := frameOf t.act.ctx
          let s := s.pmc cell (some t.sup) 0x04
          let s := s.each t.sends fun s it => s.sendItem cell t.act.ctx it
          let s := s.each t.wins fun s w => s.winOp f w
          let s := (s.forwardUpdate cell f).commitCount f t.act.used t.sends.length
          let s := s.modCell cell fun x =>
            { x with stbuf := x.stbuf.map fun e => if e.slot = slot then { e with ended := true } else e }
          .next ((s.setSlot cell slot (t.afterFiring s.now)).tryEndFwd cell f)

/-! ### The time slice (05 R224, R225, R266) -/

/-- TIME_SLICE_EXPIRY (05 R224 to R227; 04 R177, R180): the expiry is due, and is taken at the slot's
boundary. A detection in the event-entry routine retries the firing and leaves the event pending (06 R266). -/
def execTimeSliceExpiry (cell : CellId) (slot : SlotId) (check : Detect) (s : State) : Outcome :=
  let t := s.slot cell slot
  if (t.state ≠ .run ∧ t.state ≠ .commit) ∨ t.halted.isSome then idle s
  else
    let s := s.modSlot cell slot fun t => { t with dueTs := true }
    match s.sample cell slot with
    | none => .next s
    | some entered =>
      match s.checked cell slot check false with
      | some s => .next s
      | none => .next entered

end Sys2Proof.Machine
end

