-- ==== Sys2Proof/Machine/Translate.lean ====
section
/-! DEFINITION. The walk of a translation, one table read at a time (08 R326, R330 to R344), and Benus's answers
to stage-2 faults (08 R340, R342). -/

namespace Sys2Proof.Machine

/-- The translation block of a cell's cluster. -/
def trnOf (c : CellId) : Nat := trnBase (clusterOf c).toNat

/-- A walk ends: its strand no longer waits for it. -/
def State.dropWalk (s : State) (c : CellId) (k : SlotId) : State :=
  s.modSlot c k fun t => { t with walk := none, wait := .none }

/-- The address that an event of a walk saves (05 R223, 03 R101): the instruction's, or at strand entry the
entry word's or the first instruction's. -/
def State.walkEpc (s : State) (t : Slot) (w : Walk) : Word :=
  if t.state = .entry then
    let base := (s.frame (frameOf t.act.ctx)).code
    let ea := base + 1 + t.act.stmt.setWidth 32
    if w.va = base ∨ w.va = ea then ea else w.va
  else t.pc

/-- A walk raises an event at its instruction, after a machine check or a debug event that is due there (05 R225). -/
def State.walkEvent (s : State) (c : CellId) (k : SlotId) (w : Walk) (e : Ev) : State :=
  let epc := s.walkEpc (s.slot c k) w
  (s.dropWalk c k).raiseInTurn c k e epc

/-- A walk ends with a translation fault (08 R352, R353). -/
def State.walkFault (s : State) (c : CellId) (k : SlotId) (w : Walk) (level : BitVec 4) (code : Byte) : State :=
  s.walkEvent c k w (faultEv w.window level w.kind code w.va)

/-- A walk reads a POISON word (08 R335): a machine check marked walk-poisoned, which the record's DETAIL
says (DEDUCED from R714, assumption 25). -/
def State.walkPoisoned (s : State) (c : CellId) (k : SlotId) (w : Walk) (addr : Nat) : State :=
  let t := s.slot c k
  let (n, s) := s.makeRecord { kind := 4, source := s.cellSource c, cell := s.recCell c, sid := t.sid
                               ctx := t.act.ctx, addr := addr, detail := 0xFF }
  if t.state = .entry then s.walkEvent c k w (mcEv n) else (s.dropWalk c k).machineCheck c k n

/-- Change a strand's walk. -/
def State.setWalk (s : State) (c : CellId) (k : SlotId) (w : Walk) : State :=
  s.modSlot c k fun t => { t with walk := some w }

/-- A stage-2 translation of a walk is known (08 R343): a table in a device region faults, the next stage-1
entry is read there, or the page's entry is installed. -/
def State.walkAt (s : State) (c : CellId) (k : SlotId) (w : Walk) (pa : Nat) (goal : WalkGoal) (l : S2Leaf) : State :=
  match goal with
  | .level n =>
    if l.dev then s.walkFault c k w (BitVec.ofNat 4 n) 0x0C
    else s.setWalk c k { w with stage := .s1 n (l.word pa) l.homing, tries := 0, torn := false, suspended := false }
  | .final =>
    let e := tlbEntry w.sid (s.slot c k).part w.va (w.leaf.getD 0) w.big l
    let s := (s.clusterTlbInstall (clusterOf c) e).cellTlbInstall c e
    (s.dropWalk c k).resumeEntry c k

/-- Go on to a partition address (08 R343): its stage-2 entry stands in the cluster TLB, or its root entry is
read next. -/
def State.walkTo (s : State) (c : CellId) (k : SlotId) (w : Walk) (pa : Nat) (goal : WalkGoal) : State :=
  let p := (s.slot c k).part
  match (s.cluster (clusterOf c)).tlb2.find? fun e => e.part == p && e.pblk == pa / 2 ^ 21 with
  | some e => s.walkAt c k w pa goal { modn := e.modn, ma := e.ma, homing := e.homing, dev := e.dev }
  | none => s.setWalk c k { w with stage := .s2root pa goal, suspended := false }

/-- A stage-2 fault goes to Benus, and the instruction waits (08 R342). -/
def State.stage2Fault (s : State) (c : CellId) (k : SlotId) (w : Walk) : State :=
  (s.bump (trnOf c + 0x2C)).setWalk c k { w with suspended := true }

/-- The two words of a stage-1 entry that a walk reads with one access (08 R334): those of the sector that a fill brought
and that was not installed, else as they stand. -/
def Walk.entryWords (w : Walk) (s : State) (word : Nat) : TWord × TWord :=
  match w.got with
  | some (sec, data) =>
    if sec = sectorOf word then (wordOf data word, wordOf data (word + 1)) else (s.peek word, s.peek (word + 1))
  | none => (s.peek word, s.peek (word + 1))

/-- What a stage-1 entry's two words say (08 R334, R335, R343). -/
def State.walkEntry (s : State) (c : CellId) (k : SlotId) (w : Walk) (level word : Nat) : State :=
  let (w0, w1) := w.entryWords s word
  let w := { w with got := none }
  match s1Words level w0 w1 with
  | .poison => s.walkPoisoned c k w (localWord word * 4)
  | .fault code => s.walkFault c k w (BitVec.ofNat 4 level) code
  | .torn =>
    let most := s.regField (trnOf c) 7 4 + 1
    if w.torn && decide (most ≤ w.tries + 1) then s.walkFault c k w (BitVec.ofNat 4 level) 0x0B
    else s.setWalk c k { w with torn := true, tries := if w.torn then w.tries + 1 else 0 }
  | .entry e =>
    let w := { w with torn := false, tries := 0 }
    if e.getLsbD 1 then
      let w := { w with leaf := some e, big := level == 2 }
      s.walkTo c k w (leafPa e w.big w.va) .final
    else s.walkTo c k w (level2At e w.va) (.level 3)

/-- The space entry of a walk is known (08 R326, R343). -/
def State.walkRoot (s : State) (c : CellId) (k : SlotId) (w : Walk) (found : Option (Nat × BitVec 6)) : State :=
  let p := (s.slot c k).part
  match found with
  | none => s.walkFault c k w 1 0x0E
  | some (root, q) =>
    if q ≠ p then s.walkFault c k w 1 0x0E
    else
      let s := s.modCluster (clusterOf c) fun cl =>
        { cl with roots := (cl.roots.filter fun r => r.1 != w.sid) ++ [(w.sid, root, q)] }
      s.walkTo c k w (root + 8 * (w.va.toNat / 2 ^ 19)) (.level 2)

/-- One table read returns (08 R343). -/
def State.walkRead (s : State) (c : CellId) (k : SlotId) (w : Walk) : State :=
  let g := clusterOf c
  let p := (s.slot c k).part
  match w.stage with
  | .space => s.walkRoot c k w (s.spaceEntry w.sid)
  | .s2root pa goal =>
    match s2Table (s.peek64 (s.s2RootAt p pa)) with
    | none => s.stage2Fault c k w
    | some t => s.setWalk c k { w with stage := .s2leaf pa t goal }
  | .s2leaf pa t goal =>
    match s.s2Leaf p (s.peek64 (s2LeafAt t pa)) with
    | none => s.stage2Fault c k w
    | some l =>
      let e : Tlb2Ent := { part := p, pblk := pa / 2 ^ 21, modn := l.modn, ma := l.ma, homing := l.homing, dev := l.dev }
      (s.tlb2Install g e).walkAt c k w pa goal l
  | .s1 level word _ => s.walkEntry c k w level word

/-- The machine word that a walk's next table read starts at, and its home's HOMING. -/
def State.walkWord (s : State) (c : CellId) (k : SlotId) (w : Walk) : Nat × BitVec 3 :=
  match w.stage with
  | .space => (s.ownWord (s.spaceEntryAt w.sid), 0)
  | .s2root pa _ => (s.ownWord (s.s2RootAt (s.slot c k).part pa), 0)
  | .s2leaf pa t _ => (s.ownWord (s2LeafAt t pa), 0)
  | .s1 _ word h => (word, h)

/-- The cluster has the sector of a walk's next table read (08 R343): it is cached there, or a fill has brought it. Where
it is not, the walk asks for the sector and waits. -/
def State.tableHeld (s : State) (c : CellId) (k : SlotId) (w : Walk) : Bool × State :=
  let g := clusterOf c
  let (word, homing) := s.walkWord c k w
  if w.got.any fun x => x.1 == sectorOf word then (true, s)
  else
    match s.clusterRead g (s.slot c k).part word with
    | (.hit _, s) => (true, s)
    | (.waits, s) => (false, s)
    | (.miss, s) =>
      if ((s.cluster g).missOf (sectorOf word)).any fun m => m.reqs.contains (.walk c k) then (false, s)
      else
        (false, (s.joinMiss g (s.slot c k).part (homeOf homing word) (sectorOf word) false (.walk c k) word
          (homeOf homing (word + 16))).getD s)

/-- A table read that the cluster holds returns: it is counted, and the walk goes on (08 R343, R365). An error that the
code cannot correct in the cached sector sends the walk to read again, or poisons the word (09 R404). -/
def State.tableRead (s : State) (c : CellId) (k : SlotId) (w : Walk) (ecc : Ecc) : State :=
  let g := clusterOf c
  match s.tableHeld c k w with
  | (false, s) => s
  | (true, s) =>
    let cached := w.got.isNone
    let s := if cached && ecc == .corrected then (s.bump (cchBase g.toNat + 0x38)).assertSrc (clusterSource g 18) else s
    let (bad, s) := if cached && (ecc == .payload || ecc == .key) then
        let (poison, s) := s.sectorError g (s.walkWord c k w).1 (ecc == .key)
        (poison.isNone, s)
      else (false, s)
    if bad then s else (s.bump (trnOf c + 0x24)).walkRead c k w

/-- WALK_TABLE_READ (08 R326, R330 to R335, R343, R344). What the root cache and the cluster TLB hold takes no read. -/
def execWalkTableRead (cell : CellId) (slot : SlotId) (ecc : Ecc) (s : State) : Outcome :=
  match (s.slot cell slot).walk with
  | none => idle s
  | some w =>
    if w.torn || w.suspended then idle s
    else
      let rooted := if w.stage = .space then (s.cluster (clusterOf cell)).roots.find? fun r => r.1 == w.sid else none
      match rooted with
      | none => .next (s.tableRead cell slot w ecc)
      | some r =>
        let s := s.walkRoot cell slot w (some r.2)
        match (s.slot cell slot).walk with
        | none => .next s
        | some w => .next (s.tableRead cell slot w ecc)

/-- TORN_REREAD (08 R334): the entry is read again; the last re-read that still differs faults. -/
def execTornReread (cell : CellId) (slot : SlotId) (s : State) : Outcome :=
  match (s.slot cell slot).walk with
  | none => idle s
  | some w =>
    match w.torn, w.stage with
    | true, .s1 level word _ =>
      .next (((s.bump (trnOf cell + 0x30)).bump (trnOf cell + 0x24)).walkEntry cell slot w level word)
    | _, _ => idle s

/-- The partition address whose stage-2 entry a walk asked for. -/
def Walk.asks (w : Walk) : Option Nat :=
  match w.stage with
  | .s2root pa _ => some pa
  | .s2leaf pa _ _ => some pa
  | _ => none

/-- STAGE2_ANSWER (08 R340, R342): Benus maps the block, when the address lies within the partition's memory
size or in a granted device region, and the walk restarts; else it refuses. Benus answers only while it runs. -/
def execStage2Answer (cell : CellId) (slot : SlotId) (maps : Bool) (s : State) : Outcome :=
  let t := s.slot cell slot
  match t.walk with
  | none => idle s
  | some w =>
    match w.suspended && s.ben.running, w.asks with
    | true, some pa =>
      let mapped := (s.stage2 t.part pa).isSome
      let made : Option State := if mapped then some s else s.mapBlock t.part pa
      match maps, made with
      | true, some s =>
        .next (s.setWalk cell slot w.restart)
      | false, none => .next (s.walkFault cell slot w 4 0x0D)
      | _, _ => idle s
    | _, _ => idle s

/-- STAGE2_TIMEOUT (08 R342): no answer came within S2_TO ms. -/
def execStage2Timeout (cell : CellId) (slot : SlotId) (s : State) : Outcome :=
  match (s.slot cell slot).walk with
  | none => idle s
  | some w => if w.suspended then .next (s.walkFault cell slot w 4 0x0D) else idle s

end Sys2Proof.Machine
end

