-- ==== Sys2Proof/Machine/Memory.lean ====
section
/-! DEFINITION. The cluster's side of memory: fills and their requesters (09 R380 to R383, R403), the Porch's
write-backs (09 R384 to R389), the Pantry's copies (09 R390 to R396), probes, grants and retries (10 R422 to
R430), and the completion of operations performed at a home. -/

namespace Sys2Proof.Machine

/-! ### Fills -/

/-- Give a word to a load that waits for it: the strand's own stores go over it (09 R370, R382). -/
def State.giveLoad (s : State) (c : CellId) (k : SlotId) (r : Reg) (w : Nat) (v : TWord) : State :=
  let part (l : PLoad) (p : Nat × Option TWord) : Nat × Option TWord :=
    if p.1 = w ∧ p.2 = none then (w, some (withOwn l.own w v)) else p
  s.modSlot c k fun t => { t with loads := t.loads.map fun l =>
    if l.reg = r then { l with parts := l.parts.map (part l) } else l }

/-- A fetch that waits for a sector goes on (09 R382). -/
def State.giveFetch (s : State) (c : CellId) (k : SlotId) (sec : Nat) : State :=
  if (s.slot c k).wait = .fetch then
    ((s.modCell c fun x => { x with buf := some (FetchBuf.bring x.buf k sec) }).modSlot c k fun t =>
      { t with wait := .none }).resumeEntry c k
  else s

/-- A requester gets its word. -/
def State.giveWord (s : State) (sec : Nat) (data : List TWord) (r : Requester) : State :=
  match r with
  | .load c k d w => s.giveLoad c k d w (wordOf data w)
  | .fetch c k => s.giveFetch c k sec
  | .request c n w => s.answerRequest c n (loadedWord (wordOf data w))
  | .walk c k => s.modSlot c k fun t => { t with walk := t.walk.map fun w => { w with got := some (sec, data) } }
  | .store .. => s

/-- The word of a requester that lies in a beat; a fetch takes the first beat. -/
def Requester.inBeat (r : Requester) (beat : Nat) (isFirst : Bool) : Bool :=
  match r with
  | .load _ _ _ w => w % 16 / 4 == beat
  | .request _ _ w => w % 16 / 4 == beat
  | .fetch .. => isFirst
  | .store .. | .walk .. => false

/-- SECTOR_BEAT (09 R382): one beat of a fill goes to the requesters whose word it holds. Loads of a sector
with waiting stores get the installed data (09 R387). -/
def execSectorBeat (cluster : BitVec 4) (sector : Nat) (s : State) : Outcome :=
  match (s.cluster cluster).missOf sector with
  | none => idle s
  | some m =>
    if m.granted.isNone || decide (4 ≤ m.beats) then idle s
    else
      let beat := (m.firstBeat + m.beats) % 4
      let now := m.reqs.filter fun r =>
        r.inBeat beat (m.beats == 0) && ((s.cluster cluster).combineOf sector).isNone
      let s := s.each now fun s r => s.giveWord sector m.data r
      .next (s.modCluster cluster fun cl => cl.modMiss sector fun m => { m with beats := m.beats + 1 })

/-- FILL clears when no miss entry of the block remains (09 R383). -/
def Cluster.clearFill (cl : Cluster) (blk : Nat) : Cluster :=
  match cl.findWay blk with
  | some k =>
    if cl.misses.any fun m => m.sector / 4 == blk then cl else cl.setWay k { (cl.way k) with fill := false }
  | none => cl

/-- The requesters of a fill that still wait get their words. -/
def State.giveRest (s : State) (m : Miss) (data : List TWord) : State :=
  s.each m.reqs fun s r => s.giveWord m.sector data r

/-- A LOADR of an installed sector sets its reservation (10 R441); of one that is not installed, none. -/
def State.reserveLoads (s : State) (m : Miss) (took : Bool) : State :=
  s.each m.reqs fun s r =>
    match r with
    | .load c k d _ =>
      let t := s.slot c k
      if t.loads.any fun l => l.reg == d && l.reserve == some m.sector then
        s.modSlot c k fun t =>
          { t with resv := if took then some m.sector else t.resv
                   loads := t.loads.map fun l => if l.reg = d then { l with reserve := none } else l }
      else s
    | _ => s

/-- The lines of the cells whose loads and fetches missed are filled (09 R367, R382). -/
def State.fillLines (s : State) (m : Miss) : State :=
  s.each m.reqs fun s r =>
    match r with
    | .load c k d _ =>
      let isReserve := (s.slot c k).loads.any fun l => l.reg == d && l.noFill
      if isReserve then s else s.modCell c (·.fillLine m.sector)
    | .fetch c _ => s.modCell c (·.fillLine m.sector)
    | _ => s

/-- The stores of a COMBINE entry are performed on the installed sector, in drain order (09 R383, R387). -/
def State.mergeStores (s : State) (q : Porch) : State :=
  s.each q.stores fun s (c, e) =>
    let cell := BitVec.ofNat 8 c
    (s.storeHere cell e).modStore cell e.id StEnt.made

/-- Remove the COMBINE entry of a sector. -/
def Cluster.dropCombine (cl : Cluster) (sec : Nat) : Cluster :=
  { cl with porch := cl.porch.filter fun q => !(q.state == .combine && q.sector == sec) }

/-- The words of a sector as memory has them now; what a fill brought, for one of another module. -/
def State.currentSector (s : State) (sec : Nat) (data : List TWord) : List TWord :=
  if s.isOwn (sec * 16) then (List.range 16).map fun i => s.peek (sec * 16 + i) else data

/-- The stores of a COMBINE entry over a sector that is not installed (09 R403 step 4). -/
def State.storesOver (s : State) (sec : Nat) (data : List TWord) (q : Porch) : List TWord × State :=
  q.stores.foldl (fun (d, s) (c, e) =>
    let cell := BitVec.ofNat 8 c
    let one (d : List TWord) (w : Nat) : List TWord := putWord d w (storedWord e.kind e.mask e.val (wordOf d w))
    let s := s.answerAtDrain cell e
    let d := if e.kind = .zero then (List.range 16).foldl (fun d j => one d (sec * 16 + j)) d else one d e.addr
    (d, s.modStore cell e.id StEnt.made)) (data, s)

/-- A COMBINE entry whose sector another cluster's Pantry holds, or a page move has copied, sends its stores
there (09 R394, 07 R308). -/
def State.storesAway (s : State) (g : BitVec 4) (q : Porch) : State :=
  s.each q.stores fun s (c, e) =>
    let cell := BitVec.ofNat 8 c
    let op : HomeOp := if e.kind = .zero then .zero cell e.id
      else .store cell e.id (s.partOfCell cell) (if e.kind = .word then 15 else e.mask) e.val
    s.toHome (sectorOf e.addr) (.hop e.home (s.agentOf g) e.addr op)

/-- Ask with write permission for the sector of a COMBINE entry that waits without a miss entry. -/
def State.askAgain (s : State) (g : BitVec 4) (q : Porch) : State :=
  let held := ((s.cluster g).sectorAt q.sector).st == 1
  let p := s.partOfCell (BitVec.ofNat 8 ((q.stores.map Prod.fst).headD 0))
  (s.openMiss g { newMiss q.sector q.home 0 p with wantX := true, upg := held }).getD s

/-- A filled sector that is not installed, because it is doomed (09 R403) or another cluster's Pantry holds it
(09 R394): its requesters have their words, its waiting stores become a write-back or go to the Pantry. -/
def State.closeUninstalled (s : State) (g : BitVec 4) (m : Miss) (away : Bool) : State :=
  let s := (s.giveRest m m.data).reserveLoads m false
  let s := s.modCluster g fun cl => (cl.dropMiss m.sector).clearFill (m.sector / 4)
  match (s.cluster g).combineOf m.sector with
  | none => s
  | some q =>
    if away then (s.modCluster g fun cl => cl.dropCombine m.sector).storesAway g q
    else if m.granted = some 2 then
      let (d, s) := s.storesOver m.sector (s.currentSector m.sector m.data) q
      let x : Sector := { st := 2, dirty := true, data := d }
      s.modCluster g fun cl => { (cl.dropCombine m.sector) with porch := (cl.dropCombine m.sector).porch ++
        [{ state := .waiting, block := m.sector / 4, home := m.home
           sectors := Map.set sector0 [] (m.sector % 4) x, sector := 0, stores := [] }] }
    else s.askAgain g q

/-- A filled sector is installed (09 R383): the waiting stores are merged over it, the requesters get their
words, and the grant is acknowledged. A sector granted for reading only, with stores that wait, is asked for
again with write permission. -/
def State.installSector (s : State) (g : BitVec 4) (m : Miss) (st : BitVec 2) : State :=
  let s := s.modCluster g fun cl => cl.putSector m.sector { st := st, dirty := false, data := m.data }
  let s := s.modCluster g fun cl => (cl.dropMiss m.sector).clearFill (m.sector / 4)
  let s := match (s.cluster g).combineOf m.sector with
    | none => s
    | some q =>
      if st = 2 then (s.modCluster g fun cl => cl.dropCombine m.sector).mergeStores q else s.askAgain g q
  let s := (s.fillLines m).giveRest m ((s.cluster g).sectorAt m.sector).data
  s.reserveLoads m (st == 2)

/-- SECTOR_INSTALL (09 R383, R381, R387, R394, R403; 10 R441). -/
def execSectorInstall (cluster : BitVec 4) (sector : Nat) (s : State) : Outcome :=
  match (s.cluster cluster).missOf sector with
  | none => idle s
  | some m =>
    match m.granted with
    | none => idle s
    | some st =>
      if m.beats < 4 then idle s
      else
        let away := (s.pantryOf (sector * 16)).isSome || s.redirect (sector * 16) != sector * 16
        let s := if m.doomed || away then s.closeUninstalled cluster m away else s.installSector cluster m st
        .next (s.toHome sector (.done m.home (s.agentOf cluster) sector))

/-! ### The Porch -/

/-- PORCH_WRITEBACK_SEND (09 R385): the oldest WAITING entry sends its write-back. -/
def execPorchWritebackSend (cluster : BitVec 4) (s : State) : Outcome :=
  match (s.cluster cluster).porch.find? fun q => q.state == .waiting with
  | none => idle s
  | some q =>
    let mark (y : Porch) : Porch := if y = q then { y with state := .sent } else y
    let s := (s.modCluster cluster fun cl => { cl with porch := cl.porch.map mark }).bump
      (cchBase cluster.toNat + 0x28)
    let secs := q.sectors.map fun e => (BitVec.ofNat 2 e.1, e.2.data)
    .next (s.toHome (q.block * 4) (.wb q.home (s.agentOf cluster) q.block secs))

/-- WB_ACK (10 R427, 09 R384): the entry whose write-back the home has taken is free. -/
def execWbAck (agent : Agent) (block : Nat) (s : State) : Outcome :=
  let free (s : State) : State := s.modCluster (agentCluster agent) fun cl =>
    { cl with porch := cl.porch.filter fun q => !(q.state == .sent && q.block == block) }
  if s.isOwn (block * 64) then onArrival (.wbAck agent block) s fun s => .next (free s)
  else whenever (s.isOwnAgent agent) s fun s => .next (free s)

/-! ### The Pantry (09 R390 to R396) -/

/-- The words of a 2 MiB machine block in a table of words. -/
def blockWords (m : Map TWord) (b : Nat) : Map TWord := m.filter fun e => e.1 / 2 ^ 19 == b

/-- The table without the words of a 2 MiB block. -/
def withoutBlock (m : Map TWord) (b : Nat) : Map TWord := m.filter fun e => e.1 / 2 ^ 19 != b

/-- Put the words of one table into another. -/
def putWords (m ws : Map TWord) : Map TWord := ws.foldl (fun m e => Map.set TWord.empty m e.1 e.2) m

/-- Every cached copy of a 2 MiB block's sectors is recalled (09 R392 step 3, R308). -/
def State.recallBlock (s : State) (b : Nat) : State :=
  let secs (cl : Cluster) : List Nat :=
    ((cl.ways.filter fun e => bigBlock (e.2.block * 64) == b).map fun e =>
      e.2.sectors.map fun x => e.2.block * 4 + x.1).flatten
    ++ ((cl.porch.filter fun q => q.state != .combine && bigBlock (q.block * 64) == b).map fun q =>
      q.sectors.map fun x => q.block * 4 + x.1).flatten
    ++ ((cl.misses.filter fun m => bigBlock (m.sector * 16) == b).map Miss.sector)
  s.each allClusters fun s g => s.each (secs (s.cluster g)) fun s x => if s.isOwn (x * 16) then s.recall x else s

/-- The homes hold every new request for a block, or hold it no longer. -/
def State.holdBlock (s : State) (b : Nat) (on : Bool) : State :=
  s.each allClusters fun s h => s.modHome h fun x =>
    { x with pantryHold := (x.pantryHold.filter (· != b)) ++ (if on then [b] else []) }

/-- The homes write a block into their Pantry range tables, or remove it. -/
def State.rangeBlock (s : State) (b : Nat) (at_ : Option (BitVec 4 × BitVec 2)) : State :=
  s.each allClusters fun s h => s.modHome h fun x =>
    { x with pantryMap := (x.pantryMap.filter fun e => e.1 != b)
        ++ (match at_ with | some (g, j) => [(b, g, j)] | none => []) }

/-- The pair's machine block (09 R408). -/
def State.pairBlock (s : State) (g : BitVec 4) (j : BitVec 2) : Nat := s.regField (pantryReg g j.toNat) 18 0

/-- The pair of a cluster, and replacing it. -/
def State.pair4 (s : State) (g : BitVec 4) (j : BitVec 2) : PantryPair := Map.get pair0 (s.cluster g).pairs j.toNat
def State.setPair (s : State) (g : BitVec 4) (j : BitVec 2) (x : PantryPair) : State :=
  s.modCluster g fun cl => { cl with pairs := Map.set pair0 cl.pairs j.toNat x }

/-- No miss, Porch entry or home transaction of a 2 MiB block is open any more. -/
def State.blockQuiet (s : State) (b : Nat) : Bool :=
  allClusters.all fun g =>
    !((s.cluster g).porch.any fun q => q.state != .combine && s.isOwn (q.block * 64) && bigBlock (q.block * 64) == b)
      && !((s.home g).trans.any fun t => bigBlock (t.block * 64) == b)

/-! ### Probes (10 R422 to R424, R443; 09 R388, R403) -/

/-- The sector that a strand's reservation is for, held or asked for by a LOADR that is outstanding. -/
def Slot.reserving (t : Slot) : Option Nat := match t.resv with | some x => some x | none => t.loads.findSome? PLoad.reserve

/-- The sector whose probes a cluster holds: of the strands whose reservations qualify the one that is served, the first
after the one served last in the order of cell and slot (10 R443). -/
def State.heldSector (s : State) (g : BitVec 4) : Option Nat :=
  let qualified := (cellsOf g).flatMap fun c => allSlots.filterMap fun k =>
    let t := s.slot c k
    if t.holdProbes then t.reserving.map fun x => (strandNo c k, x) else none
  let later := qualified.filter fun e => decide ((s.cluster g).turn < e.1)
  (later ++ qualified).head?.map Prod.snd

/-- A strand's reservation holds the probes of its sector (10 R443). -/
def State.probeHeld (s : State) (g : BitVec 4) (sec : Nat) : Bool := s.heldSector g == some sec

/-- A grant for the sector is on its way to the cluster, or has arrived and is not installed (10 R424;
DEDUCED, assumption 26). A home of another module shows its grants only as they arrive. -/
def State.grantAwaited (s : State) (g : BitVec 4) (sec : Nat) : Bool :=
  s.granting g sec || (!s.isOwn (sec * 16) && ((s.cluster g).missOf sec).isSome)

/-- The request that a home of this module serves for a block is a maintenance operation. -/
def State.isUpkeep (s : State) (h : BitVec 4) (sec : Nat) : Bool :=
  (s.home h).trans.any fun t => t.block == sec / 4 && !t.evict &&
    match t.req with
    | .hop _ _ w (.clean ..) => sectorOf w == sec
    | .hop _ _ w (.flush ..) => sectorOf w == sec
    | .zeroX _ _ x => x == sec
    | _ => false

/-- Mark the miss entry of a sector as doomed (09 R403 step 1). -/
def State.doom (s : State) (g : BitVec 4) (sec : Nat) : State :=
  (s.modCluster g fun cl => cl.modMiss sec fun m => { m with doomed := true }).bump (cchBase g.toNat + 0x30)

/-- Dirty data that a holder returns reaches memory with its answer (assumption 26). -/
def State.returnData (s : State) (sec : Nat) (x : Sector) : State :=
  if x.dirty && s.isOwn (sec * 16) then s.setDramSector sec x.data else s

/-- A WAITING Porch entry answers a probe with its dirty sectors and is free (09 R388). -/
def State.probePorch (s : State) (g : BitVec 4) (q : Porch) (sec : Nat) : State :=
  if s.isOwn (sec * 16) then
    let s := s.each q.sectors fun s e => s.returnData (q.block * 4 + e.1) e.2
    s.modCluster g fun cl => { cl with porch := cl.porch.erase q }
  else s.modCluster g fun cl =>
    let strip (y : Porch) : Porch := if y = q then { y with sectors := Map.del y.sectors (sec % 4) } else y
    { cl with porch := (cl.porch.map strip).filter fun y => y.state == .combine || y.sectors != [] }

/-- What a holder does with a probe and answers. -/
def State.probe (s : State) (g : BitVec 4) (sec : Nat) (keepShared : Bool) : ProbeAnswer × State :=
  match (s.cluster g).porchOf sec with
  | some q =>
    if q.state == .waiting then
      (.dirty (Map.get sector0 q.sectors (sec % 4)).data, s.probePorch g q sec)
    else (.wbInFlight, s)
  | none =>
    let x := (s.cluster g).sectorAt sec
    if x.st = 0 then (.notHeld, s)
    else
      let s := s.returnData sec x
      let ans : ProbeAnswer := if x.dirty then .dirty x.data else .clean
      if keepShared then (ans, s.modCluster g fun cl => cl.putSector sec { x with st := 1, dirty := false })
      else (ans, ((s.modCluster g fun cl => cl.putSector sec sector0).dropLines g sec none).dropResv g sec none)

/-- The home of a sector as the message that reaches it is addressed: of this module, the one that holds a
transaction for the block. -/
def State.homeServing (s : State) (sec : Nat) : BitVec 4 :=
  (allClusters.find? fun h => (s.home h).trans.any fun t => t.block == sec / 4).getD (BitVec.ofNat 4 (sec / 4))

/-- A probe at its holder: held, or answered (10 R422, R424). -/
def State.probed (s : State) (me : Instr) (a : Agent) (sec : Nat) (keepShared : Bool) (target : Option Agent) :
    Outcome :=
  let g := agentCluster a
  let h := s.homeServing sec
  if !s.isOwnAgent a then idle s
  else
    let upkeep := s.isUpkeep h sec && ((s.cluster g).missOf sec).isSome && !s.granting g sec
    if s.probeHeld g sec || (s.grantAwaited g sec && !upkeep) then idle s
    else
      let go (s : State) : Outcome :=
        let s := if upkeep then s.doom g sec else s
        let (ans, s) := s.probe g sec keepShared
        let s := match target, ans with
          | some t, .dirty d => s.toAgent t (.dataX t sec d)
          | some t, .clean => s.toAgent t (.dataX t sec (s.currentSector sec []))
          | _, _ => s
        .next (s.toHome sec (.prbRsp h a sec ans))
      if s.isOwn (sec * 16) then onArrival me s go else go s

/-- PRB_S (10 R422): X becomes S and dirty data returns. -/
def execPrbS (agent : Agent) (sector : Nat) (s : State) : Outcome :=
  s.probed (.prbS agent sector) agent sector true none
/-- PRB_I (10 R422): the copy goes and dirty data returns. -/
def execPrbI (agent : Agent) (sector : Nat) (s : State) : Outcome :=
  s.probed (.prbI agent sector) agent sector false none
/-- PRB_F (10 R422): the copy goes and its data is sent to the requester. -/
def execPrbF (agent : Agent) (sector : Nat) (target : Agent) (s : State) : Outcome :=
  s.probed (.prbF agent sector target) agent sector false (some target)

/-! ### Grants (10 R422, R424, R430) -/

/-- A grant arrives at a cluster whose miss entry waits for it; it comes by the mesh from a home or a holder
of this module, else by the fabric. -/
def State.grantArrives (s : State) (me : Instr) (a : Agent) (sec : Nat) (f : State → Miss → Miss) : Outcome :=
  let g := agentCluster a
  let take (s : State) : Outcome :=
    match (s.cluster g).missOf sec with
    | none => .next s
    | some m => if m.granted.isSome then .next s
      else .next (s.modCluster g fun cl => cl.modMiss sec fun _ => f s m)
  if !s.isOwnAgent a then idle s
  else if s.isOwn (sec * 16) then onArrival me s take else take s

/-- DATA_S (10 R422). -/
def execDataS (agent : Agent) (sector : Nat) (data : List TWord) (s : State) : Outcome :=
  s.grantArrives (.dataS agent sector data) agent sector fun _ m =>
    { m with granted := some 1, data := data, retrying := false }
/-- DATA_X (10 R422, R423). -/
def execDataX (agent : Agent) (sector : Nat) (data : List TWord) (s : State) : Outcome :=
  s.grantArrives (.dataX agent sector data) agent sector fun _ m =>
    { m with granted := some 2, data := data, retrying := false }

/-- What a cluster has when X is granted without data: for CMAINT.ZERO INT 0 in every word not tagged DEFER
(09 R399), else its shared copy. -/
def State.grantedData (s : State) (g : BitVec 4) (m : Miss) : List TWord :=
  let x := (s.cluster g).sectorAt m.sector
  let cur := if x.st != 0 then x.data else s.currentSector m.sector (List.replicate 16 TWord.zero)
  if m.zero then cur.map (storedWord .zero 0 TWord.zero) else cur

/-- GRANT_X (10 R422): no beat follows. -/
def execGrantX (agent : Agent) (sector : Nat) (s : State) : Outcome :=
  s.grantArrives (.grantX agent sector) agent sector fun s m =>
    { m with granted := some 2, data := s.grantedData (agentCluster agent) m, beats := 4, retrying := false }

/-- RETRY (10 R426, R430): the cluster counts it against the request of its miss entry; an operation that its
home would not take waits there to be reissued. -/
def execRetry (agent : Agent) (sector : Nat) (s : State) : Outcome :=
  let g := agentCluster agent
  let take (s : State) : Outcome :=
    .next (s.modCluster g fun cl => cl.modMiss sector fun m =>
      if m.granted.isSome || m.retrying then m else { m with retrying := true, retries := m.retries + 1 })
  if !s.isOwnAgent agent then idle s
  else if s.isOwn (sector * 16) then onArrival (.retry agent sector) s take
  else take s

/-- The operation is an agent's on a sector. -/
def isHopOf (a : Agent) (sec : Nat) (c : Instr) : Bool :=
  match c with
  | .hop _ b w _ => b == a && sectorOf w == sec
  | _ => false

/-- REQUEST_REISSUE (10 R430): after 32 to 64 kc the request goes to its home again. -/
def execRequestReissue (agent : Agent) (sector : Nat) (s : State) : Outcome :=
  let g := agentCluster agent
  if !s.isOwnAgent agent then idle s
  else
    let hops := (allClusters.map fun h => ((s.home h).retried.filter fun e => isHopOf agent sector e.1).map
      fun e => (h, e)).flatten
    match (s.cluster g).missOf sector, hops with
    | some m, [] =>
      if m.retrying then
        let s := s.modCluster g fun cl => cl.modMiss sector fun m => { m with retrying := false }
        .next (s.toHome sector (missRequest m agent))
      else idle s
    | _, (h, e) :: _ =>
      let s := s.modHome h fun x => { x with retried := x.retried.filter (· != e) }
      .next (s.toHome sector e.1)
    | none, [] => idle s

/-! ### Operations performed at a home (10 R422, R439, R441; 02 R81) -/

/-- A strand that waits for its home's answer goes on. -/
def State.hopDone (s : State) (c : CellId) (k : SlotId) (v : Option TWord) : State :=
  match (s.slot c k).wait with
  | .hop d next =>
    let s := s.modSlot c k fun t =>
      let t := { t with wait := .none, pc := next }
      match d, v with
      | some r, some x => t.setG r x
      | _, _ => t
    ((s.recordResult c k next).afterInstr c k).sampled c k
  | _ => s

/-- A home refuses an I-structure operation: a tag event at its instruction. -/
def State.hopRefused (s : State) (c : CellId) (k : SlotId) (reason : Byte) : State :=
  match (s.slot c k).wait with
  | .hop .. => (s.modSlot c k fun t => { t with wait := .none }).raiseInTurn c k (tagEv reason) (s.slot c k).pc
  | _ => s

/-- An entry that left for a home is performed there. -/
def StEnt.ackedAtHome (e : StEnt) : StEnt := if e.sent then e.made else e

/-- The header of a reader's context records a deferred read (02 R82). -/
def State.noteDeferred (s : State) (ctx va : Word) : State :=
  s.modFrame (frameOf ctx) fun x => { x with deferAddr := va, deferCnt := x.deferCnt + 1 }

/-- What the answer to an operation does at the cell that asked. An IFETCH whose read was deferred is answered
with DEFER; one that the home could not take is kept to be reissued (02 R82, R83). -/
def State.hopAnswer (s : State) (op : HomeOp) (w : Nat) (v : TWord) (ok : Bool) : State :=
  match op with
  | .ifetch c n _ va resp =>
    if !ok then s.deferRequest c n
    else if v.tag = Tag.defer then
      let s := if s.isOwn w then s else s.noteDeferred resp.ctx va
      s.modCell c fun x => { x with reqs := x.reqs.filter fun y => y.id != n }
    else s.answerRequest c n v
  | .ldp c n => s.answerRequest c n (loadedWord v)
  | .istore c k _ _ => if ok then s.hopDone c k none else s.hopRefused c k 0x08
  | .iclear c k => if ok then s.hopDone c k none else s.hopRefused c k 0x09
  | .load c k r => s.giveLoad c k r w v
  | .loadr c k r =>
    let s := s.giveLoad c k r w v
    s.modSlot c k fun t =>
      if t.loads.any fun l => l.reg == r && l.reserve.isSome then
        { t with resv := some (sectorOf w)
                 loads := t.loads.map fun l => if l.reg = r then { l with reserve := none } else l }
      else t
  | .storec c k _ =>
    let s := if (s.slot c k).wait = .none then s else s.storecEnds c k ok
    s.hopDone c k (some (TWord.bool ok))
  | .store c n _ _ _ => s.modStore c n StEnt.ackedAtHome
  | .clean c n => s.modStore c n StEnt.ackedAtHome
  | .flush c n => s.modStore c n StEnt.ackedAtHome
  | .zero c n => s.modStore c n StEnt.ackedAtHome

/-- HOP_ACK (10 R422). -/
def execHopAck (agent : Agent) (word : Nat) (op : HomeOp) (result : TWord) (ok : Bool) (s : State) : Outcome :=
  if !s.isOwnAgent agent then idle s
  else if s.isOwn word then
    onArrival (.hopAck agent word op result ok) s fun s => .next (s.hopAnswer op word result ok)
  else .next (s.hopAnswer op word result ok)

end Sys2Proof.Machine
end

