-- ==== Sys2Proof/Machine/Homes.lean ====
section
/-! DEFINITION. The home agents (chapter 10): the directory, the order in which requests take effect, the
transactions and their probes, write-backs, operations performed at the home, and dead agents. -/

namespace Sys2Proof

/-- An operation at the home that only reads, so that a holder may keep its copy. -/
def HomeOp.isRead (op : HomeOp) : Bool :=
  match op with
  | .ldp .. => true
  | .load .. => true
  | .loadr .. => true
  | .clean .. => true
  | _ => false

end Sys2Proof

namespace Sys2Proof.Machine

/-! ### Requests -/

/-- The agent that sent a request. -/
def reqAgent (c : Instr) : Agent :=
  match c with
  | .rdS _ a _ _ => a
  | .rdX _ a _ _ => a
  | .upg _ a _ => a
  | .zeroX _ a _ => a
  | .hop _ a _ _ => a
  | _ => 0

/-- The home that a request goes to. -/
def reqHome (c : Instr) : Option (BitVec 4) :=
  match c with
  | .rdS h _ _ _ => some h
  | .rdX h _ _ _ => some h
  | .upg h _ _ => some h
  | .zeroX h _ _ => some h
  | .hop h _ _ _ => some h
  | _ => none

/-- The sector that a request is for. -/
def reqSector (c : Instr) : Nat :=
  match c with
  | .rdS _ _ x _ => x
  | .rdX _ _ x _ => x
  | .upg _ _ x => x
  | .zeroX _ _ x => x
  | .hop _ _ w _ => sectorOf w
  | _ => 0

/-- What the error codes gave when the home read for a request. -/
def reqEcc (c : Instr) : Ecc :=
  match c with
  | .rdS _ _ _ e => e
  | .rdX _ _ _ e => e
  | _ => .ok

/-! ### The directory (10 R419, R428) -/

/-- The block number b of 10 R419 at a home (assumption 27: a block whose [11:8] name the home counts as
HOMING 0). -/
def dirBlock (h : BitVec 4) (blk : Nat) : Nat :=
  let b := blk % 2 ^ 32
  if b % 16 = h.toNat then b / 16 else b / 4

/-- The set of a block. -/
def dirSet (h : BitVec 4) (blk : Nat) : Nat := (dirBlock h blk % 65536).xor (dirBlock h blk / 65536 % 65536)

/-- The ways of a set. -/
def dirWays (set : Nat) : List Nat := (List.range 16).map (set * 16 + ·)

def Home.ent (x : Home) (k : Nat) : DirEnt := Map.get dir0 x.dir k
def Home.setEnt (x : Home) (k : Nat) (e : DirEnt) : Home := { x with dir := Map.set dir0 x.dir k e }

/-- The way that holds a block's entry. -/
def Home.findEnt (x : Home) (h : BitVec 4) (blk : Nat) : Option Nat :=
  (dirWays (dirSet h blk)).find? fun k => (x.ent k).v && (x.ent k).tag == blk

/-- Fields of an entry by sector. -/
def DirEnt.state (e : DirEnt) (i : Nat) : BitVec 2 := Map.get 0 e.ds i
def DirEnt.ownerOf (e : DirEnt) (i : Nat) : Agent := Map.get 0 e.owner i
def DirEnt.setState (e : DirEnt) (i : Nat) (v : BitVec 2) : DirEnt := { e with ds := Map.set 0 e.ds i v }
def DirEnt.setOwner (e : DirEnt) (i : Nat) (a : Agent) : DirEnt := { e with owner := Map.set 0 e.owner i a }
def DirEnt.setWb (e : DirEnt) (i : Nat) (b : Bool) : DirEnt := { e with wb := Map.set false e.wb i b }

/-- Sectors in S. -/
def DirEnt.anyShared (e : DirEnt) : Bool := (List.range 4).any fun i => e.state i == 1

/-- SHARERS names agents only while some sector is in S. -/
def DirEnt.tidy (e : DirEnt) : DirEnt := if e.anyShared then e else { e with sharers := [] }

/-- Change the entry of a block. -/
def Home.modBlock (x : Home) (h : BitVec 4) (blk : Nat) (f : DirEnt → DirEnt) : Home :=
  match x.findEnt h blk with
  | some k => x.setEnt k (f (x.ent k))
  | none => x

/-- The agent is marked dead at a home (10 R433). -/
def State.agentDead (s : State) (h : BitVec 4) (a : Agent) : Bool :=
  (s.reg64 (dirBase h.toNat + 0x10)).testBit a.toNat

/-! ### Memory (10 R413 to R416) -/

/-- The failed channels of a memory group. -/
def State.failedChannels (s : State) (h : BitVec 4) : Word := s.reg (dirBase (h.toNat / 4 * 4) + 0x18)

/-- Count an error of the channel that holds a sector (10 R416). -/
def State.countMemErr (s : State) (h : BitVec 4) (sec : Nat) (lost : Bool) : State :=
  let k := 5 * (h.toNat / 4) + sec % 4
  let (c, u) := Map.get (0, 0) s.memErrs k
  let v := if lost then (c, satAdd 0xFFFFFFFF u 1) else (satAdd 0xFFFFFFFF c 1, u)
  { s with memErrs := Map.set (0, 0) s.memErrs k v }

/-- Read a sector of memory for a request (10 R415): a failed channel or an uncorrectable sector is
reconstructed; both together, or a second failed channel, give POISON (FREE VALUE: its data) and a machine
check. -/
def State.readSector (s : State) (h : BitVec 4) (sec : Nat) (ecc : Ecc) : List TWord × State :=
  let m := h.toNat / 4
  let f := s.failedChannels h
  let here := bit f (sec % 4)
  let failed := ((List.range 5).filter fun i => bit f i).length
  let bad : Bool := ecc == .payload
  let lost := (here && decide (2 ≤ failed)) || (bad && decide (1 ≤ failed))
  if lost then
    let (v, s) := s.draw
    let (_, s) := (s.assertSrc (groupSource m 6)).makeRecord
      { kind := 4, source := groupSource m 6, addr := localWord (sec * 16) * 4 }
    let s := if bad then s.countMemErr h sec true else s
    (List.replicate 16 ⟨Tag.poison, v.setWidth 32⟩, s)
  else
    let s := if here || bad then s.assertSrc (groupSource m 7) else s
    let s := if bad then s.countMemErr h sec true else s
    let s := if ecc = .corrected then (s.assertSrc (groupSource m 5)).countMemErr h sec false else s
    (s.dramSector sec, s)

/-! ### Answers that refuse (10 R426, R430) -/

/-- RETRY (10 R430): an operation is kept with its home to be reissued, and the RETRYs of another module's
request are counted. -/
def State.refuse (s : State) (h : BitVec 4) (c : Instr) : State :=
  let a := reqAgent c
  let s := (s.bump (dirBase h.toNat + 0x24)).toAgent a (.retry a (reqSector c))
  let isHop : Bool := match c with | .hop .. => true | _ => false
  if isHop then s.modHome h fun x => { x with retried := x.retried ++ [(c, 0)] }
  else if s.isOwnAgent a then s
  else s.modHome h fun x =>
    let n := ((x.retried.find? fun e => e.1 == c).map Prod.snd).getD 0
    { x with retried := (x.retried.filter fun e => e.1 != c) ++ [(c, n + 1)] }

/-- A request that was reissued eight times is eligible for the starvation slot (10 R430). -/
def State.eligibleReq (s : State) (h : BitVec 4) (c : Instr) : Bool :=
  let a := reqAgent c
  if s.isOwnAgent a then
    match (s.cluster (agentCluster a)).missOf (reqSector c) with
    | some m => decide (8 ≤ m.retries)
    | none => false
  else (s.home h).retried.any fun e => e.1 == c && decide (8 ≤ e.2)

/-! ### Operations performed at the home (10 R422; 02 R80 to R83; R441) -/

/-- The strand whose store-buffer entry an operation carries. -/
def State.strandOf (s : State) (c : CellId) (n : Nat) : Option (CellId × SlotId) :=
  ((s.cell c).stbuf.find? fun e => e.id == n).map fun e => (c, e.slot)

/-- Reservations that a home keeps end when another strand stores to their sector (10 R442). -/
def State.endHomeResv (s : State) (h : BitVec 4) (sec : Nat) (by_ : Option (CellId × SlotId)) : State :=
  s.modHome h fun x => { x with resv := x.resv.filter fun r => r.2.2 != sec || some (r.1, r.2.1) == by_ }

/-- A store at the home: readers that it finds waiting are answered (03 R710). -/
def State.homeStore (s : State) (h : BitVec 4) (w : Nat) (by_ : Option (CellId × SlotId)) (p : BitVec 6)
    (f : TWord → TWord) : State :=
  let old := s.peek w
  let v := f old
  let s := if old.tag = Tag.defer ∧ v.tag ≠ Tag.defer then s.answerReaders h p old.data v else s
  (s.poke w v).endHomeResv h (sectorOf w) by_

/-- An IFETCH of an EMPTY or DEFER word adds a deferral record to the Cellar of the partition that owns the space (02
R81, R82); none when it has no room. The header of a reader of this module records it at once; another module's
reader records it when it has the answer. -/
def State.deferRead (s : State) (h : BitVec 4) (own : Bool) (c : CellId) (n : Nat) (p : BitVec 6) (va : Word)
    (resp : Token) (w : Nat) (old : TWord) : Option State :=
  let head : Word := if old.tag = Tag.defer then old.data else 0
  (s.chainAdd p (.home h) kindDefer va head resp true).map fun (k, s) =>
    let s := s.poke w ⟨Tag.defer, k⟩
    if own then
      (s.noteDeferred resp.ctx va).modCell c fun x =>
        { x with reqs := x.reqs.map fun r => if r.id = n then { r with deferred := true } else r }
    else s

/-- Perform an operation at its home: the word it answers with, whether it was performed, and the state. -/
def State.performHop (s : State) (h : BitVec 4) (own : Bool) (w : Nat) (op : HomeOp) : TWord × Bool × State :=
  let v := s.peek w
  let sec := sectorOf w
  match op with
  | .ifetch c n p va resp =>
    if v.tag = Tag.empty ∨ v.tag = Tag.defer then
      match s.deferRead h own c n p va resp w v with
      | some s => (⟨Tag.defer, 0⟩, true, s)
      | none => (TWord.empty, false, s)
    else (v, true, s)
  | .ldp _ _ => (v, true, s)
  | .istore c k p x =>
    if v.tag = Tag.empty ∨ v.tag = Tag.defer then
      (TWord.empty, true, s.homeStore h w (if own then some (c, k) else none) p fun _ => x)
    else (TWord.empty, false, s)
  | .iclear c k =>
    if v.tag = Tag.defer then (TWord.empty, false, s)
    else (TWord.empty, true, (s.poke w TWord.empty).endHomeResv h sec (some (c, k)))
  | .load _ _ _ => (v, true, s)
  | .store c n p m x =>
    let kind : StKind := if m = 15 then .word else .sub
    (TWord.empty, true, s.homeStore h w (if own then s.strandOf c n else none) p (storedWord kind m x))
  | .loadr c k _ =>
    (v, true, s.modHome h fun y =>
      { y with resv := (y.resv.filter fun r => !(r.1 == c && r.2.1 == k)) ++ [(c, k, sec)] })
  | .storec c k x =>
    let held := (s.home h).resv.contains (c, k, sec)
    let s := s.modHome h fun y => { y with resv := y.resv.filter fun r => !(r.1 == c && r.2.1 == k) }
    if held && v.tag != Tag.defer then (TWord.bool true, true, (s.poke w x).endHomeResv h sec none)
    else (TWord.bool false, false, s)
  | .clean _ _ => (TWord.empty, true, s)
  | .flush _ _ => (TWord.empty, true, s)
  | .zero c n =>
    let by_ := if own then s.strandOf c n else none
    (TWord.empty, true, (s.each (List.range 16) fun s j =>
      let a := sec * 16 + j
      s.poke a (storedWord .zero 0 TWord.zero (s.peek a))).endHomeResv h sec by_)

/-- Perform an operation and answer it. -/
def State.hopHere (s : State) (h : BitVec 4) (a : Agent) (w : Nat) (op : HomeOp) : State :=
  let (v, ok, s) := s.performHop h (s.isOwnAgent a) w op
  let s := match op with
    | .ifetch .. => if ok then s else s.bump (dirBase h.toNat + 0x24)
    | _ => s
  s.toAgent a (.hopAck a w op v ok)

/-! ### Transactions (10 R425 to R430) -/

/-- The transaction of a block, changing it and removing it. -/
def Home.transOf (x : Home) (blk : Nat) : Option Trans := x.trans.find? fun t => t.block == blk
def Home.modTrans (x : Home) (blk : Nat) (f : Trans → Trans) : Home :=
  { x with trans := x.trans.map fun t => if t.block = blk then f t else t }
def Home.dropTrans (x : Home) (blk : Nat) : Home := { x with trans := x.trans.filter fun t => t.block != blk }

/-- A request for a block must wait: a transaction for it is open, or the block is held for the Pantry (09 R392). -/
def Home.blocked (x : Home) (blk : Nat) : Bool :=
  x.trans.any (fun t => t.block == blk) || x.pantryHold.contains (bigBlock (blk * 64))

/-- Open a transaction and send its probes. -/
def State.openTrans (s : State) (h : BitVec 4) (t : Trans) (probes : List Instr) : State :=
  s.modHome h (fun x => { x with trans := x.trans ++ [{ t with since := s.now }] }) |> fun s =>
    s.each probes fun s c =>
      match c with
      | .prbS a _ => s.toAgent a c
      | .prbI a _ => s.toAgent a c
      | .prbF a _ _ => s.toAgent a c
      | _ => s

/-- A transaction before any probe of it. -/
def newTrans (blk : Nat) (c : Instr) : Trans :=
  { block := blk, req := c, evict := false, awaits := [], since := 0, second := false, fwd := false
    sent := false, data := none, granted := false }

/-- The data of a transaction: what a holder returned, or memory. -/
def State.transData (s : State) (h : BitVec 4) (t : Trans) : List TWord × State :=
  match t.data with
  | some d => (d, s)
  | none => s.readSector h (reqSector t.req) (reqEcc t.req)

/-- Every answer of a request's transaction has come (10 R426): the grant leaves and waits for DONE. True when
the transaction closes at once. -/
def State.grant (s : State) (h : BitVec 4) (t : Trans) : Bool × State :=
  let a := reqAgent t.req
  let sec := reqSector t.req
  let i := sec % 4
  let mark (f : DirEnt → DirEnt) (s : State) : State :=
    s.modHome h fun x => (x.modBlock h t.block f).modTrans t.block fun t => { t with granted := true }
  let toX (e : DirEnt) : DirEnt := ((e.setState i 2).setOwner i a).tidy
  match t.req with
  | .rdS .. =>
    let (d, s) := s.transData h t
    let share (e : DirEnt) : DirEnt :=
      let was := if e.state i = 2 then [e.ownerOf i] else []
      { (e.setState i 1).setOwner i 0 with
        sharers := (e.sharers.filter fun b => b != a && !was.contains b) ++ was ++ [a] }
    (false, (mark share s).toAgent a (.dataS a sec d))
  | .rdX .. =>
    if t.sent then (false, mark toX s)
    else
      let (d, s) := s.transData h t
      (false, (mark toX s).toAgent a (.dataX a sec d))
  | .upg .. => (false, (mark toX s).toAgent a (.grantX a sec))
  | .zeroX .. => (false, (mark toX s).toAgent a (.grantX a sec))
  | .hop _ _ w op =>
    let after (e : DirEnt) : DirEnt :=
      if op.isRead then
        (if e.state i = 2 then
          { (e.setState i 1).setOwner i 0 with sharers := (e.sharers.filter (· != e.ownerOf i)) ++ [e.ownerOf i] }
         else e)
      else ((e.setState i 0).setOwner i 0).tidy
    (true, (s.modHome h fun x => x.modBlock h t.block after).hopHere h a w op)
  | _ => (true, s)

/-- The probes that a request needs (10 R422, R423, R427): a request from the home's queue has the owner
forward its data to the requester, as the worked race of R427 does. -/
def neededProbes (e : DirEnt) (c : Instr) (queued : Bool) : List (Agent × Nat) × List Instr × Bool :=
  let a := reqAgent c
  let sec := reqSector c
  let i := sec % 4
  let own := e.ownerOf i
  let others := if e.state i = 1 then e.sharers.filter (· != a) else []
  let exclusive (c' : List Instr) : List (Agent × Nat) × List Instr × Bool :=
    if e.state i = 2 ∧ own ≠ a then ([(own, sec)], c', false)
    else (others.map (·, sec), others.map (Instr.prbI · sec), false)
  match c with
  | .rdS .. => if e.state i = 2 ∧ own ≠ a then ([(own, sec)], [.prbS own sec], false) else ([], [], false)
  | .rdX .. =>
    if e.state i = 2 ∧ own ≠ a ∧ queued then ([(own, sec)], [.prbF own sec a], true)
    else exclusive [.prbI own sec]
  | .upg .. => exclusive [.prbI own sec]
  | .zeroX .. => exclusive [.prbI own sec]
  | .hop _ _ _ op =>
    if op.isRead then (if e.state i = 2 then ([(own, sec)], [.prbS own sec], false) else ([], [], false))
    else if e.state i = 2 then ([(own, sec)], [.prbI own sec], false)
    else if e.state i = 1 then (e.sharers.map (·, sec), e.sharers.map (Instr.prbI · sec), false)
    else ([], [], false)
  | _ => ([], [], false)

/-- An UPG whose requester holds no copy any more is served as RD_X (10 R423). -/
def asServed (e : DirEnt) (c : Instr) : Instr :=
  match c with
  | .upg h a x => if e.state (x % 4) = 1 ∧ e.sharers.contains a then c else .rdX h a x .ok
  | _ => c

/-- Serve a request on a block's entry: probes first, or the grant at once. True when it is closed. -/
def State.openOn (s : State) (h : BitVec 4) (k : Nat) (c : Instr) (queued : Bool) : Bool × State :=
  let e := (s.home h).ent k
  let blk := reqSector c / 4
  let c := asServed e c
  let (aw, ps, fwd) := neededProbes e c queued
  let s := s.modHome h fun x => x.setEnt k { e with pin := true }
  let t := { newTrans blk c with awaits := aw, fwd := fwd }
  let s := s.openTrans h t ps
  if aw = [] then s.grant h t else (false, s)

/-- Give a way of the directory to a block, and serve the request that waits for it. -/
def State.takeWay (s : State) (h : BitVec 4) (k : Nat) (c : Instr) : Bool × State :=
  (s.modHome h fun x => x.setEnt k { dir0 with v := true, pin := true, tag := reqSector c / 4 }).openOn h k c false

/-- Evict an entry for a request (10 R429): sectors in X are recalled first. True when the request is served
and closed. -/
def State.evictDir (s : State) (h : BitVec 4) (k : Nat) (c : Instr) : Bool × State :=
  let e := (s.home h).ent k
  let s := s.bump (dirBase h.toNat + 0x2C)
  let xs := (List.range 4).filter fun i => e.state i == 2
  let own := xs.map fun i => (e.ownerOf i, e.tag * 4 + i)
  let shared := (e.sharers.map fun a => ((List.range 4).filter fun i => e.state i == 1).map
    fun i => (a, e.tag * 4 + i)).flatten
  let s := s.modHome h fun x => x.setEnt k { e with pin := true }
  let aw := if own = [] then shared else own
  if aw = [] then s.takeWay h k c
  else
    (false, s.openTrans h { newTrans e.tag c with evict := true, awaits := aw, second := own == [] }
      (aw.map fun p => Instr.prbI p.1 p.2))

/-- Find a way for a request whose block has no entry (10 R428, R430). True when it is served and closed. -/
def State.findWayDir (s : State) (h : BitVec 4) (c : Instr) : Bool × State :=
  let x := s.home h
  let set := dirSet h (reqSector c / 4)
  let ways := dirWays set
  match ways.find? fun k => !(x.ent k).v with
  | some k => s.takeWay h k c
  | none =>
    let loose := ways.filter fun k => !(x.ent k).pin
    if loose = [] then
      if s.eligibleReq h c && (Map.get none x.starve set).isNone then
        (false, s.modHome h fun x => { x with starve := Map.set none x.starve set (some c) })
      else (false, s.refuse h c)
    else
      let a := dirBase h.toNat + 8
      let l := lfsrStep ((s.reg a).setWidth 16)
      let s := s.setReg a (l.setWidth 32)
      let r := l.toNat % 16
      match ((loose.filter fun k => decide (r ≤ k % 16)) ++ loose).head? with
      | some k => s.evictDir h k c
      | none => (false, s)

/-- A request to a block that a Pantry holds is forwarded to the Pantry's cluster, which performs it and
answers the requester (09 R394, R395); so is one to a block that a page move has copied (07 R308 step 4). -/
def State.servePantry (s : State) (h : BitVec 4) (c : Instr) : State :=
  let a := reqAgent c
  let sec := reqSector c
  let d := (List.range 16).map fun i => s.peek (sec * 16 + i)
  match c with
  | .rdS .. => s.toAgent a (.dataS a sec d)
  | .rdX .. => s.toAgent a (.dataX a sec d)
  | .upg .. => s.toAgent a (.dataX a sec d)
  | .zeroX .. => s.toAgent a (.dataX a sec d)
  | .hop _ _ w op => s.hopHere h a w op
  | _ => s

/-- An uncorrectable directory entry (10 R431): every sector of the block is probed away at every agent of the
group; then the request takes the way anew. -/
def State.lostEntry (s : State) (h : BitVec 4) (k : Nat) (c : Instr) : State :=
  let blk := reqSector c / 4
  let members := s.regField (dirBase h.toNat + 0xC) 7 4
  let agents := (List.range 64).filter fun a => members.testBit (a / 16) && !s.agentDead h (BitVec.ofNat 6 a)
  let aw := (agents.map fun a => (List.range 4).map fun i => (BitVec.ofNat 6 a, blk * 4 + i)).flatten
  let s := (s.bump (dirBase h.toNat + 0x44)).assertSrc (homeSource h 1)
  let (_, s) := s.makeRecord { kind := 4, source := homeSource h 1, addr := localWord (blk * 64) * 4 }
  let s := s.modHome h fun x => x.setEnt k { (x.ent k) with pin := true }
  s.openTrans h { newTrans blk c with evict := true, awaits := aw, second := true }
    (aw.map fun p => Instr.prbI p.1 p.2)

/-- Serve a request that nothing blocks. True when it is served and closed. -/
def State.serveReq (s : State) (h : BitVec 4) (c : Instr) (queued : Bool) : Bool × State :=
  let x := s.home h
  let sec := reqSector c
  let isHop : Bool := match c with | .hop .. => true | _ => false
  let s := if reqEcc c = .corrected then (s.bump (dirBase h.toNat + 0x40)).assertSrc (homeSource h 0) else s
  if (x.pantryMap.any fun e => e.1 == bigBlock (sec * 16)) || s.redirect (sec * 16) != sec * 16 then
    (false, s.servePantry h c)
  else
    match x.findEnt h (sec / 4) with
    | some k => if reqEcc c = .key then (false, s.lostEntry h k c) else s.openOn h k c queued
    | none =>
      if isHop then
        match c with
        | .hop _ a w op => (false, s.hopHere h a w op)
        | _ => (false, s)
      else s.findWayDir h c

/-- The first queued request that nothing blocks. -/
def Home.nextQueued (x : Home) : Option Instr := x.queue.find? fun c => !x.blocked (reqSector c / 4)

/-- Unpin a block's entry when its transaction closes. -/
def State.closeTrans (s : State) (h : BitVec 4) (blk : Nat) : State :=
  s.modHome h fun x => (x.dropTrans blk).modBlock h blk fun e => { e with pin := false }

/-- The request in a set's starvation slot takes a way that has become unpinned (10 R430). -/
def State.serveStarved (s : State) (h : BitVec 4) (blk : Nat) : State :=
  let x := s.home h
  let set := dirSet h blk
  match Map.get none x.starve set, (dirWays set).find? fun k => !(x.ent k).pin with
  | some c, some k =>
    let s := (s.modHome h fun x => { x with starve := Map.set none x.starve set none }).bump (dirBase h.toNat + 0x28)
    let (shut, s) := if (x.ent k).v then s.evictDir h k c else s.takeWay h k c
    if shut then s.closeTrans h (reqSector c / 4) else s
  | _, _ => s

/-- Serve the queue, oldest first, as far as nothing blocks it; `fuel` is its length. -/
def State.serveQueue (s : State) (h : BitVec 4) : Nat → State
  | 0 => s
  | n + 1 =>
    match (s.home h).nextQueued with
    | none => s
    | some c =>
      let s := s.modHome h fun x => { x with queue := x.queue.erase c }
      let (shut, s) := s.serveReq h c true
      State.serveQueue (if shut then s.closeTrans h (reqSector c / 4) else s) h n

/-- A transaction closes: the way is free for a starved request, then the queue goes on. -/
def State.closed (s : State) (h : BitVec 4) (blk : Nat) : State :=
  let s := (s.closeTrans h blk).serveStarved h blk
  s.serveQueue h (s.home h).queue.length

/-- A home samples one request in 64 (07 R307): its table holds 256 blocks (FREE VALUE: which one leaves). -/
def State.samplePage (s : State) (h : BitVec 4) (c : Instr) : State :=
  let n := (s.home h).sampleCnt + 1
  let s := s.modHome h fun x => { x with sampleCnt := n }
  if n ≠ 0 then s
  else
    let b := bigBlock (reqSector c * 16)
    let a := reqAgent c
    if (s.home h).pageSamples.any fun e => e.1 == b then
      s.modHome h fun x => { x with pageSamples := x.pageSamples.map fun e =>
        if e.1 = b then (b, e.2 ++ [a]) else e }
    else
      let (r, s) := s.draw
      s.modHome h fun x => { x with pageSamples := insertRandom 256 x.pageSamples (b, [a]) r.toNat }

/-- The arbiter takes a request (10 R425, R426). -/
def State.takeReq (s : State) (h : BitVec 4) (c : Instr) : State :=
  let x := s.home h
  let blk := reqSector c / 4
  let s := (s.bump (dirBase h.toNat + 0x20)).samplePage h c
  if x.blocked blk || x.queue.any fun q => reqSector q / 4 == blk then
    if x.queue.length < 512 then s.modHome h fun x => { x with queue := x.queue ++ [c] }
    else ((s.bump (dirBase h.toNat + 0x34)).assertSrc (homeSource h 6)).refuse h c
  else
    let (shut, s) := s.serveReq h c false
    if shut then s.closed h blk else s

/-- The cell and the class of the stream identifier that a home operation or a store, load or maintenance performed at a
home carries (10 R449): class 2 for what a strand asks of the home itself, class 0 for the rest (DEDUCED, assumption
118). -/
def opStream (op : HomeOp) : CellId × Nat :=
  match op with
  | .ifetch c .. | .ldp c _ | .istore c .. | .iclear c _ | .loadr c .. | .storec c .. => (c, 2)
  | .load c .. | .store c .. | .clean c _ | .flush c _ | .zero c _ => (c, 0)

/-- The cell and the class of a requester. -/
def Requester.stream (r : Requester) : CellId × Nat :=
  match r with
  | .load c .. | .fetch c _ | .request c .. | .store c _ => (c, 0)
  | .walk c _ => (c, 3)

/-- The stream identifier of a request of this module's clusters (10 R449), which fixes cluster, logical cell and class:
that of the access that first asked for its sector; none for a prefetch. -/
def State.streamOf (s : State) (m : Instr) : Option (CellId × Nat) :=
  match m with
  | .hop _ _ _ op => some (opStream op)
  | .rdS _ a x _ | .rdX _ a x _ | .upg _ a x | .zeroX _ a x =>
    ((s.cluster (agentCluster a)).missOf x).bind fun y => y.reqs.head?.map Requester.stream
  | _ => none

/-- Requests with one stream identifier arrive at one home in the order they were sent (10 R449). -/
def State.inStream (s : State) (m : Instr) (h : BitVec 4) : Bool :=
  match s.streamOf m with
  | none => true
  | some x => !((s.wire.takeWhile (· != m)).any fun y => reqHome y == some h && s.streamOf y == some x)

/-- A request reaches its home, by the mesh from this module's clusters, else by the fabric; a dead agent's is
refused (10 R433). -/
def State.reqArrives (s : State) (me c : Instr) (h : BitVec 4) : Outcome :=
  let a := reqAgent c
  let go (s : State) : Outcome := if s.agentDead h a then .next s else .next (s.takeReq h c)
  if !s.isOwn (reqSector c * 16) then idle s
  else if s.isOwnAgent a then (if s.inStream me h then onArrival me s go else idle s) else go s

/-- RD_S (10 R422). -/
def execRdS (home : BitVec 4) (agent : Agent) (sector : Nat) (ecc : Ecc) (s : State) : Outcome :=
  s.reqArrives (.rdS home agent sector .ok) (.rdS home agent sector ecc) home
/-- RD_X (10 R422). -/
def execRdX (home : BitVec 4) (agent : Agent) (sector : Nat) (ecc : Ecc) (s : State) : Outcome :=
  s.reqArrives (.rdX home agent sector .ok) (.rdX home agent sector ecc) home
/-- UPG (10 R422, R423). -/
def execUpg (home : BitVec 4) (agent : Agent) (sector : Nat) (s : State) : Outcome :=
  s.reqArrives (.upg home agent sector) (.upg home agent sector) home
/-- ZERO_X (10 R422, 09 R399). -/
def execZeroX (home : BitVec 4) (agent : Agent) (sector : Nat) (s : State) : Outcome :=
  s.reqArrives (.zeroX home agent sector) (.zeroX home agent sector) home
/-- HOP (10 R422). -/
def execHop (home : BitVec 4) (agent : Agent) (word : Nat) (op : HomeOp) (s : State) : Outcome :=
  s.reqArrives (.hop home agent word op) (.hop home agent word op) home

/-! ### Answers (10 R421, R422, R426, R427) -/

/-- A sector of the block is being written back. -/
def State.awaitsWb (s : State) (h : BitVec 4) (blk : Nat) : Bool :=
  let x := s.home h
  match x.findEnt h blk with
  | some k => (x.ent k).wb.any Prod.snd
  | none => false

/-- Go on with a transaction once every answer and every write-back that it waits for has come. -/
def State.advanceTrans (s : State) (h : BitVec 4) (blk : Nat) : State :=
  let x := s.home h
  match x.transOf blk with
  | none => s
  | some t =>
    if t.awaits != [] || t.granted || s.awaitsWb h blk then s
    else if t.evict then
      match x.findEnt h blk with
      | none => s
      | some k =>
        let e := x.ent k
        let shared := if t.second then [] else (e.sharers.map fun a =>
          ((List.range 4).filter fun i => e.state i == 1).map fun i => (a, e.tag * 4 + i)).flatten
        if shared ≠ [] then
          (s.modHome h fun x => x.modTrans blk fun t => { t with awaits := shared, second := true, since := s.now }).each
            shared fun s p => s.toAgent p.1 (.prbI p.1 p.2)
        else
          let s := s.modHome h fun x => x.dropTrans blk
          let (shut, s) := s.takeWay h k t.req
          let s := if shut then s.closeTrans h (reqSector t.req / 4) else s
          s.serveQueue h (s.home h).queue.length
    else
      let (shut, s) := s.grant h t
      if shut then s.closed h blk else s

/-- A holder's answer reaches its home. A holder that no longer had the sector is counted; data of another
module's holder is written to memory here (assumption 26). -/
def State.answerArrives (s : State) (h : BitVec 4) (a : Agent) (sec : Nat) (ans : ProbeAnswer) : State :=
  let blk := sec / 4
  match (s.home h).transOf blk with
  | none => s
  | some t =>
    if !t.awaits.contains (a, sec) then s
    else
      let mine : Bool := reqSector t.req == sec && !t.evict
      let s := match ans with
        | .dirty d => if s.isOwnAgent a then s else s.setDramSector sec d
        | .clean => s
        | .notHeld => s.bump (dirBase h.toNat + 0x30)
        | .wbInFlight => s.modHome h fun x => x.modBlock h blk fun e =>
            if e.state (sec % 4) = 2 ∧ e.ownerOf (sec % 4) = a then e.setWb (sec % 4) true else e
      let note (t : Trans) : Trans :=
        let t := { t with awaits := t.awaits.erase (a, sec) }
        match ans with
        | .dirty d => { t with data := if mine then some d else t.data, sent := t.sent || (t.fwd && mine) }
        | .clean => { t with sent := t.sent || (t.fwd && mine) }
        | .notHeld => t
        | .wbInFlight => t
      (s.modHome h fun x => x.modTrans blk note).advanceTrans h blk

/-- PRB_RSP (10 R421, R422, R426). -/
def execPrbRsp (home : BitVec 4) (agent : Agent) (sector : Nat) (answer : ProbeAnswer) (s : State) : Outcome :=
  let go (s : State) : Outcome :=
    if s.agentDead home agent then .next s else .next (s.answerArrives home agent sector answer)
  if !s.isOwn (sector * 16) then idle s
  else if s.isOwnAgent agent then onArrival (.prbRsp home agent sector answer) s go else go s

/-- DONE (10 R422, R426): the grant has been received, and the transaction closes. -/
def execDone (home : BitVec 4) (agent : Agent) (sector : Nat) (s : State) : Outcome :=
  let go (s : State) : Outcome :=
    match (s.home home).transOf (sector / 4) with
    | some t =>
      if t.granted && reqAgent t.req == agent && reqSector t.req == sector then .next (s.closed home t.block)
      else .next s
    | none => .next s
  if !s.isOwn (sector * 16) then idle s
  else if s.isOwnAgent agent then onArrival (.done home agent sector) s go else go s

/-- A written-back sector counts: a Porch entry of this module still holds it, or its agent owns it. -/
def State.wbCounts (s : State) (h : BitVec 4) (a : Agent) (sec : Nat) : Bool :=
  if s.isOwnAgent a then
    match (s.cluster (agentCluster a)).porchOf sec with
    | some q => q.state == .sent
    | none => false
  else
    match (s.home h).findEnt h (sec / 4) with
    | some k => ((s.home h).ent k).state (sec % 4) == 2 && ((s.home h).ent k).ownerOf (sec % 4) == a
    | none => false

/-- A written-back sector reaches its home (10 R427): memory takes it, its agent's ownership ends, and a
transaction that waits for it uses it. -/
def State.takeWb (s : State) (h : BitVec 4) (a : Agent) (sec : Nat) (d : List TWord) : State :=
  let i := sec % 4
  let blk := sec / 4
  let s := if (s.home h).pantryMap.any fun e => e.1 == bigBlock (sec * 16) then
      s.each (List.range 16) fun s j => s.poke (sec * 16 + j) (wordOf d j)
    else s.setDramSector sec d
  let ended (e : DirEnt) : DirEnt :=
    if e.state i = 2 ∧ e.ownerOf i = a then ((e.setState i 0).setOwner i 0).setWb i false else e
  s.modHome h fun x => (x.modBlock h blk ended).modTrans blk fun t =>
    if reqSector t.req = sec ∧ !t.evict then { t with data := some d } else t

/-- WB (10 R414, R422, R427): accepted at once, whatever transactions are open. -/
def execWb (home : BitVec 4) (agent : Agent) (block : Nat) (sectors : List (BitVec 2 × List TWord)) (s : State) :
    Outcome :=
  let go (s : State) : Outcome :=
    if s.agentDead home agent then .next s
    else
      let s := s.each sectors fun s (i, d) =>
        let sec := block * 4 + i.toNat
        if s.wbCounts home agent sec then s.takeWb home agent sec d else s
      .next ((s.toAgent agent (.wbAck agent block)).advanceTrans home block)
  if !s.isOwn (block * 64) then idle s
  else if s.isOwnAgent agent then onArrival (.wb home agent block sectors) s go else go s

/-! ### Dead agents (10 R432 to R435) -/

/-- The dead time of a home, in ns (10 R432, R447). -/
def State.deadNs (s : State) (h : BitVec 4) : Nat :=
  seriesNs (max 6 (min 18 (s.regField (dirBase h.toNat) 12 8)))

/-- The agent's module is in the coherence group. -/
def State.inGroup (s : State) (h : BitVec 4) (a : Agent) : Bool :=
  (s.regField (dirBase h.toNat + 0xC) 7 4).testBit (a.toNat / 16)

/-- The agents that a heartbeat or a death is of: one cluster, or the 16 of another module of the group, which the
command names (10 R417, R432). -/
def heartAgents (h : Heart) : List Agent :=
  match h.module with
  | none => [h.agent]
  | some _ => (List.range 16).map fun i => BitVec.ofNat 6 (h.agent.toNat / 16 * 16 + i)

/-- Where a home keeps the time of a heartbeat: a cluster's under its agent number, a module's after them. -/
def heartKey (h : Heart) : Nat :=
  match h.module with
  | none => h.agent.toNat
  | some _ => 64 + h.agent.toNat / 16

/-- A heartbeat or a death that a home takes no notice of: of agents that are all dead already, of a module outside the
coherence group, or of another module that has this one's position. -/
def State.heartIdle (s : State) (home : BitVec 4) (h : Heart) : Bool :=
  (heartAgents h).all (s.agentDead home) || !s.inGroup home h.agent || (h.module.isSome && s.isOwnAgent h.agent)

/-- COHERENCE_HEARTBEAT (10 R432), of a cluster, or of a module that the fabric brings it from. -/
def execCoherenceHeartbeat (home : BitVec 4) (whose : Heart) (s : State) : Outcome :=
  if s.heartIdle home whose then idle s
  else .next (s.modHome home fun x => { x with heard := Map.set 0 x.heard (heartKey whose) s.now })

/-- The strand that a requester is. -/
def Requester.strand (r : Requester) : Option (CellId × SlotId) :=
  match r with
  | .load c k _ _ | .fetch c k | .walk c k => some (c, k)
  | _ => none

/-- A word of a module that is dead. -/
def State.ofGone (s : State) (d : BitVec 12) (w : Nat) : Bool := modOf w == d.toNat && !s.isOwn w

/-- Readers by way of their cluster's cache: their own fabric port gives them POISON. -/
def State.loseMisses (s : State) (d : BitVec 12) (v : TWord) : State :=
  let lost := (allClusters.map fun g => ((s.cluster g).misses.filter fun m =>
    s.ofGone d (m.sector * 16) && m.granted.isNone).map fun m => (g, m)).flatten
  s.each lost fun s (g, m) =>
    let s := (s.giveRest m (List.replicate 16 v)).reserveLoads m false
    let s := s.modCluster g fun cl => ((cl.dropMiss m.sector).clearFill (m.sector / 4)).dropCombine m.sector
    s.each (m.reqs.filterMap Requester.strand) fun s (c, k) => s.ownCheck c k (ledgerSource 3) (m.sector * 64)

/-- Readers that had asked the home itself: loads of pages without C and LOADR, and the requests of token reads. -/
def State.loseReads (s : State) (d : BitVec 12) (v : TWord) : State :=
  let loads := (s.slots.map fun e => (e.2.loads.flatMap fun l =>
    (l.parts.filter fun p => p.2 == none && s.ofGone d p.1).map fun p => (e.1, l.reg, p.1))).flatten
  let s := s.each loads fun s (n, r, w) =>
    let c := BitVec.ofNat 8 (n / 8)
    let k := BitVec.ofNat 3 (n % 8)
    let s := (s.giveLoad c k r w v).modSlot c k fun t =>
      { t with loads := t.loads.map fun l => if l.reg = r then { l with reserve := none } else l }
    s.ownCheck c k (ledgerSource 3) (localWord w * 4)
  s.each allCells fun s c =>
    s.each ((s.cell c).reqs.filter fun r => !r.deferred && s.ofGone d r.addr) fun s r => s.answerRequest c r.id v

/-- A module is dead (10 R432): a reader whose home it was receives POISON from its own fabric port, and its strand a
machine check (R435). FREE VALUE: the data of the POISON. -/
def State.loseModule (s : State) (d : BitVec 12) : State :=
  if s.hier.gone.contains d then s
  else
    let (v, s) := s.draw
    let x : TWord := ⟨Tag.poison, v.setWidth 32⟩
    ((({ s with hier := { s.hier with gone := s.hier.gone ++ [d] } }).loseMisses d x).loseReads d x)

/-- DEAD_AGENT_DETECT (10 R432, R433): no heartbeat, or a probe not answered, within the dead time; every home
of the group is told. A module that is dead takes its 16 agents and its homes with it. -/
def execDeadAgentDetect (home : BitVec 4) (whose : Heart) (s : State) : Outcome :=
  let x := s.home home
  let agents := heartAgents whose
  let late (t : BitVec 64) : Bool := decide (s.deadNs home ≤ (s.now - t).toNat)
  let silent := late (Map.get 0 x.heard (heartKey whose))
  let unanswered := x.trans.any fun t => (t.awaits.any fun p => agents.contains p.1) && late t.since
  if s.heartIdle home whose || !(silent || unanswered) then idle s
  else
    let s := (s.assertSrc (homeSource home 2)).postAll
      (agents.flatMap fun a => allClusters.map fun h => Instr.deadAgentNotice h a)
    let s := s.each agents fun s a => s.emit (.notify 0x44 (a.setWidth 32))
    .next (match whose.module with | some d => s.loseModule d | none => s)

/-- Benus admits an agent again after the reset of its block (10 R433): the homes keep it as one heard just now. -/
def State.readmit (s : State) (a : Agent) : State :=
  s.each allClusters fun s h =>
    if s.agentDead h a then
      (s.setReg64 (dirBase h.toNat + 0x10) (s.reg64 (dirBase h.toNat + 0x10) - 2 ^ a.toNat)).modHome h fun x =>
        { x with heard := Map.set 0 x.heard a.toNat s.now }
    else s

/-- The words of a sector that a dead agent owned become POISON (10 R435), here and where a page move has
copied them to. -/
def State.poisonSector (s : State) (h : BitVec 4) (a : Agent) (sec : Nat) : State :=
  let v : TWord := ⟨Tag.poison, 0x00010000 ||| a.setWidth 32⟩
  let s := if s.isOwnAgent a then
      let g := agentCluster a
      ((s.modCluster g fun cl => cl.dropSector sec).dropLines g sec none).dropResv g sec none
    else s
  let s := s.setDramSector sec (List.replicate 16 v)
  let s := s.each s.moves fun s e =>
    let m := e.2
    let w := m.target * 2 ^ 19 + sec * 16 % 2 ^ 19
    if m.active && m.source == bigBlock (sec * 16) && s.isOwn w then
      s.setDramSector (w / 16) (List.replicate 16 v)
    else s
  (s.bump (dirBase h.toNat + 0x38)).assertSrc (homeSource h 4)

/-- A home reclaims a dead agent's sectors. -/
def State.reclaim (s : State) (h : BitVec 4) (a : Agent) : State :=
  let owned := ((s.home h).dir.map fun (_, e) =>
    if e.v then ((List.range 4).filter fun i => e.state i == 2 && e.ownerOf i == a).map fun i => e.tag * 4 + i
    else []).flatten
  let s := s.each owned fun s sec => s.poisonSector h a sec
  let free (e : DirEnt) : DirEnt :=
    (List.range 4).foldl (fun e i =>
      if e.state i = 2 ∧ e.ownerOf i = a then ((e.setState i 0).setOwner i 0).setWb i false else e)
      { e with sharers := e.sharers.filter (· != a) }
  let waits := ((s.home h).trans.filter fun t => t.awaits.any fun p => p.1 == a).map Trans.block
  let gone := ((s.home h).trans.filter fun t => t.granted && reqAgent t.req == a).map Trans.block
  let s := s.modHome h fun x =>
    { x with dir := x.dir.map fun (k, e) => (k, if e.v then free e else e)
             queue := x.queue.filter fun c => reqAgent c != a
             trans := x.trans.map fun t =>
               { t with awaits := t.awaits.filter fun p => p.1 != a
                        data := if owned.contains (reqSector t.req) then none else t.data } }
  let s := s.each waits fun s b => s.advanceTrans h b
  s.each gone fun s b => s.closed h b

/-- The clusters of a partition's cells. -/
def Part.clusters (x : Part) : List (BitVec 4) := (x.cells.map clusterOf).eraseDups

/-- The contexts that fail with a dead agent (10 R434): all of a small domain's, else those whose frames lived
on the dead cluster's cells. -/
def State.domainStop (s : State) (h : BitVec 4) (g : BitVec 4) : State :=
  let hit := s.parts.filter fun e => e.2.isLive && e.2.clusters.contains g
  let doomed := (hit.map fun e =>
    let small := decide (e.2.clusters.length ≤ 4) && e.2.span.all (· == s.hier.modn)
    ((s.frames.filter fun f =>
        f.2.part.toNat == e.1 && f.2.state != stFree && f.2.state != stFailed && f.2.state != stComplete
          && (small || clusterOf (s.cellOf (BitVec.ofNat 20 f.1)) == g)).map fun f => BitVec.ofNat 20 f.1)).flatten
  if doomed = [] then s
  else
    let (n, s) := s.makeRecord { kind := 4, source := homeSource h 2 }
    s.each doomed fun s f => s.failContext f n

/-- DEAD_AGENT_NOTICE (10 R433 to R435). -/
def execDeadAgentNotice (home : BitVec 4) (agent : Agent) (s : State) : Outcome :=
  let go (s : State) : Outcome :=
    let a := dirBase home.toNat + 0x10
    let s := s.setReg64 a (s.reg64 a ||| 2 ^ agent.toNat)
    let s := if s.isOwnAgent agent then s.domainStop home (agentCluster agent) else s
    .next (s.reclaim home agent)
  match s.arrive (.deadAgentNotice home agent) with
  | some s => go s
  | none => if 1 < ((List.range 4).filter fun i => s.inGroup home (BitVec.ofNat 6 (16 * i))).length then go s else idle s

end Sys2Proof.Machine
end

