-- ==== Sys2Proof/Machine/Aes.lean ====
section
/-! DEFINITION. The AES class (12 R509): FIPS 197 with the GCM, XTS and CTR modes, on lists of bytes.
PRESUMED: the standards that R509 names stand outside the spec; this is their text (assumption 30). -/

namespace Sys2Proof.Machine.Aes

/-! ### The field of 256 elements -/

/-- Multiply by x modulo x^8 + x^4 + x^3 + x + 1. -/
def xtime (a : Byte) : Byte := (a <<< 1) ^^^ (if a.getLsbD 7 then 0x1B else 0)

/-- Product of two field elements, over the low `n` bits of `b`. -/
def mulBits (a b : Byte) : Nat → Byte
  | 0 => 0
  | n + 1 => if b = 0 then 0 else (if b.getLsbD 0 then a else 0) ^^^ mulBits (xtime a) (b >>> 1) n

def gmul (a b : Byte) : Byte := mulBits a b 8

/-- The S-box: row by the high four bits, column by the low four. -/
def sboxRows : List (List Byte) :=
  [[0x63, 0x7C, 0x77, 0x7B, 0xF2, 0x6B, 0x6F, 0xC5, 0x30, 0x01, 0x67, 0x2B, 0xFE, 0xD7, 0xAB, 0x76],
   [0xCA, 0x82, 0xC9, 0x7D, 0xFA, 0x59, 0x47, 0xF0, 0xAD, 0xD4, 0xA2, 0xAF, 0x9C, 0xA4, 0x72, 0xC0],
   [0xB7, 0xFD, 0x93, 0x26, 0x36, 0x3F, 0xF7, 0xCC, 0x34, 0xA5, 0xE5, 0xF1, 0x71, 0xD8, 0x31, 0x15],
   [0x04, 0xC7, 0x23, 0xC3, 0x18, 0x96, 0x05, 0x9A, 0x07, 0x12, 0x80, 0xE2, 0xEB, 0x27, 0xB2, 0x75],
   [0x09, 0x83, 0x2C, 0x1A, 0x1B, 0x6E, 0x5A, 0xA0, 0x52, 0x3B, 0xD6, 0xB3, 0x29, 0xE3, 0x2F, 0x84],
   [0x53, 0xD1, 0x00, 0xED, 0x20, 0xFC, 0xB1, 0x5B, 0x6A, 0xCB, 0xBE, 0x39, 0x4A, 0x4C, 0x58, 0xCF],
   [0xD0, 0xEF, 0xAA, 0xFB, 0x43, 0x4D, 0x33, 0x85, 0x45, 0xF9, 0x02, 0x7F, 0x50, 0x3C, 0x9F, 0xA8],
   [0x51, 0xA3, 0x40, 0x8F, 0x92, 0x9D, 0x38, 0xF5, 0xBC, 0xB6, 0xDA, 0x21, 0x10, 0xFF, 0xF3, 0xD2],
   [0xCD, 0x0C, 0x13, 0xEC, 0x5F, 0x97, 0x44, 0x17, 0xC4, 0xA7, 0x7E, 0x3D, 0x64, 0x5D, 0x19, 0x73],
   [0x60, 0x81, 0x4F, 0xDC, 0x22, 0x2A, 0x90, 0x88, 0x46, 0xEE, 0xB8, 0x14, 0xDE, 0x5E, 0x0B, 0xDB],
   [0xE0, 0x32, 0x3A, 0x0A, 0x49, 0x06, 0x24, 0x5C, 0xC2, 0xD3, 0xAC, 0x62, 0x91, 0x95, 0xE4, 0x79],
   [0xE7, 0xC8, 0x37, 0x6D, 0x8D, 0xD5, 0x4E, 0xA9, 0x6C, 0x56, 0xF4, 0xEA, 0x65, 0x7A, 0xAE, 0x08],
   [0xBA, 0x78, 0x25, 0x2E, 0x1C, 0xA6, 0xB4, 0xC6, 0xE8, 0xDD, 0x74, 0x1F, 0x4B, 0xBD, 0x8B, 0x8A],
   [0x70, 0x3E, 0xB5, 0x66, 0x48, 0x03, 0xF6, 0x0E, 0x61, 0x35, 0x57, 0xB9, 0x86, 0xC1, 0x1D, 0x9E],
   [0xE1, 0xF8, 0x98, 0x11, 0x69, 0xD9, 0x8E, 0x94, 0x9B, 0x1E, 0x87, 0xE9, 0xCE, 0x55, 0x28, 0xDF],
   [0x8C, 0xA1, 0x89, 0x0D, 0xBF, 0xE6, 0x42, 0x68, 0x41, 0x99, 0x2D, 0x0F, 0xB0, 0x54, 0xBB, 0x16]]

/-- SubBytes of one byte. -/
def sbox (a : Byte) : Byte := (sboxRows.getD (a.toNat / 16) []).getD (a.toNat % 16) 0

/-- InvSubBytes of one byte. -/
def invSbox (a : Byte) : Byte := BitVec.ofNat 8 (sboxRows.flatten.idxOf a)

/-! ### Key expansion and the cipher -/

/-- Bytes exclusive-ored place by place. -/
def xorBytes (a b : List Byte) : List Byte := List.zipWith (· ^^^ ·) a b

/-- The words of a key, then the expanded ones, `todo` more of them; `rev` holds them latest first. -/
def expand (nk : Nat) (rev : List (List Byte)) (i : Nat) (rcon : Byte) : Nat → List (List Byte)
  | 0 => rev.reverse
  | n + 1 =>
    let prev := rev.headD []
    let base := rev.getD (nk - 1) []
    let t :=
      if i % nk = 0 then
        xorBytes ((prev.drop 1 ++ prev.take 1).map sbox) [rcon, 0, 0, 0]
      else if nk > 6 ∧ i % nk = 4 then prev.map sbox
      else prev
    expand nk (xorBytes base t :: rev) (i + 1) (if i % nk = 0 then xtime rcon else rcon) n

/-- Cut a list into pieces of `k`, `n` of them. -/
def pieces {α : Type} (k : Nat) : Nat → List α → List (List α)
  | 0, _ => []
  | n + 1, l => l.take k :: pieces k n (l.drop k)

/-- The round keys of a 16-byte or 32-byte key, 16 bytes each. -/
def roundKeys (key : List Byte) : List (List Byte) :=
  let nk := key.length / 4
  let rounds := nk + 6
  let ws := expand nk (pieces 4 nk key).reverse nk 1 (4 * (rounds + 1) - nk)
  pieces 16 (rounds + 1) ws.flatten

/-- ShiftRows, and its inverse: byte `4c + r` comes from column `c + r`, or `c − r`. -/
def shiftRows (st : List Byte) : List Byte :=
  (List.range 16).map fun i => st.getD ((i / 4 + i % 4) % 4 * 4 + i % 4) 0
def invShiftRows (st : List Byte) : List Byte :=
  (List.range 16).map fun i => st.getD ((i / 4 + 4 - i % 4) % 4 * 4 + i % 4) 0

/-- MixColumns with the first row of its matrix. -/
def mixWith (row : List Byte) (st : List Byte) : List Byte :=
  (List.range 16).map fun i =>
    ((List.range 4).map fun j =>
      gmul (row.getD ((j + 4 - i % 4) % 4) 0) (st.getD (i / 4 * 4 + j) 0)).foldl (· ^^^ ·) 0

/-- The cipher on one block. -/
def encBlock (rks : List (List Byte)) (b : List Byte) : List Byte :=
  let st := xorBytes b (rks.headD [])
  let mid := (rks.drop 1).dropLast
  let st := mid.foldl (fun s rk => xorBytes (mixWith [2, 3, 1, 1] (shiftRows (s.map sbox))) rk) st
  xorBytes (shiftRows (st.map sbox)) (rks.getLastD [])

/-- The inverse cipher on one block. -/
def decBlock (rks : List (List Byte)) (b : List Byte) : List Byte :=
  let st := xorBytes b (rks.getLastD [])
  let mid := ((rks.drop 1).dropLast).reverse
  let st := mid.foldl (fun s rk =>
    mixWith [14, 11, 13, 9] (xorBytes ((invShiftRows s).map invSbox) rk)) st
  xorBytes ((invShiftRows st).map invSbox) (rks.headD [])

/-! ### CTR and GCM -/

/-- The counter block after `k` increments of its low 32 bits. -/
def ctrBlock (block : List Byte) (k : Nat) : List Byte :=
  block.take 12 ++ natBe 4 ((beNat (block.drop 12) + k) % 2 ^ 32)

/-- CTR from a counter block: the key stream exclusive-ored over the data. -/
def ctrCrypt (rks : List (List Byte)) (block data : List Byte) : List Byte :=
  let ks := ((List.range ((data.length + 15) / 16)).map fun k => encBlock rks (ctrBlock block k)).flatten
  xorBytes data ks

/-- Product of two GHASH elements, most significant bit first: `n` bits of `x` are left. -/
def ghashMul (v : BitVec 128) (x : BitVec 128) (z : BitVec 128) : Nat → BitVec 128
  | 0 => z
  | n + 1 =>
    let z := if x.getMsbD 0 then z ^^^ v else z
    let v := (v >>> 1) ^^^ (if v.getLsbD 0 then (0xE1 : BitVec 128) <<< 120 else 0)
    ghashMul v (x <<< 1) z n

/-- GHASH of whole blocks. -/
def ghash (h : BitVec 128) (blocks : List (List Byte)) : BitVec 128 :=
  blocks.foldl (fun y b => ghashMul h (y ^^^ BitVec.ofNat 128 (beNat b)) 0 128) 0

/-- Zero bytes up to a multiple of 16. -/
def pad16 (bs : List Byte) : List Byte := bs ++ List.replicate ((16 - bs.length % 16) % 16) 0

/-- The tag of GCM over the additional data and the ciphertext. -/
def gcmTag (rks : List (List Byte)) (iv aad cipher : List Byte) : List Byte :=
  let h := BitVec.ofNat 128 (beNat (encBlock rks (List.replicate 16 0)))
  let text := pad16 aad ++ pad16 cipher ++ natBe 8 (8 * aad.length) ++ natBe 8 (8 * cipher.length)
  let y := ghash h (pieces 16 (text.length / 16) text)
  xorBytes (natBe 16 y.toNat) (encBlock rks (iv ++ [0, 0, 0, 1]))

/-- GCM with a 96-bit IV: the ciphertext followed by its tag. -/
def gcmEncrypt (key iv aad plain : List Byte) : List Byte :=
  let rks := roundKeys key
  let c := ctrCrypt rks (iv ++ [0, 0, 0, 2]) plain
  c ++ gcmTag rks iv aad c

/-- GCM decryption; none when the tag does not verify. -/
def gcmDecrypt (key iv aad cipherTag : List Byte) : Option (List Byte) :=
  if cipherTag.length < 16 then none
  else
    let rks := roundKeys key
    let c := cipherTag.take (cipherTag.length - 16)
    if gcmTag rks iv aad c = cipherTag.drop (cipherTag.length - 16) then
      some (ctrCrypt rks (iv ++ [0, 0, 0, 2]) c)
    else none

/-! ### XTS -/

/-- The next tweak: multiply by x, least significant byte first. -/
def nextTweak (t : List Byte) : List Byte :=
  let v := leNat t
  let d := v * 2 % 2 ^ 128
  natLe 16 (if v < 2 ^ 127 then d else (BitVec.ofNat 128 d ^^^ 0x87).toNat)

/-- One block under a tweak. -/
def xtsBlock (f : List Byte → List Byte) (t b : List Byte) : List Byte := xorBytes (f (xorBytes b t)) t

/-- Whole blocks in turn; answers the output and the next tweak. -/
def xtsBlocks (f : List Byte → List Byte) : List (List Byte) → List Byte → List Byte × List Byte
  | [], t => ([], t)
  | b :: bs, t =>
    let (out, t') := xtsBlocks f bs (nextTweak t)
    (xtsBlock f t b ++ out, t')

/-- XTS with ciphertext stealing over at least 16 bytes; the key is the data key followed by the tweak
key. When decrypting, the last whole block uses the tweak after the one of the stolen block. -/
def xts (enc : Bool) (key tweak data : List Byte) : List Byte :=
  let half := key.length / 2
  let rks := roundKeys (key.take half)
  let f := if enc then encBlock rks else decBlock rks
  let t0 := encBlock (roundKeys (key.drop half)) tweak
  let rest := data.length % 16
  let whole := data.length / 16
  if rest = 0 then (xtsBlocks f (pieces 16 whole data) t0).1
  else
    let (out, t) := xtsBlocks f (pieces 16 (whole - 1) data) t0
    let last := (data.drop (16 * (whole - 1))).take 16
    let tail := data.drop (16 * whole)
    let (t1, t2) := if enc then (t, nextTweak t) else (nextTweak t, t)
    let cc := xtsBlock f t1 last
    out ++ xtsBlock f t2 (tail ++ cc.drop rest) ++ cc.take rest

end Sys2Proof.Machine.Aes
end

