-- ==== Sys2Proof/Machine/Digests.lean ====
section
/-! DEFINITION. The hash class (12 R509): SHA-256, SHA-384, SHA3-256 and HMAC, the key derivation of
12 R513, and the CRC-32C of 12 R507. PRESUMED: the standards that R509 names stand outside the spec; this
is their text (assumption 30). -/

namespace Sys2Proof.Machine.Digest

/-! ### The constants of FIPS 180-4: roots of the first primes -/

/-- The first `n` primes after `k`, at most `fuel` candidates on. -/
def primesFrom (found : List Nat) (k : Nat) : Nat → List Nat
  | 0 => found.reverse
  | fuel + 1 =>
    if found.all fun p => k % p != 0 then primesFrom (k :: found) (k + 1) fuel
    else primesFrom found (k + 1) fuel

/-- The 80 primes below 410. -/
def primes : List Nat := primesFrom [] 2 408

/-- The largest r with r^k ≤ n, from its highest bit down. -/
def root (k n : Nat) (r : Nat) : Nat → Nat
  | 0 => r
  | b + 1 => let c := r + 2 ^ b; root k n (if c ^ k ≤ n then c else r) b

/-- The first `w` fractional bits of the `k`-th root of a prime. -/
def fracRoot (k w p : Nat) : Nat := root k (p * 2 ^ (k * w)) 0 (w + 8) % 2 ^ w

/-! ### SHA-2 -/

/-- The sums and functions that differ between the two word widths. -/
structure Sha2 (w : Nat) where
  rounds : Nat
  s0 : Nat × Nat × Nat
  s1 : Nat × Nat × Nat
  big0 : Nat × Nat × Nat
  big1 : Nat × Nat × Nat

def sha2of32 : Sha2 32 :=
  { rounds := 64, s0 := (7, 18, 3), s1 := (17, 19, 10), big0 := (2, 13, 22), big1 := (6, 11, 25) }
def sha2of64 : Sha2 64 :=
  { rounds := 80, s0 := (1, 8, 7), s1 := (19, 61, 6), big0 := (28, 34, 39), big1 := (14, 18, 41) }

/-- Two rotations and a shift, or three rotations. -/
def small {w : Nat} (r : Nat × Nat × Nat) (x : BitVec w) : BitVec w :=
  x.rotateRight r.1 ^^^ x.rotateRight r.2.1 ^^^ (x >>> r.2.2)
def big {w : Nat} (r : Nat × Nat × Nat) (x : BitVec w) : BitVec w :=
  x.rotateRight r.1 ^^^ x.rotateRight r.2.1 ^^^ x.rotateRight r.2.2

/-- The message schedule: `rev` holds the words latest first. -/
def schedule {w : Nat} (c : Sha2 w) (rev : List (BitVec w)) : Nat → List (BitVec w)
  | 0 => rev.reverse
  | n + 1 =>
    let x := small c.s1 (rev.getD 1 0) + rev.getD 6 0 + small c.s0 (rev.getD 14 0) + rev.getD 15 0
    schedule c (x :: rev) n

/-- One round on the eight working words. -/
def round {w : Nat} (c : Sha2 w) (v : List (BitVec w)) (kw : BitVec w) : List (BitVec w) :=
  let g (i : Nat) := v.getD i 0
  let t1 := g 7 + big c.big1 (g 4) + ((g 4 &&& g 5) ^^^ (~~~(g 4) &&& g 6)) + kw
  let t2 := big c.big0 (g 0) + ((g 0 &&& g 1) ^^^ (g 0 &&& g 2) ^^^ (g 1 &&& g 2))
  [t1 + t2, g 0, g 1, g 2, g 3 + t1, g 4, g 5, g 6]

/-- The compression of one block of 16 words. -/
def block {w : Nat} (c : Sha2 w) (k : List (BitVec w)) (h : List (BitVec w)) (m : List (BitVec w)) :
    List (BitVec w) :=
  let ws := schedule c m.reverse (c.rounds - 16)
  List.zipWith (· + ·) h ((List.zipWith (· + ·) k ws).foldl (round c) h)

/-- Cut bytes into pieces of `k`. -/
def cut (k : Nat) : Nat → List Byte → List (List Byte)
  | 0, _ => []
  | n + 1, l => l.take k :: cut k n (l.drop k)

/-- The padded message: a one bit, zeros, and the length in bits over `lenBytes` bytes. -/
def padded (blockBytes lenBytes : Nat) (bs : List Byte) : List Byte :=
  let used := (bs.length + 1 + lenBytes) % blockBytes
  bs ++ [0x80] ++ List.replicate ((blockBytes - used) % blockBytes) 0 ++ natBe lenBytes (8 * bs.length)

/-- The digest's state after every block. -/
def sha2 {w : Nat} (c : Sha2 w) (h0 : List (BitVec w)) (bs : List Byte) : List Byte :=
  let wb := w / 8
  let k := (primes.take c.rounds).map fun p => BitVec.ofNat w (fracRoot 3 w p)
  let msg := padded (16 * wb) (2 * wb) bs
  let words (b : List Byte) := (cut wb 16 b).map fun x => BitVec.ofNat w (beNat x)
  let h := (cut (16 * wb) (msg.length / (16 * wb)) msg).foldl (fun h b => block c k h (words b)) h0
  (h.map fun x => natBe wb x.toNat).flatten

/-- SHA-256: the square roots of the first eight primes start it. -/
def sha256 (bs : List Byte) : List Byte :=
  sha2 sha2of32 ((primes.take 8).map fun p => BitVec.ofNat 32 (fracRoot 2 32 p)) bs

/-- SHA-384: the square roots of the ninth to sixteenth primes start it; six words are kept. -/
def sha384 (bs : List Byte) : List Byte :=
  (sha2 sha2of64 (((primes.drop 8).take 8).map fun p => BitVec.ofNat 64 (fracRoot 2 64 p)) bs).take 48

/-! ### SHA-3 -/

/-- The rotation of each lane, by the walk (x, y) → (y, 2x + 3y), and the lanes in its order. -/
def walk (x y t : Nat) : Nat → List (Nat × Nat)
  | 0 => []
  | n + 1 => (x + 5 * y, (t + 1) * (t + 2) / 2 % 64) :: walk y ((2 * x + 3 * y) % 5) (t + 1) n

def rotations : List (Nat × Nat) := walk 1 0 0 24

/-- The step of the 8-bit register that gives the round constants. -/
def rcStep (r : BitVec 8) : BitVec 8 := (r <<< 1) ^^^ (if r.getLsbD 7 then 0x71 else 0)

/-- The register after `n` steps. -/
def rcAfter : Nat → BitVec 8
  | 0 => 1
  | n + 1 => rcStep (rcAfter n)

/-- The constant of a round: bit 2^j − 1 is the register's bit after j + 7 × round steps. -/
def roundConst (i : Nat) : BitVec 64 :=
  ((List.range 7).map fun j =>
    if (rcAfter (j + 7 * i)).getLsbD 0 then (1 : BitVec 64) <<< (2 ^ j - 1) else 0).foldl (· ||| ·) 0

/-- One round of Keccak-f[1600] on 25 lanes, lane x + 5y. -/
def keccakRound (a : List (BitVec 64)) (i : Nat) : List (BitVec 64) :=
  let g (l : List (BitVec 64)) (k : Nat) := l.getD k 0
  let c := (List.range 5).map fun x => g a x ^^^ g a (x + 5) ^^^ g a (x + 10) ^^^ g a (x + 15) ^^^ g a (x + 20)
  let d := (List.range 5).map fun x => g c ((x + 4) % 5) ^^^ (g c ((x + 1) % 5)).rotateLeft 1
  let a := (List.range 25).map fun k => g a k ^^^ g d (k % 5)
  let rot (k : Nat) := ((rotations.find? fun e => e.1 == k).map Prod.snd).getD 0
  let b := (List.range 25).map fun k =>
    let x' := k % 5
    let y' := k / 5
    -- lane (x', y') of B comes from the lane (x, y) with y = x' and 2x + 3y = y'
    let x := (x' + 3 * y') % 5
    let y := x'
    (g a (x + 5 * y)).rotateLeft (rot (x + 5 * y))
  let r := (List.range 25).map fun k =>
    let x := k % 5
    let y := k / 5 * 5
    g b k ^^^ (~~~(g b ((x + 1) % 5 + y)) &&& g b ((x + 2) % 5 + y))
  match r with
  | l :: ls => (l ^^^ roundConst i) :: ls
  | [] => []

def keccakF (a : List (BitVec 64)) : List (BitVec 64) := (List.range 24).foldl keccakRound a

/-- SHA3-256: rate 136 bytes, suffix 01 and the padding 10*1. -/
def sha3_256 (bs : List Byte) : List Byte :=
  let q := 136 - bs.length % 136
  let pad : List Byte := if q = 1 then [0x86] else [0x06] ++ List.replicate (q - 2) 0 ++ [0x80]
  let msg := bs ++ pad
  let absorb (a : List (BitVec 64)) (b : List Byte) :=
    let lanes := (cut 8 17 b).map fun x => BitVec.ofNat 64 (leNat x)
    keccakF ((List.range 25).map fun k => a.getD k 0 ^^^ lanes.getD k 0)
  let a := (cut 136 (msg.length / 136) msg).foldl absorb (List.replicate 25 0)
  ((a.take 4).map fun x => natLe 8 x.toNat).flatten

/-! ### HMAC and the key derivation -/

/-- HMAC over a hash with a block of `blk` bytes. -/
def hmac (h : List Byte → List Byte) (blk : Nat) (key msg : List Byte) : List Byte :=
  let k := if key.length > blk then h key else key
  let k := k ++ List.replicate (blk - k.length) 0
  h (k.map (· ^^^ 0x5C) ++ h (k.map (· ^^^ 0x36) ++ msg))

def hmacSha256 (key msg : List Byte) : List Byte := hmac sha256 64 key msg
def hmacSha384 (key msg : List Byte) : List Byte := hmac sha384 128 key msg

/-- The wrapping key of a space (12 R513): SP 800-108 in counter mode with HMAC-SHA-384, one block, an
empty label, the context SID then wrap domain, 256 bits (assumption 31). -/
def wrapKey (root : List Byte) (sid : BitVec 16) (domain : BitVec 64) : List Byte :=
  (hmacSha384 root (natBe 4 1 ++ [0] ++ natLe 2 sid.toNat ++ natLe 8 domain.toNat ++ natBe 4 256)).take 32

/-! ### CRC-32C (12 R507) -/

/-- `n` shift steps of the reflected register. -/
def crcBits (c : BitVec 32) : Nat → BitVec 32
  | 0 => c
  | n + 1 => crcBits ((c >>> 1) ^^^ (if c.getLsbD 0 then 0x82F63B78 else 0)) n

/-- CRC-32C of a list of bytes. -/
def crc32c (bs : List Byte) : BitVec 32 :=
  ~~~(bs.foldl (fun c b => crcBits (c ^^^ b.setWidth 32) 8) (0xFFFFFFFF : BitVec 32))

end Sys2Proof.Machine.Digest
end

