-- ==== Sys2Proof/Machine/Lenfaim.lean ====
section
/-! DEFINITION. The Lenfaim block method and its stream format (12 R499 to R508). -/

namespace Sys2Proof.Machine.Lenfaim

/-- The bits of the j-th code (12 R500). -/
def width (j : Nat) : Nat := Nat.log2 (min (256 + j) 16383) + 1

/-- `n` bits of a code, least significant first. -/
def codeBits (n v : Nat) : List Bool := (List.range n).map fun i => v / 2 ^ i % 2 == 1

/-- A byte from at most eight bits, least significant first; missing bits are 0. -/
def byteOf (bits : List Bool) : Byte :=
  BitVec.ofNat 8 (((List.range 8).map fun i => if bits.getD i false then 2 ^ i else 0).sum)

/-- Bytes from bits, `n` of them. -/
def bytesOf : Nat → List Bool → List Byte
  | 0, _ => []
  | n + 1, bits => byteOf (bits.take 8) :: bytesOf n (bits.drop 8)

def bitsOf (bs : List Byte) : List Bool := (bs.map fun b => codeBits 8 b.toNat).flatten

/-- The code of a string: a byte, or its place in the dictionary from 257 on. -/
def codeOf (dict : List (List Byte)) (w : List Byte) : Option Nat :=
  match w with
  | [b] => some b.toNat
  | _ => (dict.findIdx? (· == w)).map (· + 257)

/-- The compressor's loop (12 R501): `dict` in the order of addition, `w` the string at hand. -/
def encodeLoop (dict : List (List Byte)) (j : Nat) (w : List Byte) : List Byte → List Bool
  | [] =>
    codeBits (width j) ((codeOf dict w).getD 0) ++ codeBits (width (j + 1)) 256
  | b :: bs =>
    let wb := w ++ [b]
    if (codeOf dict wb).isSome then encodeLoop dict j wb bs
    else
      codeBits (width j) ((codeOf dict w).getD 0)
        ++ encodeLoop (if dict.length + 257 < 16384 then dict ++ [wb] else dict) (j + 1) [b] bs

/-- The coded bytes of a block (12 R501). -/
def encodeBlock : List Byte → List Byte
  | [] => []
  | b :: bs =>
    let bits := encodeLoop [] 0 [b] bs
    bytesOf ((bits.length + 7) / 8) bits

/-- The decompressor's loop (12 R502): `rest` the bits not read, `len` the original length; none when
the block fails. -/
def decodeLoop (len : Nat) (dict : List (List Byte)) (j : Nat) (prev : Option (List Byte))
    (out : List Byte) (rest : List Bool) : Nat → Option (List Byte)
  | 0 => none
  | fuel + 1 =>
    let w := width j
    if rest.length < w then none
    else
      let k := (byteNat (rest.take w))
      let rest := rest.drop w
      if k = 256 then
        if prev.isSome && out.length == len && decide (rest.length < 8) && rest.all (!·) then some out else none
      else
        let next := 257 + dict.length
        let str : Option (List Byte) :=
          if k < 256 then some [BitVec.ofNat 8 k]
          else if k < next then dict[k - 257]?
          else if k = next then prev.map fun p => p ++ p.take 1
          else none
        match str with
        | none => none
        | some x =>
          let dict := match prev with
            | some p => if next < 16384 then dict ++ [p ++ x.take 1] else dict
            | none => dict
          let out := out ++ x
          if out.length > len then none else decodeLoop len dict (j + 1) (some x) out rest fuel
where
  byteNat (bits : List Bool) : Nat := bits.foldr (fun b n => (if b then 1 else 0) + 2 * n) 0

/-- A block's original bytes from its coded ones; none when it fails (12 R502). -/
def decodeBlock (len : Nat) (coded : List Byte) : Option (List Byte) :=
  decodeLoop len [] 0 none [] (bitsOf coded) (coded.length + 1)

/-! ### Streams (12 R503 to R508) -/

/-- Cut bytes into blocks of `k`. -/
def blocks (k : Nat) : Nat → List Byte → List (List Byte)
  | 0, _ => []
  | n + 1, l => l.take k :: blocks k n (l.drop k)

/-- One block with its header, and whether it is stored (12 R504, R505). -/
def blockBytes (last : Bool) (bs : List Byte) : List Byte × Bool :=
  let coded := encodeBlock bs
  let stored := decide (coded.length ≥ bs.length)
  let body := if stored then bs else coded
  (natLe 3 bs.length ++ natLe 3 body.length ++ [if stored then 0 else 1, if last then 1 else 0]
    ++ natLe 4 (Digest.crc32c bs).toNat ++ body, stored)

/-- The stream offset of each block's header. -/
def offsets (at_ : Nat) : List (List Byte) → List Nat
  | [] => []
  | b :: bs => at_ :: offsets (at_ + b.length) bs

/-- Number of blocks of a length. -/
def blockCount (log len : Nat) : Nat := (len + 2 ^ log - 1) / 2 ^ log

/-- Compress: the stream, its blocks, and how many are stored. -/
def compress (log : Nat) (index : Bool) (bs : List Byte) : List Byte × Nat × Nat :=
  let n := blockCount log bs.length
  let parts := (blocks (2 ^ log) n bs).zipIdx.map fun (b, i) => blockBytes (i + 1 == n) b
  let body := parts.map Prod.fst
  let trailer := ((offsets 16 body).zipIdx.map fun (o, i) => natLe 4 o ++ natLe 4 (i * 2 ^ log)).flatten
  let head : List Byte := [0x4C, 0x46, 1, BitVec.ofNat 8 log, if index then 1 else 0, 0, 0, 0]
    ++ natLe 4 n ++ natLe 4 bs.length
  (head ++ body.flatten ++ (if index then trailer else []), n, (parts.filter Prod.snd).length)

/-- The bound of 12 R505. -/
def bound (log : Nat) (index : Bool) (n : Nat) : Nat :=
  n + 16 + 12 * blockCount log n + (if index then 8 * blockCount log n else 0)

/-- A stream header that is not rejected (12 R508): BLOCKLOG and LENGTH. -/
def header (bs : List Byte) : Option (Nat × Nat) :=
  let log := bytesAt bs 3 1
  let len := bytesAt bs 12 4
  if bs.length ≥ 16 ∧ bs.take 3 = [0x4C, 0x46, 1] ∧ 12 ≤ log ∧ log ≤ 16 ∧ bytesAt bs 4 1 < 2 ∧
      bytesAt bs 5 3 = 0 ∧ bytesAt bs 8 4 = blockCount log len then some (log, len)
  else none

/-- The blocks of a stream in order, each with its original bytes, or none with its length where it fails
(12 R508): after a malformed block header every later block fails. `left` original bytes remain. -/
def decodeBlocks (size : Nat) (left : Nat) (bs : List Byte) : Nat → List (Nat × Option (List Byte))
  | 0 => []
  | n + 1 =>
    let want := min size left
    let orig := bytesAt bs 0 3
    let coded := bytesAt bs 3 3
    let method := bytesAt bs 6 1
    let flags := bytesAt bs 7 1
    let bad := decide (bs.length < 12) || orig != want || decide (method > 1) || flags != (if n = 0 then 1 else 0)
      || decide (12 + coded > bs.length)
    if bad then (want, none) :: (List.range n).map fun i => (min size (left - want - i * size), none)
    else
      let body := (bs.drop 12).take coded
      let out := if method = 0 then (if coded = orig then some body else none) else decodeBlock orig body
      let out := match out with
        | some o => if (Digest.crc32c o).toNat = bytesAt bs 8 4 then some o else none
        | none => none
      (want, out) :: decodeBlocks size (left - want) (bs.drop (12 + coded)) n

/-- Decompress the blocks of a stream whose header is good. -/
def decompress (log len : Nat) (bs : List Byte) : List (Nat × Option (List Byte)) :=
  let idx := if bytesAt bs 4 1 = 1 then 8 * blockCount log len else 0
  decodeBlocks (2 ^ log) len ((bs.drop 16).take (bs.length - 16 - idx)) (blockCount log len)

/-- The whole output of a stream none of whose blocks fails. -/
def decompressAll (bs : List Byte) : Option (List Byte) :=
  match header bs with
  | none => none
  | some (log, len) =>
    let parts := decompress log len bs
    if parts.all fun p => p.2.isSome then some ((parts.map fun p => p.2.getD []).flatten) else none

end Sys2Proof.Machine.Lenfaim
end

