-- ==== Sys2Proof/Machine/Channels.lean ====
section
/-! DEFINITION. Channel programs and their orders (11 R454 to R462, R716), outbound and inbound
transactions (11 R463 to R477, R486 to R489) and the taking in of work items (07 R310 to R314). The frames of
the link stand in Links.lean. -/

namespace Sys2Proof.Machine

/-! ### Orders (11 R456, R716) -/

def orderCmp (ws : List Word) : Bool := bit (ws.headD 0) 1
def orderEnc (ws : List Word) : Bool := bit (ws.headD 0) 2
def orderMirror (ws : List Word) : Bool := bit (ws.headD 0) 5
def orderNotify (ws : List Word) : Bool := bit (ws.headD 0) 6
def orderChain (ws : List Word) : Bool := bit (ws.headD 0) 0

/-- READ, WRITE, SENSE and CONTROL are transactions, but READ STREAM starts none (11 R457). -/
def orderIsTx (ws : List Word) : Bool := decide (orderCode ws ≤ codeControl) && !orderStream ws

/-- A malformed order (11 R456, R458): a wrong tag, a reserved field, an unknown CODE, a flag on an order it
does not belong to, a COUNT out of range, or a CONTROL code that is reserved. -/
def orderMalformed (tws : List TWord) : Bool :=
  let ws := tws.map TWord.data
  let w0 := ws.headD 0
  let code := orderCode ws
  let w4 := (ws.getD 4 0).toNat
  let tags := (List.range 8).all fun i => (tws.getD i TWord.zero).tag == (if i = 2 then Tag.ptr else Tag.int)
  let data := code == codeRead || code == codeWrite
  !tags || code == 0 || decide (codeWait < code) || field w0 27 24 != 0 || field w0 11 7 != 0
    || (orderStream ws && code != codeRead) || (bit w0 3 && !orderStream ws)
    || ((orderCmp ws || orderEnc ws) && !data) || (!orderEnc ws && ws.getD 3 0 != 0)
    || decide (64 ≤ w4) || (w4 != 0 && !(orderStream ws || code == codeControl || code == codeWait))
    || (ws.drop 5).any (· != 0)
    || (data && (ws.getD 1 0 == 0 || decide (2 ^ 24 < (ws.getD 1 0).toNat)))
    || (code == codeControl && (w4 == 0 || (decide (4 ≤ w4) && decide (w4 ≤ 31))))

/-- A READ STREAM with FLOWED names a flow that is bound to its queue (11 R716). -/
def State.flowedWell (s : State) (p : BitVec 6) (ws : List Word) : Bool :=
  match (if orderStream ws then streamFlow ws else none) with
  | none => true
  | some f => (s.flow f).bound && (s.flow f).part == p && (s.flow f).queue == streamQueue ws

/-- Fetch an order of a subchannel's space (11 R460, R461): none where it cannot be read, holds POISON or is
malformed. -/
def State.fetchOrder (s : State) (u : Sub) (va : Word) : Option (List Word) × State :=
  match s.readDesc u.sid va 8 with
  | (some ws, s) =>
    if (ws.any fun w => w.tag == Tag.poison) || orderMalformed ws || !s.flowedWell u.part (ws.map TWord.data) then
      (none, s)
    else (some (ws.map TWord.data), s)
  | (none, s) => (none, s)

/-! ### Submitting and launching (11 R455, R460, R470; 07 R315 to R318) -/

/-- What became of submitting an order. -/
inductive OrderSays where
  | opened
  | held
  | waits
  | refused
  deriving DecidableEq, Repr

/-- The flow a transaction carries: that of its item, when the item is ordered (assumption 33). -/
def itemFlow (i : Option WItem) : BitVec 12 := (i.bind WItem.flow).getD 0

/-- Submit the transaction of an order that was fetched: its entry opens, or its release waits at the
Threshold (11 R470, 07 R316). FINAL goes with an order that CHAIN follows no other. -/
def State.submitOrder (s : State) (n : BitVec 3) (b : BitVec 8) (ws : List Word) : OrderSays × State :=
  let g := (s.sub n b).prog
  let s := s.modProg n b fun g => { g with words := ws }
  match g.item with
  | none => (.opened, s.openOrder n b 0 0)
  | some k =>
    match s.item k with
    | none => (.refused, s)
    | some it =>
      if it.ended || it.abandoned then (.refused, s)
      else
        match s.submitRelease it (.program n b (g.final && !orderChain ws)) with
        | (.passed, s) => (.opened, s)
        | (.held, s) => (.held, s.modProg n b fun g => { g with held := true })
        | (.waits, s) => (.waits, s.modProg n b fun g => { g with words := [] })

/-- The bytes of a buffer, as a channel processor or an engine reads them (11 R461): none when a word cannot
be read or is POISON. Every other word counts as its data bits. -/
def State.bufferBytes (s : State) (sid : BitVec 16) (va : Word) (n : Nat) : Option (List Byte) :=
  match s.spaceReads sid va ((n + 3) / 4) with
  | .ok ws =>
    if ws.any fun w => w.tag == Tag.poison then none
    else some (((ws.map fun w => wordBytes w.data).flatten).take n)
  | .error _ => none

/-- A key handle of a space: its entry, valid when the generation, the SID and the type fit (12 R511). -/
def State.keyOf (s : State) (sid : BitVec 16) (handle : Word) (types : List Nat) : Option Key :=
  let k := s.key (field handle 16 0)
  if handle ≠ 0 ∧ k.inUse ∧ k.gen.toNat = field handle 31 17 ∧ k.sid = sid ∧ types.contains k.typ.toNat then some k
  else none

/-- An engine of a class works (12 R527, R530). -/
def engineCount (k : BitVec 3) : Nat :=
  match k.toNat with
  | 0 => 16
  | 1 => 16
  | 2 => 4
  | 3 => 2
  | 4 => 1
  | _ => 0
def engBase (k : BitVec 3) : Nat := if k = 0 then lfmBase else cryBase k.toNat
def State.engineFailed (s : State) (k : BitVec 3) (e : Nat) : Bool := (s.reg (engBase k)).getLsbD e
def State.engineLeft (s : State) (k : BitVec 3) : Bool := (List.range (engineCount k)).any fun e => !s.engineFailed k e

/-- The subchannel has a slice of the class, and an engine of it works (11 R454, R459). -/
def State.mayUse (s : State) (u : Sub) (k : BitVec 3) : Bool :=
  (Map.get none u.slices k.toNat).isSome && s.engineLeft k

/-- The bytes that a WRITE transmits (11 R459): compressed, then encrypted under the TN; none when that
cannot be done. -/
def State.encodeTx (s : State) (u : Sub) (ws : List Word) (tn : BitVec 64) (plain : List Byte) :
    Option (List Byte × State) :=
  let z : Option (List Byte × State) :=
    if orderCmp ws then
      if s.mayUse u 0 then
        let (out, n, stored) := Lenfaim.compress 16 false plain
        some (out, (s.bumpBy (lfmBase + 4) n).bumpBy (lfmBase + 8) stored)
      else none
    else some (plain, s)
  if orderEnc ws then
    match z, s.keyOf u.sid (ws.getD 3 0) [1, 2] with
    | some (bs, s), some k =>
      if s.mayUse u 1 then
        let t := natBe 8 tn.toNat
        some (Aes.gcmEncrypt k.material (t ++ [0, 0, 0, 0]) t bs, s)
      else none
    | _, _ => none
  else z

/-- The bytes that arrived under an order, decrypted and decompressed (11 R459); none when that fails or
they are not in the form the order names. -/
def State.decodeTx (s : State) (u : Sub) (ws : List Word) (tn : BitVec 64) (isCmp isEnc : Bool)
    (got : List Byte) : Option (List Byte) :=
  if isCmp ≠ orderCmp ws ∨ isEnc ≠ orderEnc ws then none
  else
    let t := natBe 8 tn.toNat
    let plain :=
      if isEnc then
        match s.keyOf u.sid (ws.getD 3 0) [1, 2] with
        | some k => if s.mayUse u 1 then Aes.gcmDecrypt k.material (t ++ [0, 0, 0, 0]) t got else none
        | none => none
      else some got
    if isCmp then
      match plain with
      | some bs => if s.mayUse u 0 then Lenfaim.decompressAll bs else none
      | none => none
    else plain

/-- The blocks of a compressed stream that arrived (12 R532). -/
def State.countBlocks (s : State) (isCmp : Bool) (len : Nat) : State :=
  if isCmp then s.bumpBy (lfmBase + 4) (Lenfaim.blockCount 16 len) else s

/-! ### Starting transactions (11 R465, R480, R487 to R489) -/

/-- Change an outbound transaction. -/
def State.modTx (s : State) (tn : BitVec 64) (f : OutTx → OutTx) : State :=
  { s with outTx := s.outTx.map fun x => if x.tn == tn then f x else x }

/-- The frames of a transaction's bytes: FIRST and LAST, OFFSET and the payload pieces. -/
def dataFrames (base : CFrame) (maxPay : Nat) (bs : List Byte) : List CFrame :=
  let n := max 1 ((bs.length + maxPay - 1) / maxPay)
  (List.range n).map fun i =>
    { base with first := i == 0, last := i + 1 == n, offset := BitVec.ofNat 32 (i * maxPay)
                payload := (bs.drop (i * maxPay)).take maxPay }

/-- Two ports lead to one receiver: the originator that their peers announced (11 R484). -/
def State.sameReceiver (s : State) (n m : BitVec 4) : Bool :=
  (s.port n).peer == (s.port m).peer && (s.port n).peerModule == (s.port m).peerModule

/-- The transactions of the module that are open towards the receiver on a port, by whichever path (11 R465). -/
def State.openTowards (s : State) (n : BitVec 4) : Nat :=
  (s.outTx.filter fun x => x.begun && (x.path.map (s.sameReceiver n)).getD false).length

/-- The frames with which a transaction starts: its data, or the request (assumption 34: CODE of a REQ is
the order's). -/
def OutTx.frames (x : OutTx) (maxPay : Nat) : List (BitVec 4 × CFrame) :=
  let code := orderCode x.words
  let f := { frame11 x.lch x.tn 0 [] with flow := x.flow }
  if code = codeRead ∨ code = codeSense then
    [(tyReq, { f with first := true, last := true, code := BitVec.ofNat 8 code
                      payload := natBe 4 (orderBytes x.words).toNat })]
  else if code = codeControl then
    [(tyData, { f with first := true, last := true, code := (x.words.getD 4 0).setWidth 8 })]
  else
    (dataFrames { f with cmp := orderCmp x.words, enc := orderEnc x.words } maxPay x.bytes).map fun g => (tyData, g)

/-- The transaction may start on its path now: its entry is OPEN, the link is UP, the far end paused neither
its flow nor deferred it, credit is left and fewer than 4,096 are open. -/
def State.mayBegin (s : State) (x : OutTx) (n : BitVec 4) : Bool :=
  let c := s.lch n x.lch
  let left := (c.creditOut - c.startedOut).toNat
  !x.begun && !x.deferred && (s.entry x.entry).state == ldOpen && (s.port n).link == linkUp
    && !c.paused.contains x.flow && decide (0 < left) && decide (left < 2 ^ 31)
    && decide (s.openTowards n < 4096)

/-- A capability that the order needs and the session lacks (11 R483). -/
def Port.lacks (p : Port) (ws : List Word) : Bool :=
  (orderCmp ws && !p.caps.getLsbD 0) || (orderEnc ws && !p.caps.getLsbD 1)

/-! ### The end of an outbound transaction (11 R457, R462, R470) -/

/-- Write bytes to a buffer, least significant byte first; a last word that is not filled keeps its other
bytes. Answers whether every word was written (08 R714). -/
def State.writeBuffer (s : State) (src : Nat) (sid : BitVec 16) : Word → Nat → List Byte → Bool × State
  | _, 0, _ => (true, s)
  | va, n + 1, bs =>
    if bs = [] then (true, s)
    else
      let now := bs.take 4
      let old : Word := match s.spaceRead sid va with
        | .ok w => if w.tag = Tag.int then w.data else 0
        | .error _ => 0
      let v := BitVec.ofNat 32 (leNat (now ++ (wordBytes old).drop now.length))
      match s.spaceWrite sid va (TWord.int v) with
      | .ok s => State.writeBuffer s src sid (va + 1) n (bs.drop 4)
      | .error c =>
        let (_, s) := State.writeBuffer (s.writeFailed src sid va c) src sid (va + 1) n (bs.drop 4)
        (false, s)

/-- Words of a buffer. -/
def wordsOf (n : Nat) : Nat := (n + 3) / 4

/-- A READ STREAM ends (11 R458): a program with CHAIN goes on at the next order, unless a word of an item's buffer
could not be written (08 R714). -/
def State.endStream (s : State) (n : BitVec 3) (l : BitVec 16) : State :=
  match s.streamAt (chPort n) l with
  | none => s
  | some (q, b, u) =>
    let ws := u.prog.words
    let s := s.modLch (chPort n) l fun c => { c with ending := false }
    if orderChain ws && !u.prog.wfault then
      s.modProg q b fun g => { g with streaming := false, words := [], order := g.order + 8 }
    else s.endProgram q b u.prog.outcome u.prog.residual

/-- A program goes on after an order (11 R457, R462): to the next order, or to its end when CHAIN is clear,
the transaction was not performed or a word could not be written (assumption 32). -/
def State.afterOrder (s : State) (n : BitVec 3) (b : BitVec 8) (outcome : Byte) (residual : Word) (bad : Bool) :
    State :=
  s.modProg n b fun g =>
    let ends := outcome != ocPerformed || bad || !orderChain g.words
    { g with outcome := outcome, residual := residual, wfault := g.wfault || bad, entry := none
             done := g.done ++ g.entry.toList, words := [], order := if ends then g.order else g.order + 8
             due := if ends then 2 else if orderNotify g.words then 1 else 0 }

/-- An outbound transaction closes with an outcome (11 R470, R521): the data that came back is decoded and
written first, and a READ that cannot be decoded closes as REJECTED. -/
def State.finishTx (s : State) (x : OutTx) (outcome : Byte) : State :=
  let s := { s with outTx := s.outTx.filter fun y => y.tn != x.tn }
  let u := s.sub x.port x.sub
  let count := orderBytes x.words
  let reads := orderCode x.words = codeRead ∨ orderCode x.words = codeSense
  let runs := u.prog.running && u.prog.entry == some x.entry
  if reads ∧ outcome = ocPerformed then
    match (if orderCode x.words = codeSense then some x.got
           else s.decodeTx u x.words x.tn x.cmp x.enc x.got) with
    | none =>
      let s := s.closeEntry x.entry ocRejected
      if runs then s.afterOrder x.port x.sub ocRejected count false else s
    | some bs =>
      let bs := bs.take count.toNat
      let s := s.countBlocks x.cmp bs.length
      let (ok, s) := s.writeBuffer (portSource x.port 6) u.sid (x.words.getD 2 0) (wordsOf bs.length) bs
      let s := s.closeEntry x.entry ocPerformed
      if runs then s.afterOrder x.port x.sub ocPerformed (count - BitVec.ofNat 32 bs.length) (!ok) else s
  else
    let s := s.closeEntry x.entry outcome
    let s := if outcome = ocPerformed ∧ orderCode x.words = codeControl ∧ x.words.getD 4 0 = 1 then
        s.endStream x.port x.lch else s
    if runs then s.afterOrder x.port x.sub outcome (if outcome = ocPerformed then 0 else count) false else s

/-- Start the waiting transactions of a port that may start, in the order in which they were opened; one
that needs a capability the session lacks ends first (11 R465, R483, R487). -/
def State.startTxs (s : State) (n : BitVec 4) : State :=
  s.each (s.outTx.filter fun x => x.path == some n && !x.begun) fun s x =>
    let p := s.port n
    if p.link = linkUp ∧ !x.begun ∧ p.lacks x.words ∧ (s.entry x.entry).state = ldOpen then
      s.finishTx x ocNotPerformed
    else if s.mayBegin x n then
      let s := s.modTx x.tn fun y => { y with begun := true, left := true, got := [] }
      let s := s.modLch n x.lch fun c => { c with startedOut := c.startedOut + 1 }
      s.each (x.frames p.maxPay.toNat) fun s f => s.sendFrame n f.1 f.2
    else s

/-- Launch the opened transaction of a program (11 R457, R459, R461): its bytes are read and encoded, and it
waits for its path. A WRITE whose buffer cannot be read, holds POISON or cannot be encoded closes as
NOT_PERFORMED: no frame of it has left. -/
def State.launch (s : State) (n : BitVec 3) (b : BitVec 8) : State :=
  let u := s.sub n b
  let ws := u.prog.words
  match u.prog.entry with
  | none => s
  | some i =>
    let tn := (s.entry i).tn
    let x : OutTx :=
      { entry := i, tn := tn, port := n, sub := b, lch := u.lch, words := ws, flow := (s.entry i).flow, bytes := []
        path := s.upPath n u.lch, begun := false, left := false, deferred := false, got := [], cmp := false, enc := false }
    let go (s : State) (x : OutTx) : State :=
      let s := { s with outTx := s.outTx ++ [x] }
      match x.path with
      | some q => s.startTxs q
      | none => s
    if orderCode ws = codeWrite then
      let s := s.touches u.sid (ws.getD 2 0) (wordsOf (ws.getD 1 0).toNat)
      match s.bufferBytes u.sid (ws.getD 2 0) (ws.getD 1 0).toNat with
      | none => s.finishTx x ocNotPerformed
      | some plain =>
        match s.encodeTx u ws tn plain with
        | none => s.finishTx x ocNotPerformed
        | some (bs, s) => go s { x with bytes := bs }
    else go s x

/-! ### CSTART (11 R455, R460, R461; 03 R151) -/

/-- A malformed program header (11 R455), POISON apart. -/
def headerMalformed (ws : List TWord) : Bool :=
  let d := ws.map TWord.data
  let w0 := d.headD 0
  let tagOk (i : Nat) (t : Tag) : Bool := (ws.getD i TWord.zero).tag == t
  !(tagOk 0 Tag.int && tagOk 2 Tag.int && tagOk 3 Tag.int)
    || (if bit w0 31 then !tagOk 1 Tag.ptr else !(tagOk 1 Tag.int && d.getD 1 0 == 0))
    || field w0 29 0 != 0 || (bit w0 30 && !bit w0 31) || field (d.getD 2 0) 31 18 != 0 || d.getD 3 0 != 0

/-- What CSTART answers: a status, or that the strand waits for the release store. -/
inductive CstartSays where
  | status (n : Nat)
  | waits
  deriving DecidableEq, Repr

/-- CSTART on a subchannel (11 R460). A header or a first order that holds POISON or cannot be read starts a
program that ends at once with NOT_PERFORMED (R461). The order of the checks is the model's (DESIGN CHOICE,
assumption 35). -/
def State.cstart (s : State) (t : Slot) (hdr num : Word) : CstartSays × State :=
  let n : BitVec 3 := (num >>> 8).setWidth 3
  let b : BitVec 8 := num.setWidth 8
  let u := s.sub n b
  if 2048 ≤ num.toNat ∨ !u.bound ∨ u.sid ≠ t.sid then (.status 2, s)
  else if u.prog.running then (.status 1, s)
  else
    match s.readDesc u.sid hdr 4 with
    | (h, s) => match s.readDesc u.sid (hdr + 8) 8 with
    | (o, s) =>
      let poisoned (x : Option (List TWord)) : Bool :=
        match x with
        | some ws => ws.any fun w => w.tag == Tag.poison
        | none => true
      let hs := h.getD []
      let os := o.getD []
      let d := hs.map TWord.data
      let ws := os.map TWord.data
      let g : Program :=
        { program0 with running := true, header := hdr, part := u.part, sid := u.sid
                        stmt := (d.getD 2 0).setWidth 16, tport := (d.getD 2 0 >>> 16).setWidth 2, order := hdr + 8 }
      let begin_ (s : State) (g : Program) : State := s.modSub n b fun u => { u with prog := g }
      if poisoned h || (!headerMalformed hs && poisoned o) then
        (.status 0, (begin_ s g).endProgram n b ocNotPerformed 0)
      else if headerMalformed hs || orderMalformed os || !s.flowedWell u.part ws then (.status 3, s)
      else
        let w0 := d.headD 0
        let it := if bit w0 31 then s.itemAt u.part u.sid (d.getD 1 0) else none
        let endedItem := bit w0 31 && (match it with | some x => x.ended || x.abandoned | none => true)
        let isTx := orderIsTx ws
        if endedItem then (.status 4, s)
        else if s.plat.ledgerClosed then (.status 7, s)
        else if isTx && orderMirror ws && s.hier.partner.isNone then (.status 6, s)
        else if isTx && !s.ledgerRoom u.part then (.status 5, s)
        else
          let s1 := begin_ s { g with item := it.map WItem.id, final := bit w0 30 }
          if isTx then
            match s1.submitOrder n b ws with
            | (.waits, _) => (.waits, s)
            | (.refused, _) => (.status 4, s)
            | (_, s) => (.status 0, s)
          else (.status 0, s1)

/-- CSTART (03 R165, R151; 11 R455, R460). -/
def execCstart (i : Iss) (x : LongOp) (s : State) : Outcome :=
  s.issue i x.len (x.legal .lr false false) true x.regs (cf := true) fun s t =>
    let args : Except Byte (Word × Word) := do
      let a ← ptrOperand (t.g x.a)
      let b ← intOperand (t.g x.b)
      return (a, b)
    match args with
    | .error r => .event (tagEv r) s
    | .ok (a, b) =>
      match s.cfBefore i true with
      | .error s => .waits s
      | .ok s =>
        match s.cstart (s.slot i.cell i.slot) a b with
        | (.status n, s) => s.cfDone i x.len [(x.d, TWord.int (BitVec.ofNat 32 n))]
        | (.waits, s) => .waits (s.modSlot i.cell i.slot fun t => { t with wait := .release (some x.d) })

/-! ### The order commands (11 R457) -/

/-- The program of a subchannel that may run an order now. -/
def Program.ready (g : Program) : Bool :=
  g.running && g.due == 0 && !g.held && !g.streaming

/-- Run the order at hand when it is of the kind `isKind`. The order is fetched first, unless its release or
its entry is already there; an order that is malformed, cannot be read or holds POISON ends the program,
whichever order command finds it (11 R460, R461). `act` acts on an order that is no transaction. -/
def State.runOrder (s : State) (n : BitVec 3) (b : BitVec 8) (isKind : List Word → Bool)
    (act : State → List Word → State) : Outcome :=
  let u := s.sub n b
  let g := u.prog
  if !g.ready || s.plat.ledgerClosed then idle s
  else
    match g.entry with
    | some i =>
      if (s.outTx.any fun x => x.entry == i) || !isKind g.words then idle s else .next (s.launch n b)
    | none =>
      match s.fetchOrder u g.order with
      | (none, s) => .next (s.endProgram n b ocNotPerformed 0)
      | (some ws, s) =>
        if !isKind ws then idle s
        else if !orderIsTx ws then .next (act s ws)
        else if orderMirror ws && s.hier.partner.isNone then
          .next (s.endProgram n b ocNotPerformed (orderBytes ws))
        else
          match s.submitOrder n b ws with
          | (.opened, s) => .next (s.launch n b)
          | (.held, s) => .next s
          | (.waits, s) => .next s
          | (.refused, s) => .next (s.endProgram n b ocNotPerformed (orderBytes ws))

def isOrder (code : Nat) (ws : List Word) : Bool := orderCode ws == code && !orderStream ws

/-- READ (11 R457). -/
def execReadOrder (port : BitVec 3) (sub : BitVec 8) (s : State) : Outcome :=
  s.runOrder port sub (isOrder codeRead) fun s _ => s

/-- WRITE (11 R457). -/
def execWriteOrder (port : BitVec 3) (sub : BitVec 8) (s : State) : Outcome :=
  s.runOrder port sub (isOrder codeWrite) fun s _ => s

/-- SENSE (11 R457, R458). -/
def execSenseOrder (port : BitVec 3) (sub : BitVec 8) (s : State) : Outcome :=
  s.runOrder port sub (isOrder codeSense) fun s _ => s

/-- CONTROL (11 R457, R458). -/
def execControlOrder (port : BitVec 3) (sub : BitVec 8) (s : State) : Outcome :=
  s.runOrder port sub (isOrder codeControl) fun s _ => s

/-- READ STREAM (11 R457, R458, R487): the stream runs and credit is granted. A queue that is not bound to
the subchannel's SID, or a second stream on the link channel, ends the program (assumption 32). -/
def execReadStreamOrder (port : BitVec 3) (sub : BitVec 8) (s : State) : Outcome :=
  s.runOrder port sub orderStream fun s ws =>
    let u := s.sub port sub
    let w := s.workq u.part (streamQueue ws)
    if !w.bound || w.sid != u.sid || (s.streamAt (chPort port) u.lch).isSome then
      s.endProgram port sub ocNotPerformed (orderBytes ws)
    else
      let s := s.modProg port sub fun g => { g with streaming := true, words := ws }
      let s := s.modLch (chPort port) u.lch fun c => { c with ending := false }
      let full := ((streamFlow ws).map fun f => (s.flow f).full).getD false
      let s := if full then s.pauseFlow ((streamFlow ws).getD 0) true else s
      s.each (s.pathsOf port u.lch) fun s q => s.grantCredit q u.lch

/-- JUMP (11 R457). -/
def execJumpOrder (port : BitVec 3) (sub : BitVec 8) (s : State) : Outcome :=
  s.runOrder port sub (isOrder codeJump) fun s ws =>
    s.modProg port sub fun g => { g with order := ws.getD 2 0, due := if orderNotify ws then 1 else 0 }

/-- WAIT-EVENT (11 R457): the program waits until the event is signalled, and then goes on. -/
def execWaitEventOrder (port : BitVec 3) (sub : BitVec 8) (signalled : Bool) (s : State) : Outcome :=
  s.runOrder port sub (isOrder codeWait) fun s ws =>
    if signalled then
      s.modProg port sub fun g =>
        { g with event := none, order := if orderChain ws then g.order + 8 else g.order
                 due := if !orderChain ws then 2 else if orderNotify ws then 1 else 0 }
    else s.modProg port sub fun g => { g with event := some ((ws.getD 4 0).setWidth 6) }

/-- Free the closed entries of a program once their completion token is accepted; at once when there is no
event context to send it to (11 R475). -/
def State.markDone (s : State) (is : List Nat) (tok : Option Nat) : State :=
  s.each is fun s i =>
    match tok with
    | some k => s.modEntry i fun e => { e with doneTok := some k }
    | none => s.freeEntry i

/-- PROGRAM_END (11 R462, 03 R166): header words 4 to 7 are written and the completion token is sent; at its
end the program leaves its subchannel. -/
def execProgramEnd (port : BitVec 3) (sub : BitVec 8) (s : State) : Outcome :=
  let g := (s.sub port sub).prog
  if !g.running || g.due == 0 then idle s
  else
    let put (s : State) (k : Word) (v : Word) : State :=
      match s.spaceWrite g.sid (g.header + k) (TWord.int v) with
      | .ok s => s
      | .error c => s.writeFailed (portSource port 6) g.sid (g.header + k) c
    let s := put s 4 (g.outcome.setWidth 32 ||| (if g.wfault then 0x100 else 0))
    let s := put s 5 g.residual
    let s := put s 6 (g.tn.setWidth 32)
    let s := put s 7 ((g.tn >>> 32).setWidth 32)
    let tok := if isNullCtx (s.eventCtx g.part) then none else some s.ids
    let s := s.completionToken (.channel port) g.part g.stmt g.tport ⟨Tag.ptr, g.header⟩
    let s := s.markDone g.done tok
    .next (s.modSub port sub fun u =>
      { u with prog := if g.due = 2 then program0 else { g with due := 0, done := [] } })

/-! ### Duplicate windows (11 R467, R484) -/

/-- The counter of a TN, and whether one is later than another (11 R463). -/
def tnCounter (t : BitVec 64) : Nat := t.toNat % 2 ^ 52
def tnAhead (a b : BitVec 64) : Nat := (tnCounter a + 2 ^ 52 - tnCounter b) % 2 ^ 52

/-- The window of a TN's originator, in the namespace of the peer on a port. -/
def Port.winKey (p : Port) (tn : BitVec 64) : Nat := (if p.peerModule then 4096 else 0) + tn.toNat / 2 ^ 52

/-- How a window knows a TN. -/
inductive Known where
  | new
  | performed
  | fenced
  deriving DecidableEq, Repr

def DupWin.knows (d : DupWin) (tn : BitVec 64) : Known :=
  if d.performed.contains tn then .performed
  else if d.fenced.contains tn then .fenced
  else if d.performed = [] then .new
  else if tnAhead d.highest tn < 2 ^ 51 ∧ 4096 ≤ tnAhead d.highest tn then .performed
  else .new

/-- A TN is marked performed: the window moves up to it where it is later. -/
def DupWin.perform (d : DupWin) (tn : BitVec 64) : DupWin :=
  let top := if d.performed = [] ∨ (0 < tnAhead tn d.highest ∧ tnAhead tn d.highest < 2 ^ 51) then tn else d.highest
  let keep (t : BitVec 64) : Bool := !(decide (4096 ≤ tnAhead top t) && decide (tnAhead top t < 2 ^ 51))
  { highest := top, performed := (tn :: d.performed).filter keep, fenced := d.fenced.filter keep }

def DupWin.fence (d : DupWin) (tn : BitVec 64) : DupWin :=
  if d.performed.contains tn ∨ d.fenced.contains tn then d else { d with fenced := tn :: d.fenced }

/-- Record an inbound TN as performed; closed inbound entries below the window are freed (11 R467, R475). -/
def State.performTn (s : State) (n : BitVec 4) (tn : BitVec 64) : State :=
  let k := (s.port n).winKey tn
  let s := s.modDup k fun d => d.perform tn
  let top := (s.dup k).highest
  let gone (e : Ledger) : Bool :=
    e.kind.getLsbD 0 && e.state == ldClosed && e.tn.toNat / 2 ^ 52 == tn.toNat / 2 ^ 52
      && decide (4096 ≤ tnAhead top e.tn) && decide (tnAhead top e.tn < 2 ^ 51)
  let s' := { s with ledger := s.ledger.filter fun e => !gone e.2 }
  s'.each (s.ledger.filter fun e => gone e.2) fun s e => s.mirrorCopy { e.2 with state := ldFree }

def State.fenceTn (s : State) (n : BitVec 4) (tn : BitVec 64) : State :=
  s.modDup ((s.port n).winKey tn) fun d => d.fence tn

/-- Answer an inbound transaction end to end (11 R466, R467). -/
def State.sendE2e (s : State) (n : BitVec 4) (l : BitVec 16) (tn : BitVec 64) (code : Byte) : State :=
  s.sendFrame n tyE2e (frame11 l tn code [])

/-- An inbound transaction is not performed and never will be: it is fenced. -/
def State.rejectTn (s : State) (n : BitVec 4) (l : BitVec 16) (tn : BitVec 64) : State :=
  (s.fenceTn n tn).sendE2e n l tn ocNotPerformed

/-! ### Taking in work items (07 R310 to R314; 11 R457, R470) -/

/-- Drop an inbound transaction that is taken in or closed. -/
def State.dropRx (s : State) (n : BitVec 4) (tn : BitVec 64) : State :=
  s.modPort n fun p => { p with rx := p.rx.filter fun r => r.tn != tn }

/-- A stream that is ending ends once every transaction started on it is accepted or discarded
(11 R458). -/
def State.settleStream (s : State) (n : BitVec 4) (l : BitVec 16) : State :=
  match s.streamAt n l with
  | some (q, _, _) =>
    let c := s.lch n l
    if c.ending ∧ ((s.port n).rx.all fun r => r.lch != l || r.last) then s.endStream q l else s
  | none => s

/-- The descriptor words 0 to 7 of an item (07 R311). -/
def itemWords (flow : Option (BitVec 12)) (seq buffer : Word) (len : Nat) (tn : BitVec 64) (now : BitVec 64) :
    List TWord :=
  let w0 : Word := match flow with
    | some f => 0x80000000 ||| f.setWidth 32
    | none => 0
  [TWord.int w0, TWord.int seq, ⟨Tag.ptr, buffer⟩, TWord.int (BitVec.ofNat 32 len), TWord.int (tn.setWidth 32),
   TWord.int ((tn >>> 32).setWidth 32), TWord.int (now.setWidth 32), TWord.int 0]

/-- Give a new item to the earliest parked WORKGET of its queue (03 R144). -/
def State.offerItem (s : State) (p q : BitVec 6) : State :=
  match (s.workq p q).parked, s.nextItem p q with
  | (c, k) :: _, some it => (s.giveItem it (s.slot c k).act.ctx).unpark c k ⟨Tag.ptr, it.desc⟩
  | _, _ => s

/-- Make the work item of an accepted transaction (07 R311, R314). Where a word of its buffer cannot be written, the
stream that takes it in ends once its transactions have, and its program with it (08 R714). -/
def State.makeItem (s : State) (n : BitVec 4) (r : Rx) (i : Nat) (bs : List Byte) : State :=
  let q := streamQueue r.words
  let w := s.workq r.part q
  let flow := streamFlow r.words
  match w.free with
  | [] => s
  | desc :: rest =>
    let idx := ((desc - w.ring).toNat) / 8
    let buffer := r.words.getD 2 0 + BitVec.ofNat 32 (idx * wordsOf (r.words.getD 1 0).toNat)
    let src := portSource r.home 6
    let (ok, s) := s.writeBuffer src r.sid buffer (wordsOf bs.length) bs
    let s := match s.streamAt n r.lch with
      | some (p, b, _) =>
        if ok then s
        else ((s.modProg p b fun g => { g with wfault := true }).modLch n r.lch fun c =>
          { c with ending := true }).settleStream n r.lch
      | none => s
    let seq := match flow with
      | some f => (s.flow f).nextSeq
      | none => 0
    match s.spaceWrites r.sid desc (itemWords flow seq buffer bs.length r.tn s.now) with
    | .error (at_, c, s) => ((s.writeFailed src r.sid at_ c).closeEntry i ocRejected)
    | .ok s =>
      let (id, s) := s.fresh
      let it : WItem :=
        { id := id, part := r.part, queue := q, desc := desc, sid := r.sid, flow := flow, seq := seq, taken := false
          taker := none, releases := 0, ended := false, finished := false, abandoned := false, tn := r.tn }
      let s := { s with items := s.items ++ [it] }
      let s := s.modWorkq r.part q fun w => { w with free := rest, items := w.items ++ [id] }
      let s := match flow with
        | none => s
        | some f =>
          let fl := s.flow f
          let s := s.setFlow f { fl with nextSeq := fl.nextSeq + 1
                                         headSince := if fl.occupancy = 0 then s.now else fl.headSince }
          if 1024 ≤ (s.flow f).occupancy then (s.modFlow f fun x => { x with full := true }).pauseFlow f true else s
      s.offerItem r.part q

/-- ITEM_INTAKE (07 R314): an accepted transaction becomes an item, unless its flow is full or its ring has
no free descriptor; it closes as REJECTED where it cannot be decoded (11 R470). -/
def execItemIntake (port : BitVec 4) (tn : BitVec 64) (s : State) : Outcome :=
  let n := port
  match (s.port n).rx.find? fun r => r.tn == tn && r.last with
  | none => idle s
  | some r =>
    match r.entry with
    | none => idle s
    | some i =>
      let isFull := ((streamFlow r.words).map fun f => decide (1024 ≤ (s.flow f).occupancy)).getD false
      if (s.entry i).state ≠ ldAccepted ∨ isFull ∨ (s.workq r.part (streamQueue r.words)).free = [] then idle s
      else
        let u := { sub0 with sid := r.sid, slices := (s.sub r.home r.sub).slices }
        let s1 := s.dropRx n tn
        match s1.decodeTx u r.words tn r.cmp r.enc r.bytes with
        | none => .next ((s1.closeEntry i ocRejected).grantCredit n r.lch)
        | some bs =>
          if (r.words.getD 1 0).toNat < bs.length then .next ((s1.closeEntry i ocRejected).grantCredit n r.lch)
          else .next (((s1.countBlocks r.cmp bs.length).makeItem n r i bs).grantCredit n r.lch)

end Sys2Proof.Machine
end

