-- ==== Sys2Proof/Machine/Links.lean ====
section
/-! DEFINITION. The link protocol (11 R479 to R489): sessions, frames in and their effects, timers, mirror
acknowledgements, and the channel processor pairs (11 R490 to R493). -/

namespace Sys2Proof.Machine

/-! ### Sessions (11 R482 to R485) -/

/-- What the module proposes: the largest payload, the most frames and every capability, MODULE set. -/
abbrev ownMaxPay : Nat := 8192
abbrev ownWindow : Nat := 1024
abbrev ownCaps : Nat := 0xF

/-- The HELLO of the module; it proposes the session last agreed (assumption 36). -/
def State.helloFrame (s : State) (n : BitVec 4) : CFrame :=
  frame11 0 0 0 (natBe 2 s.hier.modn.toNat ++ natBe 2 (s.port n).proposal.toNat ++ natBe 2 ownMaxPay
    ++ natBe 2 ownWindow ++ natBe 2 ownCaps ++ List.replicate 6 0)

/-- A HELLO is valid (11 R483, R484): on a fabric port a module announces the number of its IDENT. -/
def State.helloValid (s : State) (n : BitVec 4) (f : CFrame) : Bool :=
  let p := f.payload
  let orig := beNat (p.take 2)
  let pay := beNat ((p.drop 4).take 2)
  let win := beNat ((p.drop 6).take 2)
  let caps := beNat ((p.drop 8).take 2)
  let identOk :=
    if n.toNat < 8 ∨ caps / 8 % 2 = 0 then true
    else
      match (Map.get fabPort0 s.hier.ports (n.toNat - 8)).peer with
      | some i => i.module.toNat == orig
      | none => false
  f.ver == 1 && p.length == 16 && decide (orig < 4096) && decide (512 ≤ pay) && decide (pay ≤ 8192)
    && decide (16 ≤ win) && decide (win ≤ 1024) && decide (caps < 16) && (p.drop 10).all (· == 0) && identOk

/-- A frame of bad form is counted (11 R481, R483, R498). -/
def State.badFrame (s : State) (n : BitVec 4) : State :=
  let s := s.chnBump n 0x30
  if n.toNat < 8 then s.assertSrc (portSource (n.setWidth 3) 5) else s

/-- The paths of an outbound entry: those of its subchannel's link channel. -/
def State.entryPaths (s : State) (e : Ledger) : List (BitVec 4) := s.pathsOf (e.path.setWidth 3) (s.lchOf e.sub)

/-- A path came up: transactions that wait for a path take it, those of this path start again, and QUERY
goes out for every outbound entry that is IN_DOUBT, a dead partner's too (11 R472, R478, R485, R489). -/
def State.pathUp (s : State) (n : BitVec 4) : State :=
  let s := { s with outTx := s.outTx.map fun (x : OutTx) =>
    if x.path == none && (s.entry x.entry).state != ldInDoubt && (s.pathsOf x.port x.lch).contains n then
      { x with path := some n }
    else x }
  let s := s.each s.ledger fun s (_, e) =>
    if e.state = ldInDoubt ∧ !e.kind.getLsbD 0 ∧ (s.entryPaths e).contains n then
      s.sendFrame n tyQuery (frame11 (s.lchOf e.sub) e.tn 0 [])
    else s
  let s := s.each s.copies fun s e =>
    if e.state = ldInDoubt ∧ (s.entryPaths e).contains n then
      s.sendFrame n tyQuery (frame11 (s.lchOf e.sub) e.tn 0 [])
    else s
  s.startTxs n

/-- The link comes UP with the agreed values (11 R482, R483, R485): FSEQ starts at 0, and CREDIT is sent for
every stream. -/
def State.openSession (s : State) (n : BitVec 4) (f : CFrame) : State :=
  let p := f.payload
  let proposed := beNat ((p.drop 2).take 2)
  let s := s.modPort n fun y =>
    { y with
      link := linkUp, session := BitVec.ofNat 16 (max y.proposal.toNat proposed + 1), fseq := 0, lastFseq := 0
      ackseq := 0, unacked := [], txq := [], sinceAck := 0, timeouts := 0
      maxPay := BitVec.ofNat 16 (min ownMaxPay (beNat ((p.drop 4).take 2)))
      window := BitVec.ofNat 16 (min ownWindow (beNat ((p.drop 6).take 2)))
      caps := BitVec.ofNat 16 (beNat ((p.drop 8).take 2) % 8)
      peerModule := decide (beNat ((p.drop 8).take 2) / 8 % 2 = 1)
      peer := BitVec.ofNat 12 (beNat (p.take 2))
      lchs := y.lchs.map fun e =>
        (e.1, { e.2 with creditOut := 0, startedOut := 0, creditIn := 0, startedIn := 0, paused := [] }) }
  let s := s.sendFrame n tyHello (s.helloFrame n)
  let streams := (s.ports.map fun (q, y) => (y.subs.filter fun e => e.2.prog.streaming).map fun e => (q, e.2.lch)).flatten
  let s := s.each streams fun s (q, l) =>
    if (s.pathsOf (BitVec.ofNat 3 q) l).contains n then s.grantCredit n l else s
  let s := s.each (s.port n).lchs fun s (l, c) =>
    s.each c.pausing fun s fl =>
      if (s.port n).caps.getLsbD 2 then
        s.sendFrame n tyPause { frame11 (BitVec.ofNat 16 l) 0 1 [] with flow := fl }
      else s
  let due := (s.port n).resolves
  let s := s.modPort n fun y => { y with resolves := [] }
  let s := s.each due fun s (tn, l, code) => s.sendResolve n tn l code
  s.pathUp n

/-- Move the open transactions of a path that went down (11 R489): to the first path in UP state, where they
restart from OFFSET 0; with none, those that have sent a frame become IN_DOUBT and the others wait. -/
def State.moveTxs (s : State) (n : BitVec 4) : State :=
  s.each (s.outTx.filter fun x => x.path == some n) fun s x =>
    match s.upPath x.port x.lch with
    | some q => (s.modTx x.tn fun y => { y with path := some q, begun := false, deferred := false, got := [] }).startTxs q
    | none =>
      let s := s.modTx x.tn fun y => { y with path := none, begun := false, deferred := false, got := [] }
      if x.left then s.doubtEntry x.entry else s

/-- The session ends (11 R485, R466): inbound transactions that are not complete are not performed, and
their entries are freed. -/
def State.endSession (s : State) (n : BitVec 4) : State :=
  let lost := (s.port n).rx.filter fun r => !r.last
  let s := s.each lost fun s r => match r.entry with
    | some i => s.freeEntry i
    | none => s
  let s := s.modPort n fun p =>
    { p with link := linkDown, unacked := [], txq := [], held := [], timeouts := 0, switching := false
             rx := p.rx.filter fun r => r.last }
  let s := s.chnBump n 0x38
  let s := s.assertSrc (if n.toNat < 8 then portSource (n.setWidth 3) 3 else ledgerSource (n.toNat - 5))
  s.moveTxs n

/-! ### Frames on the wire (11 R479, R480) -/

/-- The 32-byte header of a frame, most significant byte first. -/
def frameHeader (f : CFrame) (typ : BitVec 4) : List Byte :=
  let flags : BitVec 8 := BitVec.ofBool f.first ++ BitVec.ofBool f.last ++ BitVec.ofBool f.retx ++ BitVec.ofBool f.cmp
    ++ BitVec.ofBool f.enc ++ f.prio
  [f.ver ++ typ, flags] ++ natBe 2 f.lch.toNat ++ natBe 8 f.tn.toNat ++ natBe 4 f.fseq.toNat ++ natBe 4 f.ackseq.toNat
    ++ natBe 4 f.offset.toNat ++ natBe 2 f.payload.length ++ natBe 2 f.flow.toNat ++ natBe 2 f.session.toNat ++ [f.code, 0]

/-- A frame as it travels: header, payload, and CRC-32C over both. -/
def frameBytes (f : CFrame) (typ : BitVec 4) : List Byte :=
  let bs := frameHeader f typ ++ f.payload
  bs ++ natBe 4 (Digest.crc32c bs).toNat

/-- The Ethernet frame around it on a channel port: the priority of its 802.1Q tag, where VLAN_EN adds one, and the
EtherType. -/
def State.etherFields (s : State) (port : BitVec 3) (f : CFrame) : Option (BitVec 3) × BitVec 16 :=
  let c := s.reg (chnBase port.toNat)
  (if bit c 17 then some f.prio else none, c.setWidth 16)

/-! ### Frames in (11 R480, R481, R485, R486) -/

/-- The payload length that a type has, where it is fixed (11 R481, R482). -/
def fixedLen (t : BitVec 4) : Option Nat :=
  match t.toNat with
  | 0 => none
  | 3 => some 4
  | 7 => some 4
  | 9 => some 16
  | _ => some 0

/-- Progress of ACKSEQ (11 R486): frames before it are acknowledged, and what waits may leave. -/
def State.acked (s : State) (n : BitVec 4) (a : Word) : State :=
  let before (x : TxFrame) : Bool := decide (0 < (a - x.fseq).toNat) && decide ((a - x.fseq).toNat < 2 ^ 31)
  if (s.port n).unacked.any before then
    let s := s.modPort n fun p => { p with unacked := p.unacked.filter fun x => !before x, timeouts := 0 }
    s.pump n ((s.port n).txq.length + 1)
  else s

def State.sendAckFrame (s : State) (n : BitVec 4) : State := s.sendFrame n tyAck (frame11 0 0 0 [])

/-- Receive one frame (11 R480 to R486): checks of form, of session and capabilities, then of the sequence;
`act` is the frame's own effect. -/
def State.receive (s : State) (n : BitVec 4) (typ : BitVec 4) (f : CFrame) (act : State → State) : State :=
  let p := s.port n
  if p.link ≠ linkUp ∧ p.link ≠ linkHello then s
  else if !f.crcOk || f.ver != 1 || decide (ownMaxPay < f.payload.length)
      || (match fixedLen typ with | some k => f.payload.length != k | none => false) then s.badFrame n
  else if p.link = linkHello then
    if typ ≠ tyHello then s
    else if s.helloValid n f then (s.chnBump n 0x24).openSession n f
    else s.badFrame n
  else if f.session ≠ p.session then s
  else if (f.cmp && !p.caps.getLsbD 0) || (f.enc && !p.caps.getLsbD 1) || decide (p.maxPay.toNat < f.payload.length) then
    s.badFrame n
  else
    let s := s.acked n f.ackseq
    if !hasFseq typ then act (s.chnBump n 0x24)
    else
      let d := (f.fseq - (s.port n).ackseq).toNat
      if d = 0 then
        let s := s.modPort n fun p => { p with ackseq := p.ackseq + 1, sinceAck := p.sinceAck + 1 }
        let s := act (s.chnBump n 0x24)
        if 16 ≤ (s.port n).sinceAck then s.sendAckFrame n else s
      else if 2 ^ 31 ≤ d then (s.chnBump n 0x2C).sendAckFrame n
      else s.badFrame n

/-! ### Inbound transactions (11 R458, R465 to R467, R488) -/

/-- The first frame of a transaction, or a request, counts as started on its link channel (11 R487). -/
def State.startIn (s : State) (n : BitVec 4) (l : BitVec 16) : State :=
  s.modLch n l fun c => { c with startedIn := c.startedIn + 1 }

/-- A TN that the window knows is answered again (11 R467); none when it is new. -/
def State.answerKnown (s : State) (n : BitVec 4) (f : CFrame) : Option State :=
  match (s.dup ((s.port n).winKey f.tn)).knows f.tn with
  | .new => none
  | .performed => some ((s.chnBump n 0x2C).sendE2e n f.lch f.tn ocPerformed)
  | .fenced => some ((s.chnBump n 0x2C).sendE2e n f.lch f.tn ocNotPerformed)

/-- The subchannel that a link channel belongs to, as it arrives at a port (11 R454, R458). -/
def State.subOn (s : State) (n : BitVec 4) (l : BitVec 16) : Option Sub :=
  ((List.range 8).map (BitVec.ofNat 3)).findSome? fun q =>
    if (s.pathsOf q l).contains n then
      ((s.port (chPort q)).subs.find? fun e => e.2.bound && e.2.lch == l).map Prod.snd
    else none

/-- Perform a CONTROL that arrived (11 R458). -/
def State.performControl (s : State) (n : BitVec 4) (l : BitVec 16) (tn : BitVec 64) (code : Byte) : State :=
  let ok (s : State) : State := (s.performTn n tn).sendE2e n l tn ocPerformed
  if code = 1 then (ok (s.modLch n l fun c => { c with ending := true })).settleStream n l
  else if code = 2 then ok (s.modLch n l fun c => { c with draining := true })
  else if code = 3 then ok ((s.modLch n l fun c => { c with draining := false }).grantCredit n l)
  else if 32 ≤ code.toNat ∧ code.toNat ≤ 63 then
    match s.subOn n l with
    | some u =>
      ok (s.eventToken (.channel (n.setWidth 3)) u.part (s.eventStmt u.part)
            ⟨Tag.user2, (l.setWidth 32 <<< 16) ||| code.setWidth 32⟩)
    | none => ok s
  else s.rejectTn n l tn

/-- Every byte of an item's transaction is held (11 R466, R470, R477): it is accepted, or waits for the
partner's copy first. -/
def State.acceptRx (s : State) (n : BitVec 4) (r : Rx) : State :=
  match r.entry with
  | none => s
  | some i =>
    let s := s.modEntry i fun e => { e with count := BitVec.ofNat 32 r.bytes.length }
    if (s.entry i).isMirrored then
      let s := s.modEntry i fun e => { e with state := ldMirroring }
      s.mirrorCopy (s.entry i)
    else
      let s := s.modEntry i fun e => { e with state := ldAccepted }
      (s.performTn n r.tn).sendE2e n r.lch r.tn ocPerformed

/-- The first frame of a transaction that a stream takes: its entry opens. It is deferred while its flow is
full (11 R488), and not performed where no stream serves the link channel or the ledger has no room
(assumption 37). -/
def State.beginRx (s : State) (n : BitVec 4) (f : CFrame) : State :=
  match s.streamAt n f.lch with
  | none => s.rejectTn n f.lch f.tn
  | some (q, b, u) =>
    let ws := u.prog.words
    if ((streamFlow ws).map fun fl => (s.flow fl).full).getD false then s.sendE2e n f.lch f.tn 0
    else if !s.ledgerRoom u.part then s.rejectTn n f.lch f.tn
    else
      let isMirrored := orderMirror ws && s.hier.partner.isSome
      let (i, s) := s.openEntry
        { entry0 with
          tn := f.tn, state := ldOpen, kind := 1 ||| (if isMirrored then 2 else 0), path := n.setWidth 16
          sid := u.sid, part := u.part, sub := q.setWidth 16 <<< 8 ||| b.setWidth 16
          flow := (streamFlow ws).getD 0, isMirrored := isMirrored, partner := (s.hier.partner).getD 0 }
      s.modPort n fun p =>
        { p with rx := p.rx ++ [{ tn := f.tn, lch := f.lch, home := q, sub := b, part := u.part, sid := u.sid
                                  words := ws, entry := some i, code := f.code, cmp := f.cmp, enc := f.enc
                                  bytes := [], last := false }] }

/-- The bytes of a frame join their transaction (11 R466): the last one completes it. A transaction that
holds more than an item's buffer is not performed, where it is neither compressed nor encrypted
(assumption 37). -/
def State.feedRx (s : State) (n : BitVec 4) (f : CFrame) : State :=
  match (s.port n).rx.find? fun r => r.tn == f.tn && !r.last with
  | none => s
  | some r =>
    if f.offset.toNat ≠ r.bytes.length then s.badFrame n
    else
      let r := { r with bytes := r.bytes ++ f.payload, last := f.last }
      let plain := !r.cmp && !r.enc
      if plain && decide ((r.words.getD 1 0).toNat < r.bytes.length) then
        let s := s.dropRx n f.tn
        let s := match r.entry with
          | some i => s.freeEntry i
          | none => s
        s.rejectTn n f.lch f.tn
      else
        let s := s.modPort n fun p => { p with rx := p.rx.map fun x => if x.tn == f.tn then r else x }
        if f.last then (s.acceptRx n r).settleStream n f.lch else s

/-- The transaction of the module that a TN names. -/
def State.outOf (s : State) (tn : BitVec 64) : Option OutTx := s.outTx.find? fun x => x.tn == tn

/-- The effect of a DATA frame (11 R457, R458, R466, R481). -/
def State.onData (s : State) (n : BitVec 4) (f : CFrame) : State :=
  match s.outOf f.tn with
  | some x =>
    if f.offset.toNat = x.got.length then
      s.modTx f.tn fun y => { y with got := y.got ++ f.payload, cmp := f.cmp, enc := f.enc }
    else s.badFrame n
  | none =>
    if f.first then
      let s := s.startIn n f.lch
      match s.answerKnown n f with
      | some s => s.grantCredit n f.lch
      | none =>
        if (s.port n).rx.any fun r => r.tn == f.tn then s.chnBump n 0x2C
        else if f.last ∧ (f.code ≠ 0 ∨ f.payload = []) then
          (s.performControl n f.lch f.tn f.code).grantCredit n f.lch
        else ((s.beginRx n f).feedRx n f).grantCredit n f.lch
    else (s.feedRx n f).grantCredit n f.lch

/-- STATE of the status block (11 R458). -/
def State.senseState (s : State) (n : BitVec 4) (l : BitVec 16) : Nat :=
  let c := s.lch n l
  let others := (List.range 8).any fun q =>
    n.toNat < 8 && q != n.toNat && (s.reg (chnBase n.toNat + 0xC)).getLsbD q && (s.port (BitVec.ofNat 4 q)).link == linkUp
  if !s.ben.ready then 3
  else if c.draining then 1
  else if !(s.port n).standbyOk || !others then 2
  else 0

/-- The 32-byte status block (11 R458), most significant byte first. -/
def State.senseBlock (s : State) (n : BitVec 4) (l : BitVec 16) (tn : BitVec 64) : List Byte :=
  let c := s.lch n l
  let orig := tn.toNat / 2 ^ 52
  let opened := (s.ledger.filter fun e =>
    e.2.kind.getLsbD 0 && e.2.state != ldClosed && e.2.state != ldFree && e.2.tn.toNat / 2 ^ 52 == orig).length
  let d := s.dup ((s.port n).winKey tn)
  [1, BitVec.ofNat 8 (s.senseState n l)] ++ natBe 2 s.hier.modn.toNat ++ natBe 4 c.creditIn.toNat
    ++ natBe 4 opened ++ natBe 2 c.pausing.length ++ [0, 0] ++ natBe 8 d.highest.toNat ++ natBe 8 s.now.toNat

/-- The effect of a REQ (11 R458, R481): a SENSE is answered with the status block; a READ has no source in
the module and is not performed (assumption 34). -/
def State.onReq (s : State) (n : BitVec 4) (f : CFrame) : State :=
  let s := s.startIn n f.lch
  match s.answerKnown n f with
  | some s => s
  | none =>
    if f.code.toNat = codeSense then
      let g := { frame11 f.lch f.tn 0 (s.senseBlock n f.lch f.tn) with first := true, last := true, flow := f.flow }
      ((s.sendFrame n tyData g).performTn n f.tn).sendE2e n f.lch f.tn ocPerformed
    else s.rejectTn n f.lch f.tn

/-- The effect of an E2E_ACK (11 R470, R488): the transaction closes, or is deferred and its entry stays
OPEN. -/
def State.onE2e (s : State) (f : CFrame) : State :=
  match s.outOf f.tn with
  | none => s
  | some x =>
    if f.code = 0 then s.modTx f.tn fun y => { y with deferred := true, begun := false, got := [] }
    else if f.code.toNat ≤ 6 then
      let s := s.finishTx x f.code
      match x.path with
      | some q => s.startTxs q
      | none => s
    else s

/-- The effect of a QUERY (11 R472): a TN not performed is fenced. -/
def State.onQuery (s : State) (n : BitVec 4) (f : CFrame) : State :=
  let done := (s.dup ((s.port n).winKey f.tn)).knows f.tn == .performed
  let waiting := (s.port n).rx.find? fun r => r.tn == f.tn
  let s := if done then s
    else
      let s := match waiting.bind Rx.entry with
        | some i => s.freeEntry i
        | none => s
      (s.dropRx n f.tn).fenceTn n f.tn
  s.sendFrame n tyAnswer (frame11 f.lch f.tn (if done then ocPerformed else ocNotPerformed) [])

/-- The effect of an ANSWER (11 R472): the entry IN_DOUBT closes with it. -/
def State.onAnswer (s : State) (f : CFrame) : State :=
  if f.code ≠ ocPerformed ∧ f.code ≠ ocNotPerformed then s
  else
    match s.outOf f.tn, s.findEntry f.tn false with
    | some x, _ => s.finishTx x f.code
    | none, some (i, e) => if e.state = ldInDoubt then s.closeEntry i f.code else s
    | none, none => if s.copies.any fun e => e.tn == f.tn && e.state == ldInDoubt then s.closeCopy f.tn f.code else s

/-- The effect of an ABORT (11 R481, R466). -/
def State.onAbort (s : State) (n : BitVec 4) (f : CFrame) : State :=
  let r := (s.port n).rx.find? fun r => r.tn == f.tn && !r.last
  let s := match r.bind Rx.entry with
    | some i => s.freeEntry i
    | none => s
  let s := if r.isSome then s.dropRx n f.tn else s
  ((s.fenceTn n f.tn).settleStream n f.lch).grantCredit n f.lch

/-- The effect of a CREDIT (11 R487): a limit never falls. -/
def State.onCredit (s : State) (n : BitVec 4) (f : CFrame) : State :=
  let v := BitVec.ofNat 32 (beNat f.payload)
  let c := s.lch n f.lch
  let s := if (v - c.creditOut).toNat < 2 ^ 31 then s.modLch n f.lch fun c => { c with creditOut := v } else s
  s.startTxs n

/-- The effect of a FLOWPAUSE (11 R488): CODE 1 pauses, CODE 0 resumes and deferred transactions of the flow
are sent again. -/
def State.onPause (s : State) (n : BitVec 4) (f : CFrame) : State :=
  if f.code = 1 then
    s.modLch n f.lch fun c => { c with paused := f.flow :: c.paused.filter (· != f.flow) }
  else if f.code = 0 then
    let s := s.modLch n f.lch fun c => { c with paused := c.paused.filter (· != f.flow) }
    let s := { s with outTx := s.outTx.map fun (x : OutTx) =>
      if x.deferred && x.path == some n && x.lch == f.lch && x.flow == f.flow then { x with deferred := false } else x }
    s.startTxs n
  else s

/-- The effect of a frame by its type. RESOLVE reports how a transaction that the module started and that was
acknowledged ended at the far end: no state of the module holds it. -/
def State.onFrame (s : State) (n : BitVec 4) (typ : BitVec 4) (f : CFrame) : State :=
  match typ.toNat with
  | 0 => s.onData n f
  | 2 => s.onE2e f
  | 3 => s.onReq n f
  | 4 => s.onQuery n f
  | 5 => s.onAnswer f
  | 6 => s.onAbort n f
  | 7 => s.onCredit n f
  | 8 => s.onPause n f
  | _ => s

/-- A frame arrives: during a switch-over the receive buffer keeps it (11 R491). -/
def State.frameIn (s : State) (n : BitVec 4) (typ : BitVec 4) (f : CFrame) : State :=
  if (s.port n).switching then s.modPort n fun p => { p with held := p.held ++ [(typ, f)] }
  else s.receive n typ f fun s => s.onFrame n typ f

/-- DATA (11 R466, R481, R486). -/
def execData (port : BitVec 4) (f : CFrame) (s : State) : Outcome := .next (s.frameIn port tyData f)
/-- ACK (11 R481, R486). -/
def execAck (port : BitVec 4) (f : CFrame) (s : State) : Outcome := .next (s.frameIn port tyAck f)
/-- E2E_ACK (11 R470, R481, R488). -/
def execE2eAck (port : BitVec 4) (f : CFrame) (s : State) : Outcome := .next (s.frameIn port tyE2e f)
/-- REQ (11 R458, R481). -/
def execReq (port : BitVec 4) (f : CFrame) (s : State) : Outcome := .next (s.frameIn port tyReq f)
/-- QUERY (11 R472, R481). -/
def execQuery (port : BitVec 4) (f : CFrame) (s : State) : Outcome := .next (s.frameIn port tyQuery f)
/-- ANSWER (11 R472, R481). -/
def execAnswer (port : BitVec 4) (f : CFrame) (s : State) : Outcome := .next (s.frameIn port tyAnswer f)
/-- ABORT (11 R466, R481). -/
def execAbort (port : BitVec 4) (f : CFrame) (s : State) : Outcome := .next (s.frameIn port tyAbort f)
/-- CREDIT (11 R481, R487). -/
def execCredit (port : BitVec 4) (f : CFrame) (s : State) : Outcome := .next (s.frameIn port tyCredit f)
/-- FLOWPAUSE (11 R481, R488). -/
def execFlowpause (port : BitVec 4) (f : CFrame) (s : State) : Outcome := .next (s.frameIn port tyPause f)
/-- HELLO (11 R481 to R485). -/
def execHello (port : BitVec 4) (f : CFrame) (s : State) : Outcome := .next (s.frameIn port tyHello f)
/-- RESOLVE (11 R474, R481). -/
def execResolve (port : BitVec 4) (f : CFrame) (s : State) : Outcome := .next (s.frameIn port tyResolve f)

/-- A frame with a reserved TYPE is discarded and counted (11 R481, R498). -/
def execReservedTypeFrame (port : BitVec 4) (type : BitVec 4) (_f : CFrame) (s : State) : Outcome :=
  if type.toNat < 11 then idle s else .next (s.badFrame port)

/-! ### Timers (11 R485 to R488) -/

/-- LINK_ACK_TIMER (11 R486): at least every 2 µs. -/
def execLinkAckTimer (port : BitVec 4) (s : State) : Outcome := .next (s.sendAckFrame port)

/-- Send every frame that is not acknowledged again, from the first, with RETX set (11 R486). -/
def State.retransmit (s : State) (n : BitVec 4) : State :=
  let p := s.port n
  s.each p.unacked fun s x =>
    let f := { x.frame with retx := true, ackseq := p.ackseq }
    ((s.emit (.frame n x.typ f)).chnBump n 0x20).chnBump n 0x28

/-- RETRIES of a port (11 R496); a fabric port takes the reset value. -/
def State.retries (s : State) (n : BitVec 4) : Nat :=
  if n.toNat < 8 then max 1 (s.regField (chnBase n.toNat) 27 24) else 8

/-- RETRANSMISSION_TIMEOUT (11 R485, R486). -/
def execRetransmissionTimeout (port : BitVec 4) (s : State) : Outcome :=
  let p := s.port port
  if p.link ≠ linkUp ∨ p.unacked = [] ∨ p.switching then idle s
  else if s.retries port ≤ p.timeouts + 1 then .next (s.endSession port)
  else .next ((s.modPort port fun p => { p with timeouts := p.timeouts + 1 }).retransmit port)

/-- The port may run a link: the ledger is recovered (01 R28; DESIGN CHOICE, assumption 126: a link does not begin
before) and Benus enabled it (11 R496), or its neighbour's identity is admitted (15 R631). -/
def State.portEnabled (s : State) (n : BitVec 4) : Bool :=
  if n.toNat < 8 then s.ben.recovered && (s.reg (chnBase n.toNat)).getLsbD 16
  else (Map.get fabPort0 s.hier.ports (n.toNat - 8)).state == 2

/-- The link begins to send HELLO (11 R485). -/
def State.beginHello (s : State) (n : BitVec 4) : State :=
  let s := s.modPort n fun p => { p with link := linkHello, proposal := p.session }
  s.putFrame n tyHello (s.helloFrame n)

/-- PCS_LOCK (11 R485): the link begins to send HELLO. -/
def execPcsLock (port : BitVec 4) (s : State) : Outcome :=
  let s := s.modPort port fun p => { p with pcs := true }
  if (s.port port).link = linkDown ∧ s.portEnabled port then
    .next (s.beginHello port)
  else .next s

/-- PCS_LOCK_LOSS (11 R485). -/
def execPcsLockLoss (port : BitVec 4) (s : State) : Outcome :=
  let s := s.modPort port fun p => { p with pcs := false }
  let s := if port.toNat < 8 then s.assertSrc (portSource (port.setWidth 3) 4) else s
  if (s.port port).link = linkUp then .next (s.endSession port)
  else .next (s.modPort port fun p => { p with link := linkDown })

/-- HELLO_RESEND (11 R485): every 100 µs in HELLO state. A link that is DOWN with its lock still held begins
to send HELLO again. -/
def execHelloResend (port : BitVec 4) (s : State) : Outcome :=
  let p := s.port port
  if p.link = linkHello then .next (s.putFrame port tyHello (s.helloFrame port))
  else if p.link = linkDown ∧ p.pcs ∧ s.portEnabled port then
    .next (s.beginHello port)
  else idle s

/-- HELLO_TIMEOUT (11 R485): the path is reported down. -/
def execHelloTimeout (port : BitVec 4) (s : State) : Outcome :=
  if (s.port port).link = linkHello then .next (s.emit (.notify 0x48 (port.setWidth 32))) else idle s

/-- CREDIT_REPEAT (11 R487): the current limit, raised first where it may rise. -/
def execCreditRepeat (port : BitVec 4) (lch : BitVec 16) (s : State) : Outcome :=
  if (s.port port).link = linkUp then .next ((s.grantCredit port lch).sendCredit port lch) else idle s

/-- FLOWPAUSE_REPEAT (11 R488): CODE 1 while the flow stays full, CODE 0 for 1 ms after it resumed. -/
def execFlowpauseRepeat (port : BitVec 4) (flow : BitVec 12) (s : State) : Outcome :=
  let p := s.port port
  if p.link ≠ linkUp ∨ !p.caps.getLsbD 2 then idle s
  else
    .next (s.each p.lchs fun s (l, c) =>
      let f (code : Byte) : CFrame := { frame11 (BitVec.ofNat 16 l) 0 code [] with flow := flow }
      if c.pausing.contains flow then s.sendFrame port tyPause (f 1)
      else if c.resumed.any fun r => r.1 == flow && decide (s.now.toNat < r.2.toNat) then
        s.sendFrame port tyPause (f 0)
      else s)

/-- PAUSE_FRAME (11 R488, R494): the priorities named are held back, or released; PAUSE names all. -/
def execPauseFrame (port : BitVec 3) (priorities : BitVec 8) (on : Bool) (s : State) : Outcome :=
  let n := chPort port
  let s := s.modPort n fun p =>
    { p with pausedPrios := if on then p.pausedPrios ||| priorities else p.pausedPrios &&& ~~~priorities }
  .next (s.pump n ((s.port n).txq.length + 1))

/-! ### Mirroring (11 R477) -/

/-- The entry that 16 words hold (11 R468); its partition is the one of its SID here. -/
def State.entryOf (s : State) (ws : List Word) : Ledger :=
  let bs := (ws.map wordBytes).flatten
  let at_ (i n : Nat) : Nat := bytesAt bs i n
  { entry0 with
    tn := BitVec.ofNat 64 (at_ 0 8), state := BitVec.ofNat 4 (at_ 8 1), outcome := BitVec.ofNat 8 (at_ 9 1)
    kind := BitVec.ofNat 8 (at_ 10 1), path := BitVec.ofNat 16 (at_ 11 1), sid := BitVec.ofNat 16 (at_ 12 2)
    part := (s.partOfSid (BitVec.ofNat 16 (at_ 12 2))).getD 0, sub := BitVec.ofNat 16 (at_ 14 2)
    count := BitVec.ofNat 32 (at_ 16 4), flow := BitVec.ofNat 12 (at_ 20 2), partner := BitVec.ofNat 12 (at_ 22 2)
    itemTn := BitVec.ofNat 64 (at_ 24 8), opened := BitVec.ofNat 64 (at_ 32 8), body := ws.drop 10, isMirrored := true }

/-- The module takes a copy as the mirror partner and acknowledges it: one eighth of the ledger is set aside for them,
and an entry that is FREE at its owner leaves. A copy of an entry of its own, which the partner resolved while the
module was dead, gives that entry its outcome (11 R477, R478; the row and its operand: DEDUCED, assumption 65). -/
def State.takeCopy (s : State) (ws : List Word) : State :=
  let e := s.entryOf ws
  let same (x : Ledger) : Bool := x.tn == e.tn && x.kind == e.kind
  match s.ledger.find? fun x => same x.2 && x.2.isMirrored && x.2.partner == e.partner && e.partner != s.hier.modn with
  | some (i, x) => if e.state = ldClosed ∧ x.state ≠ ldClosed then s.closeEntry i e.outcome else s
  | none =>
    let rest := s.copies.filter fun x => !same x
    let kept := if e.state = ldFree then rest else rest ++ [e]
    if 2 ^ 21 < kept.length then s else ({ s with copies := kept }).emit (.mirrorAck e.tn)

/-- MIRROR_COPY_ACK (11 R477): the partner holds the copy. An inbound transaction is accepted, an outbound
one sends its first frame, and an LCOMMIT record is complete. With a copy, this module is the partner. -/
def execMirrorCopyAck (m : MirrorMsg) (s : State) : Outcome :=
  let tn := m.tn
  if let some ws := m.copy then (if s.hier.partner.isSome ∧ ws.length = 16 then .next (s.takeCopy ws) else idle s)
  else match s.ledger.find? fun e => e.2.tn == tn && e.2.state == ldMirroring with
  | none => idle s
  | some (i, e) =>
    if e.kind.getLsbD 3 then
      let s := s.setEntry i { e with state := ldClosed, outcome := ocPerformed }
      .next ((s.mirrorCopy (s.entry i)).lcommitToken e.part e.desc (e.token.setWidth 32))
    else if e.kind.getLsbD 0 then
      let n : BitVec 4 := e.path.setWidth 4
      let s := s.setEntry i { e with state := ldAccepted }
      let s := s.mirrorCopy (s.entry i)
      match (s.port n).rx.find? fun r => r.tn == tn with
      | some r => .next (((s.performTn n tn).sendE2e n r.lch tn ocPerformed).settleStream n r.lch)
      | none => .next (s.performTn n tn)
    else
      let s := s.setEntry i { e with state := ldOpen }
      let s := s.mirrorCopy (s.entry i)
      match (s.outOf tn).bind OutTx.path with
      | some q => .next (s.startTxs q)
      | none => .next s

/-! ### Channel processor pairs (11 R490 to R493) -/

/-- The side that is active, as a number. -/
def Port.active (p : Port) : Nat := if p.side then 1 else 0

/-- The active side gives way to the standby side (11 R491). -/
def State.beginSwitch (s : State) (n : BitVec 4) : State :=
  (s.modPort n fun p => { p with switching := true, standbyOk := false }).chnBump n 0x34

/-- CP_MISMATCH (11 R491, R492): a mismatch of the active side starts a switch-over; the side that takes
over, or the only side left, takes the port DOWN. The standby side executes nothing and cannot mismatch. -/
def execCpMismatch (port : BitVec 3) (side : BitVec 1) (s : State) : Outcome :=
  let n := chPort port
  let p := s.port n
  let takesOver := p.switching && side.toNat != p.active
  if !takesOver && (side.toNat != p.active || p.switching) then idle s
  else
    let s := (s.modPort n fun p => { p with failedSides := p.failedSides ||| (1 <<< side.toNat) }).assertSrc
      (portSource port side.toNat)
    if !takesOver && p.standbyOk then .next (s.beginSwitch n)
    else .next ((s.endSession n).modPort n fun p => { p with standbyOk := false, swapping := false })

/-- SWITCH_OVER_DONE (11 R491, R493): the standby side is active in the same session, sends the frames of the
checkpoint that are not acknowledged, and takes the frames that arrived meanwhile. After a forced switch-over
the other side tests itself. -/
def execSwitchOverDone (port : BitVec 3) (s : State) : Outcome :=
  let n := chPort port
  let p := s.port n
  if !p.switching then idle s
  else
    let s := s.modPort n fun p =>
      { p with switching := false, side := !p.side, held := [], testing := p.swapping, swapping := false }
    let s := if (s.port n).link = linkUp then s.retransmit n else s
    let s := s.each p.held fun s (t, f) => s.frameIn n t f
    .next (s.pump n ((s.port n).txq.length + 1))

/-- CP_SELF_TEST_DONE (11 R493): the side that was active before becomes the standby side, or is marked
failed. FREE VALUE: the time the test took, 2 to 5 ms, which answers `cp.swap`. -/
def execCpSelfTestDone (port : BitVec 3) (pass : Bool) (s : State) : Outcome :=
  let n := chPort port
  let p := s.port n
  if !p.testing then idle s
  else
    let other := 1 - p.active
    let s := s.modPort n fun p =>
      { p with testing := false, standbyOk := pass, swapMbx := none
               failedSides := if pass then p.failedSides else p.failedSides ||| (1 <<< other) }
    let s := if pass then s else s.assertSrc (portSource port 2)
    match p.swapMbx with
    | none => .next s
    | some m =>
      let (v, s) := s.draw
      .next (s.respond m stOk 0 (natLe 4 (2000 + v.toNat % 3001)))

end Sys2Proof.Machine
end

