-- ==== Sys2Proof/Machine/Curves.lean ====
section
/-! DEFINITION. The public-key class (12 R509): ECDSA over P-256 and P-384. PRESUMED: the standard that
R509 names stands outside the spec; this is its text (assumption 30). -/

namespace Sys2Proof.Machine.Ecdsa

/-- A curve y² = x³ − 3x + b over the field of p elements, its base point and the order of it, and the
bytes of a coordinate. -/
structure Curve where
  p : Nat
  b : Nat
  gx : Nat
  gy : Nat
  n : Nat
  bytes : Nat

/-- P-256. -/
def p256 : Curve :=
  { p := 2 ^ 256 - 2 ^ 224 + 2 ^ 192 + 2 ^ 96 - 1
    b := 0x5AC635D8AA3A93E7B3EBBD55769886BC651D06B0CC53B0F63BCE3C3E27D2604B
    gx := 0x6B17D1F2E12C4247F8BCE6E563A440F277037D812DEB33A0F4A13945D898C296
    gy := 0x4FE342E2FE1A7F9B8EE7EB4A7C0F9E162BCE33576B315ECECBB6406837BF51F5
    n := 0xFFFFFFFF00000000FFFFFFFFFFFFFFFFBCE6FAADA7179E84F3B9CAC2FC632551
    bytes := 32 }

/-- P-384. -/
def p384 : Curve :=
  { p := 2 ^ 384 - 2 ^ 128 - 2 ^ 96 + 2 ^ 32 - 1
    b := 0xB3312FA7E23EE7E4988E056BE3F82D19181D9C6EFE8141120314088F5013875AC656398D8A2ED19D2A85C8EDD3EC2AEF
    gx := 0xAA87CA22BE8B05378EB1C71EF320AD746E1D3B628BA79B9859F741E082542A385502F25DBF55296C3A545E3872760AB7
    gy := 0x3617DE4A96262C6F5D9E98BF9292DC29F8F41DBD289A147CE9DA3113B5F0B8C00A60B1CE1D7E819D7A431D7C90EA0E5F
    n := 0xFFFFFFFFFFFFFFFFFFFFFFFFFFFFFFFFFFFFFFFFFFFFFFFFC7634D81F4372DDF581A0DB248B0A77AECEC196ACCC52973
    bytes := 48 }

/-- a^e modulo m over the low `k` bits of e. -/
def powMod (a e m : Nat) : Nat → Nat
  | 0 => 1 % m
  | k + 1 =>
    let h := powMod (a * a % m) (e / 2) m k
    if e % 2 = 1 then a * h % m else h

/-- The inverse modulo a prime of at most 384 bits. -/
def invMod (a m : Nat) : Nat := powMod (a % m) (m - 2) m 384

/-- A point; none is the point at infinity. -/
abbrev Point := Option (Nat × Nat)

/-- The sum of two points. -/
def addPt (c : Curve) (x y : Point) : Point :=
  match x, y with
  | none, y => y
  | x, none => x
  | some (x1, y1), some (x2, y2) =>
    if x1 = x2 ∧ (y1 + y2) % c.p = 0 then none
    else
      let l :=
        if x1 = x2 then (3 * x1 * x1 + (c.p - 3)) * invMod (2 * y1) c.p % c.p
        else (y2 + c.p - y1) * invMod (x2 + c.p - x1) c.p % c.p
      let x3 := (l * l + 2 * c.p - x1 - x2) % c.p
      some (x3, (l * (x1 + c.p - x3) + c.p - y1) % c.p)

/-- k times a point over the low `w` bits of k. -/
def mulPt (c : Curve) (k : Nat) (q : Point) : Nat → Point
  | 0 => none
  | w + 1 =>
    let h := mulPt c (k / 2) (addPt c q q) w
    if k % 2 = 1 then addPt c q h else h

def timesG (c : Curve) (k : Nat) : Point := mulPt c k (some (c.gx, c.gy)) 384

/-- The point is on the curve, with coordinates below p. -/
def onCurve (c : Curve) (x y : Nat) : Bool :=
  decide (x < c.p) && decide (y < c.p) && decide (y * y % c.p = (x * x * x + (c.p - 3) * x + c.b) % c.p)

/-- The signature of a digest with the secret `k`: r and s, none when either is 0. -/
def sign (c : Curve) (d k : Nat) (digest : List Byte) : Option (List Byte) :=
  match timesG c k with
  | none => none
  | some (x, _) =>
    let r := x % c.n
    let s := invMod k c.n * ((beNat digest + r * d) % c.n) % c.n
    if r = 0 ∨ s = 0 then none else some (natBe c.bytes r ++ natBe c.bytes s)

/-- The signature (r, s) of a digest verifies under a public point. -/
def verify (c : Curve) (x y : Nat) (digest sig : List Byte) : Bool :=
  let r := beNat (sig.take c.bytes)
  let s := beNat (sig.drop c.bytes)
  if r = 0 ∨ r ≥ c.n ∨ s = 0 ∨ s ≥ c.n ∨ !onCurve c x y then false
  else
    let w := invMod s c.n
    match addPt c (timesG c (beNat digest * w % c.n)) (mulPt c (r * w % c.n) (some (x, y)) 384) with
    | none => false
    | some (px, _) => px % c.n == r

/-- The public point of a secret key: x then y. -/
def publicKey (c : Curve) (d : Nat) : List Byte :=
  match timesG c d with
  | none => []
  | some (x, y) => natBe c.bytes x ++ natBe c.bytes y

end Sys2Proof.Machine.Ecdsa
end

