-- ==== Sys2Proof/Machine/Engines.lean ====
section
/-! DEFINITION. The engines: ESUBMIT and its descriptors (12 R515 to R519), queue slices (12 R522 to R526),
what each operation computes (12 R499 to R518), the key store (12 R511 to R514) and the entropy source with
its DRBG (12 R510). -/

namespace Sys2Proof.Machine

/-! ### Slices -/

abbrev slUnbound : BitVec 2 := 0
abbrev slActive : BitVec 2 := 1
abbrev slQuiescing : BitVec 2 := 2
abbrev slQuiesced : BitVec 2 := 3

def State.slice (s : State) (k : BitVec 3) (n : BitVec 6) : Slice := Map.get slice0 (s.eclass k).slices n.toNat
def State.setSlice (s : State) (k : BitVec 3) (n : BitVec 6) (v : Slice) : State :=
  s.modEclass k fun c => { c with slices := Map.set slice0 c.slices n.toNat v }
def State.modSlice (s : State) (k : BitVec 3) (n : BitVec 6) (f : Slice → Slice) : State :=
  s.setSlice k n (f (s.slice k n))

/-! ### Descriptors (12 R515, R516, R518, R519) -/

abbrev opCompress : Nat := 0x01
abbrev opDecompress : Nat := 0x02
abbrev opGcmEnc : Nat := 0x10
abbrev opGcmDec : Nat := 0x11
abbrev opXtsEnc : Nat := 0x12
abbrev opXtsDec : Nat := 0x13
abbrev opCtr : Nat := 0x14
abbrev opSha256 : Nat := 0x20
abbrev opSha384 : Nat := 0x21
abbrev opSha3 : Nat := 0x22
abbrev opHmac256 : Nat := 0x23
abbrev opHmac384 : Nat := 0x24
abbrev opSign256 : Nat := 0x30
abbrev opSign384 : Nat := 0x31
abbrev opVerify256 : Nat := 0x32
abbrev opVerify384 : Nat := 0x33
abbrev opRandom : Nat := 0x40
abbrev opKeygen : Nat := 0x41
abbrev opKeyimport : Nat := 0x42
abbrev opKeyexport : Nat := 0x43
abbrev opKeydestroy : Nat := 0x44
abbrev opPubkey : Nat := 0x45

/-- The operation of a descriptor, and its words. -/
def descOp (ws : List Word) : Nat := field (ws.headD 0) 31 24
def descCmp (ws : List Word) : Bool := bit (ws.headD 0) 18
def descSrc (ws : List Word) : Word := ws.getD 1 0
def descSrcLen (ws : List Word) : Nat := (ws.getD 2 0).toNat
def descDst (ws : List Word) : Word := ws.getD 3 0
def descCap (ws : List Word) : Nat := (ws.getD 4 0).toNat
def descKey (ws : List Word) : Word := ws.getD 5 0
def descAux (ws : List Word) : Word := ws.getD 6 0
def descAuxLen (ws : List Word) : Nat := (ws.getD 7 0).toNat
def descAad (ws : List Word) : Word := ws.getD 8 0
def descAadLen (ws : List Word) : Nat := (ws.getD 9 0).toNat
def descParam (ws : List Word) : Word := ws.getD 10 0
def descBlockLog (ws : List Word) : Nat := field (descParam ws) 12 8

/-- The class of an operation (12 R516). -/
def opClass (op : Nat) : Option Nat :=
  if op = 1 ∨ op = 2 then some 0
  else if 0x10 ≤ op ∧ op ≤ 0x14 then some 1
  else if 0x20 ≤ op ∧ op ≤ 0x24 then some 2
  else if 0x30 ≤ op ∧ op ≤ 0x33 then some 3
  else if 0x40 ≤ op ∧ op ≤ 0x45 then some 4
  else none

/-- The operations that use SRC, DST, KEY, AUX and AAD (12 R516). -/
def usesSrc (op : Nat) : Bool := op != opRandom && op != opKeygen && op != opKeyexport && op != opKeydestroy && op != opPubkey
def usesDst (op : Nat) : Bool :=
  op != opVerify256 && op != opVerify384 && op != opKeygen && op != opKeyimport && op != opKeydestroy
def usesKey (op : Nat) : Bool :=
  opClass op == some 1 || op == opHmac256 || op == opHmac384 || op == opSign256 || op == opSign384
    || op == opKeyexport || op == opKeydestroy || op == opPubkey
def usesAux (op : Nat) : Bool := opClass op == some 1 || op == opVerify256 || op == opVerify384
def usesAad (op : Nat) : Bool := op == opGcmEnc || op == opGcmDec

/-- The lengths of SRC that an operation takes (12 R516). -/
def srcLenOk (op n : Nat) : Bool :=
  if op = opXtsEnc ∨ op = opXtsDec then decide (16 ≤ n) && decide (n ≤ 2 ^ 24)
  else if op = opGcmDec then decide (16 ≤ n) && decide (n ≤ 2 ^ 24)
  else if opClass op = some 2 then true
  else if op = opSign256 then n == 32
  else if op = opSign384 then n == 48
  else if op = opVerify256 then n == 96
  else if op = opVerify384 then n == 144
  else if op = opKeyimport then n == 100
  else decide (n ≤ 2 ^ 24)

/-- The length of AUX that an operation takes (12 R516). -/
def auxLenOk (op n : Nat) : Bool :=
  if op = opGcmEnc ∨ op = opGcmDec then n == 12
  else if op = opXtsEnc ∨ op = opXtsDec ∨ op = opCtr then n == 16
  else if op = opVerify256 then n == 64
  else if op = opVerify384 then n == 96
  else true

/-- PARAM, and CMP with it (12 R516, R518). -/
def State.paramOk (s : State) (ws : List Word) (sid : BitVec 16) : Bool :=
  let op := descOp ws
  let log := descBlockLog ws
  let blocks := decide (12 ≤ log) && decide (log ≤ 16)
  if op = opCompress then blocks
  else if op = opKeygen then decide (1 ≤ field (descParam ws) 3 0) && decide (field (descParam ws) 3 0 ≤ 8)
  else if descCmp ws then
    let sl := s.slice 0 ((descParam ws).setWidth 6)
    (op == opGcmEnc || op == opGcmDec || op == opCtr) && blocks && sl.state != slUnbound && sl.sid == sid
  else true

/-- A malformed descriptor (12 R516, R518, R519), POISON apart. -/
def State.descMalformed (s : State) (k : BitVec 3) (sid : BitVec 16) (tws : List TWord) : Bool :=
  let ws := tws.map TWord.data
  let op := descOp ws
  let tag (i : Nat) : Tag := (tws.getD i TWord.zero).tag
  let pointer (i : Nat) (used : Bool) : Bool := tag i == Tag.ptr || (!used && tag i == Tag.int && ws.getD i 0 == 0)
  let ints := [0, 2, 4, 5, 7, 9, 10, 11, 12, 13, 14, 15].all fun i => tag i == Tag.int
  opClass op != some k.toNat || !ints
    || !pointer 1 (usesSrc op) || !pointer 3 (usesDst op) || !pointer 6 (usesAux op)
    || !pointer 8 (usesAad op && descAadLen ws != 0)
    || field (ws.headD 0) 23 19 != 0 || ws.getD 11 0 != 0 || ws.getD 15 0 != 0
    || (usesSrc op && !srcLenOk op (descSrcLen ws)) || (usesAux op && !auxLenOk op (descAuxLen ws))
    || decide (65536 < descAadLen ws)
    || (op == opRandom && (descCap ws == 0 || decide (65536 < descCap ws)))
    || (usesKey op && descKey ws == 0) || !s.paramOk ws sid
    || (descCmp ws && k != 1)

/-- Read the bytes of an operand in the slice's space (12 R517, R520): the status and DETAIL it ends with
where that fails; `buf` numbers the buffer. -/
def State.operand (s : State) (sid : BitVec 16) (va : Word) (n buf : Nat) : Except (Byte × Word) (List Byte) :=
  match s.spaceReads sid va (wordsOf n) with
  | .error c => .error (5, BitVec.ofNat 32 (c.toNat + buf * 256))
  | .ok ws =>
    if ws.any fun w => w.tag == Tag.poison then .error (4, 0)
    else .ok (((ws.map fun w => wordBytes w.data).flatten).take n)

/-- A CTR command whose counter would wrap is malformed (12 R516). -/
def State.ctrWraps (s : State) (sid : BitVec 16) (ws : List Word) : Bool :=
  descOp ws == opCtr &&
    match s.operand sid (descAux ws) 16 2 with
    | .ok b => decide (2 ^ 32 < beNat (b.drop 12) + (descSrcLen ws + 15) / 16)
    | .error _ => false

/-- ESUBMIT (03 R164, R151; 12 R519, R522, R525, R526). The order of the checks is the model's (DESIGN
CHOICE, assumption 35). -/
def execEsubmit (i : Iss) (x : LongOp) (s : State) : Outcome :=
  s.issue i x.len (x.legal .lr false false) false x.regs (cf := true) fun s t =>
    let args : Except Byte (Word × Word) := do
      let a ← ptrOperand (t.g x.a)
      let b ← intOperand (t.g x.b)
      if 5 ≤ field b 10 8 ∨ field b 31 11 ≠ 0 ∨ field b 7 6 ≠ 0 then throw 0x0F
      return (a, b)
    match args with
    | .error r => .event (tagEv r) s
    | .ok (a, b) =>
      match s.cfBefore i true with
      | .error s => .waits s
      | .ok s =>
        let k : BitVec 3 := (b >>> 8).setWidth 3
        let n : BitVec 6 := b.setWidth 6
        let sl := s.slice k n
        let status (s : State) (n : Nat) : Act := s.cfDone i x.len [(x.d, TWord.int (BitVec.ofNat 32 n))]
        match s.readDesc t.sid a 16 with
        | (none, s) => status s 4
        | (some tws, s) =>
          let ws := tws.map TWord.data
          if tws.any fun w => w.tag == Tag.poison then .event (tagEv 0x05) s
          else if sl.state = slUnbound ∨ sl.sid ≠ t.sid then status s 2
          else if sl.state ≠ slActive then status s 3
          else if s.descMalformed k t.sid tws || s.ctrWraps t.sid ws then status s 4
          else if sl.depth ≤ sl.queue.length then status s 1
          else
            let (id, s) := s.fresh
            let c : ECmd :=
              { id := id, slice := n, desc := a, words := ws, sid := t.sid, part := t.part, engine := none, status := none
                detail := 0, outLen := 0 }
            status (s.modSlice k n fun y => { y with queue := y.queue ++ [c] }) 0

/-! ### Scheduling and completion (12 R520, R523, R527, R532) -/

/-- The command that runs on an engine. -/
def State.running (s : State) (k : BitVec 3) (e : BitVec 4) : Option ECmd :=
  (s.eclass k).slices.findSome? fun (_, sl) => sl.queue.find? fun c => c.engine == some e

/-- Change a command of a class. -/
def State.modCmd (s : State) (k : BitVec 3) (c : ECmd) (f : ECmd → ECmd) : State :=
  s.modSlice k c.slice fun sl => { sl with queue := sl.queue.map fun y => if y.id == c.id then f y else y }

/-- The first command of a slice that has not started (12 R523). -/
def Slice.next (sl : Slice) : Option ECmd := sl.queue.find? fun c => c.engine.isNone && c.status.isNone

/-- The slice to serve: from the turn on, the first with a command to start and credit left; none with
credit starts a new round (12 R523, R524). -/
def State.pickSlice (s : State) (k : BitVec 3) : Option (BitVec 6 × State) :=
  let order := (List.range 64).map fun i => BitVec.ofNat 6 ((s.eclass k).turn + i)
  let ready := order.filter fun n => (s.slice k n).next.isSome
  let serve (s : State) (n : BitVec 6) : Option (BitVec 6 × State) :=
    let left := (s.slice k n).credit - 1
    some (n, (s.modSlice k n fun sl => { sl with credit := left }).modEclass k fun c =>
      { c with turn := if left = 0 then (n.toNat + 1) % 64 else n.toNat })
  match ready.find? fun n => (s.slice k n).credit != 0 with
  | some n => serve s n
  | none =>
    match ready with
    | [] => none
    | n :: _ =>
      serve (s.modEclass k fun c =>
        { c with slices := c.slices.map fun e => (e.1, { e.2 with credit := e.2.share.toNat }) }) n

/-- ENGINE_DISPATCH (12 R523, R527): an idle engine takes the next command; when no engine of the class is
left, the command ends with ENGINE_LOST. -/
def execEngineDispatch (cls : BitVec 3) (engine : BitVec 4) (s : State) : Outcome :=
  if engineCount cls ≤ engine.toNat ∨ (s.running cls engine).isSome then idle s
  else
    let lost := !s.engineLeft cls
    if s.engineFailed cls engine.toNat ∧ !lost then idle s
    else
      match s.pickSlice cls with
      | none => idle s
      | some (n, s) =>
        match (s.slice cls n).next with
        | none => idle s
        | some c =>
          .next (s.modCmd cls c fun y => { y with engine := some engine, status := if lost then some 11 else none })

/-- The fault source of an engine (13 R555). -/
def engineUnit (k : BitVec 3) (e : Nat) : Nat :=
  match k.toNat with
  | 0 => engineSource e
  | 1 => aesSource e
  | 2 => engineSource (16 + e)
  | 3 => engineSource (20 + e)
  | _ => engineSource 23

/-- A slice that has drained is QUIESCED, and its quiesce is answered (12 R525, R526). -/
def State.settleSlice (s : State) (k : BitVec 3) (n : BitVec 6) : State :=
  let sl := s.slice k n
  if sl.state = slQuiescing ∧ sl.queue = [] then
    let s := s.setSlice k n { sl with state := slQuiesced, waitMbx := none }
    match sl.waitMbx with
    | some m => s.respond m stOk 0 []
    | none => s
  else s

/-- ENGINE_COMPLETE (12 R515, R520, R523, R532; 08 R714): the command at the head of its slice ends: words 12
to 14 are written and its completion token is sent. -/
def execEngineComplete (cls : BitVec 3) (engine : BitVec 4) (s : State) : Outcome :=
  match s.running cls engine with
  | none => idle s
  | some c =>
    let sl := s.slice cls c.slice
    match c.status with
    | none => idle s
    | some st =>
      if sl.queue.head?.map ECmd.id ≠ some c.id then idle s
      else
        let put (s : State) (k : Word) (v : Word) : State × Bool :=
          match s.spaceWrite c.sid (c.desc + k) (TWord.int v) with
          | .ok s => (s, true)
          | .error e => (s.writeFailed (engineUnit cls engine.toNat) c.sid (c.desc + k) e, false)
        let (s, ok1) := put s 12 (st.setWidth 32)
        let (s, ok2) := put s 13 (BitVec.ofNat 32 c.outLen)
        let (s, ok3) := put s 14 c.detail
        let failed := st != 0 || !(ok1 && ok2 && ok3)
        let w0 := c.words.headD 0
        let s := s.completionToken (.engine cls engine) c.part (w0.setWidth 16) ((w0 >>> 16).setWidth 2) ⟨Tag.ptr, c.desc⟩
        let s := s.modSlice cls c.slice fun y => { y with queue := y.queue.filter fun z => z.id != c.id }
        let at_ := engBase cls + 0x400 + 16 * c.slice.toNat
        let s := s.bump (at_ + 8)
        let s := if failed then s.bump (at_ + 0xC) else s
        let s := if cls = 0 then s else s.bump (engBase cls + 4)
        let s := if cls ≠ 0 ∧ failed then s.bump (engBase cls + 8) else s
        .next (s.settleSlice cls c.slice)

/-! ### Results (12 R517, R521) -/

/-- What an operation comes to: a status with DETAIL, or output bytes. -/
inductive Result where
  | fails (status : Byte) (detail : Word)
  | output (bytes : List Byte) (detail : Word)
  | words (ws : List TWord) (len : Nat) (status : Byte) (detail : Word)
  deriving DecidableEq, Repr

/-- The words of output bytes: a last word that is not filled keeps its other bytes. -/
def State.outWords (s : State) (sid : BitVec 16) (va : Word) : Nat → List Byte → List TWord
  | 0, _ => []
  | n + 1, bs =>
    if bs = [] then []
    else
      let now := bs.take 4
      let old : Word := match s.spaceRead sid va with
        | .ok w => if w.tag = Tag.int then w.data else 0
        | .error _ => 0
      TWord.int (BitVec.ofNat 32 (leNat (now ++ (wordBytes old).drop now.length)))
        :: State.outWords s sid (va + 1) n (bs.drop 4)

/-- Write the output words; where one cannot be written, POISON goes over every word written before it
(12 R521). FREE VALUE: its data. -/
def State.putOut (s : State) (src : Nat) (sid : BitVec 16) (base : Word) :
    List TWord → Nat → Option (Byte) × State
  | [], _ => (none, s)
  | w :: ws, k =>
    match s.spaceWrite sid (base + BitVec.ofNat 32 k) w with
    | .ok s => State.putOut s src sid base ws (k + 1)
    | .error c =>
      let s := s.writeFailed src sid (base + BitVec.ofNat 32 k) c
      let (v, s) := s.draw
      (some c, s.each (List.range k) fun s j =>
        match s.spaceWrite sid (base + BitVec.ofNat 32 j) ⟨Tag.poison, v.setWidth 32⟩ with
        | .ok s => s
        | .error _ => s)

/-- Run an operation on an engine: the command that runs there, of that operation, comes to its result; the
output goes to DST where it fits (12 R517, R520, R521). -/
def State.runOp (s : State) (k : BitVec 3) (e : BitVec 4) (op : Nat) (f : State → ECmd → State × Result) : Outcome :=
  match s.running k e with
  | none => idle s
  | some c =>
    if c.status.isSome ∨ descOp c.words ≠ op then idle s
    else
      let ends (s : State) (st : Byte) (len : Nat) (detail : Word) : Outcome :=
        .next (s.modCmd k c fun y => { y with status := some st, outLen := len, detail := detail })
      let write (s : State) (ws : List TWord) (len : Nat) (st : Byte) (detail : Word) : Outcome :=
        match s.putOut (engineUnit k e.toNat) c.sid (descDst c.words) ws 0 with
        | (none, s) => ends s st len detail
        | (some code, s) => ends s 5 0 (BitVec.ofNat 32 (code.toNat + 256))
      match f s c with
      | (s, .fails st detail) => ends s st 0 detail
      | (s, .output bs detail) =>
        if descCap c.words < bs.length then ends s 6 0 0
        else write s (s.outWords c.sid (descDst c.words) (wordsOf bs.length) bs) bs.length 0 detail
      | (s, .words ws len st detail) => write s ws len st detail

/-- SRC, AUX and AAD of a command, as it uses them (12 R517, R520). -/
def State.inputs (s : State) (c : ECmd) : Except (Byte × Word) (List Byte × List Byte × List Byte) := do
  let op := descOp c.words
  let src ← if usesSrc op then s.operand c.sid (descSrc c.words) (descSrcLen c.words) 0 else .ok []
  let aux ← if usesAux op then s.operand c.sid (descAux c.words) (descAuxLen c.words) 2 else .ok []
  let aad ← if usesAad op then s.operand c.sid (descAad c.words) (descAadLen c.words) 3 else .ok []
  return (src, aux, aad)

/-- Benus maps what a command's inputs touch first (08 R342). -/
def State.touchInputs (s : State) (c : ECmd) : State :=
  let op := descOp c.words
  let touch (uses : Bool) (va : Word) (n : Nat) (s : State) : State := if uses then s.touches c.sid va (wordsOf n) else s
  touch (usesAad op) (descAad c.words) (descAadLen c.words) (touch (usesAux op) (descAux c.words) (descAuxLen c.words)
    (touch (usesSrc op) (descSrc c.words) (descSrcLen c.words) s))

/-- Run an operation over its inputs. -/
def State.runOver (s : State) (k : BitVec 3) (e : BitVec 4) (op : Nat)
    (f : State → ECmd → List Byte → List Byte → List Byte → State × Result) : Outcome :=
  s.runOp k e op fun s c =>
    let s := s.touchInputs c
    match s.inputs c with
    | .error (st, d) => (s, .fails st d)
    | .ok (src, aux, aad) => f s c src aux aad

/-- Use a key of a command: KEY_INVALID unless the handle is valid and of a type the operation names
(12 R511, R512). -/
def State.withKey (s : State) (c : ECmd) (types : List Nat) (f : Key → State × Result) : State × Result :=
  match s.keyOf c.sid (descKey c.words) types with
  | some k => f k
  | none => (s, .fails 7 0)

/-! ### Lenfaim (12 R501 to R508) -/

/-- Compress with the counts of 12 R532. -/
def State.compressed (s : State) (log : Nat) (index : Bool) (bs : List Byte) : List Byte × State :=
  let (out, n, stored) := Lenfaim.compress log index bs
  (out, (s.bumpBy (lfmBase + 4) n).bumpBy (lfmBase + 8) stored)

/-- COMPRESS (12 R501, R505, R516). -/
def execCompress (engine : BitVec 4) (s : State) : Outcome :=
  s.runOver 0 engine opCompress fun s c src _ _ =>
    let index := bit (descParam c.words) 16
    if descCap c.words < Lenfaim.bound (descBlockLog c.words) index src.length then (s, .fails 6 0)
    else
      let (out, s) := s.compressed (descBlockLog c.words) index src
      (s, .output out 0)

/-- The words of a decompressed stream (12 R508): every word that holds a byte of a failed block is the
POISON word. -/
def streamWords (poison : TWord) (len : Nat) (parts : List (Nat × Option (List Byte))) (whole : List TWord) : List TWord :=
  let spans : List (Nat × Nat) × Nat := parts.foldl (fun (acc, at_) p =>
    (if p.2.isNone then acc ++ [(at_, at_ + p.1)] else acc, at_ + p.1)) ([], 0)
  (whole.zipIdx).map fun (w, i) =>
    if spans.1.any fun r => decide (r.1 < 4 * i + 4) && decide (4 * i < min r.2 len) then poison else w

/-- The result of decompressing a stream: STREAM_BAD, DST_SMALL, OK, or PARTIAL with the first failed
block. FREE VALUE: the data of its POISON. -/
def State.decompressed (s : State) (c : ECmd) (bs : List Byte) : State × Result :=
  match Lenfaim.header bs with
  | none => (s, .fails 8 0)
  | some (log, len) =>
    if descCap c.words < len then (s, .fails 6 0)
    else
      let parts := Lenfaim.decompress log len bs
      let bad := (parts.filter fun p => p.2.isNone).length
      let s := (s.bumpBy (lfmBase + 4) parts.length).bumpBy (lfmBase + 0xC) bad
      let out := (parts.map fun p => p.2.getD (List.replicate p.1 0)).flatten
      let ws := s.outWords c.sid (descDst c.words) (wordsOf out.length) out
      match parts.findIdx? fun p => p.2.isNone with
      | none => (s, .words ws len 0 0)
      | some i =>
        let (v, s) := s.draw
        (s, .words (streamWords ⟨Tag.poison, v.setWidth 32⟩ len parts ws) len 1 (BitVec.ofNat 32 i))

/-- DECOMPRESS (12 R502, R508, R516). -/
def execDecompress (engine : BitVec 4) (s : State) : Outcome :=
  s.runOver 0 engine opDecompress fun s c src _ _ => s.decompressed c src

/-! ### AES (12 R509, R516, R518, R521) -/

/-- A command that compresses or decompresses needs a Lenfaim engine (12 R518, R527). -/
def State.withLenfaim (s : State) (c : ECmd) (go : State → State × Result) : State × Result :=
  if descCmp c.words && !s.engineLeft 0 then (s, .fails 11 0) else go s

/-- GCM encrypt (12 R509, R518): with CMP the plaintext is compressed first. -/
def execGcmEncrypt (engine : BitVec 4) (s : State) : Outcome :=
  s.runOver 1 engine opGcmEnc fun s c src iv aad =>
    s.withKey c [1, 2] fun k => s.withLenfaim c fun s =>
      let (plain, s) := if descCmp c.words then s.compressed (descBlockLog c.words) false src else (src, s)
      (s, .output (Aes.gcmEncrypt k.material iv aad plain) 0)

/-- GCM decrypt (12 R509, R518, R521): nothing is written where the tag does not verify; with CMP the
plaintext is decompressed then. -/
def execGcmDecrypt (engine : BitVec 4) (s : State) : Outcome :=
  s.runOver 1 engine opGcmDec fun s c src iv aad =>
    s.withKey c [1, 2] fun k => s.withLenfaim c fun s =>
      match Aes.gcmDecrypt k.material iv aad src with
      | none => (s, .fails 2 0)
      | some plain => if descCmp c.words then s.decompressed c plain else (s, .output plain 0)

/-- XTS encrypt (12 R509). -/
def execXtsEncrypt (engine : BitVec 4) (s : State) : Outcome :=
  s.runOver 1 engine opXtsEnc fun s c src tweak _ =>
    s.withKey c [3, 4] fun k => (s, .output (Aes.xts true k.material tweak src) 0)

/-- XTS decrypt (12 R509). -/
def execXtsDecrypt (engine : BitVec 4) (s : State) : Outcome :=
  s.runOver 1 engine opXtsDec fun s c src tweak _ =>
    s.withKey c [3, 4] fun k => (s, .output (Aes.xts false k.material tweak src) 0)

/-- CTR (12 R509, R518). FREE VALUE: with CMP set, R518 gives CTR both orders and no way to tell them apart;
which of them a command takes is open (assumption 38). -/
def execCtr (engine : BitVec 4) (s : State) : Outcome :=
  s.runOver 1 engine opCtr fun s c src block _ =>
    s.withKey c [1, 2] fun k => s.withLenfaim c fun s =>
      let rks := Aes.roundKeys k.material
      if descCmp c.words then
        let (v, s) := s.draw
        if v.getLsbD 0 then
          let (z, s) := s.compressed (descBlockLog c.words) false src
          (s, .output (Aes.ctrCrypt rks block z) 0)
        else s.decompressed c (Aes.ctrCrypt rks block src)
      else (s, .output (Aes.ctrCrypt rks block src) 0)

/-! ### Hash (12 R509, R516) -/

/-- SHA-256. -/
def execSha256 (engine : BitVec 4) (s : State) : Outcome :=
  s.runOver 2 engine opSha256 fun s _ src _ _ => (s, .output (Digest.sha256 src) 0)

/-- SHA-384. -/
def execSha384 (engine : BitVec 4) (s : State) : Outcome :=
  s.runOver 2 engine opSha384 fun s _ src _ _ => (s, .output (Digest.sha384 src) 0)

/-- SHA3-256. -/
def execSha3_256 (engine : BitVec 4) (s : State) : Outcome :=
  s.runOver 2 engine opSha3 fun s _ src _ _ => (s, .output (Digest.sha3_256 src) 0)

/-- HMAC-SHA-256. -/
def execHmacSha256 (engine : BitVec 4) (s : State) : Outcome :=
  s.runOver 2 engine opHmac256 fun s c src _ _ =>
    s.withKey c [5] fun k => (s, .output (Digest.hmacSha256 k.material src) 0)

/-- HMAC-SHA-384. -/
def execHmacSha384 (engine : BitVec 4) (s : State) : Outcome :=
  s.runOver 2 engine opHmac384 fun s c src _ _ =>
    s.withKey c [6] fun k => (s, .output (Digest.hmacSha384 k.material src) 0)

/-! ### Random bits (12 R510) -/

abbrev esStat : Nat := cryBase 4 + 0xC

/-- A reseed is counted, and generate requests count from it. -/
def State.reseeded (s : State) : State :=
  let n := min 0xFFFF (s.regField esStat 15 0 + 1)
  { s.setRegField esStat 15 0 n with drbg := 0 }

/-- FREE VALUE: `n` random bytes of the DRBG, one generate request; it reseeds after 2^20 of them (12 R510). -/
def State.random (s : State) (n : Nat) : List Byte × State :=
  let (bs, s) := State.drawBytes n s
  let s := { s with drbg := s.drbg + 1 }
  (bs, if 2 ^ 20 ≤ s.drbg then s.reseeded else s)

/-- A random number from 1 to `n` − 1. FREE VALUE. -/
def State.randomBelow (s : State) (n : Nat) : Nat × State :=
  let (bs, s) := s.random 64
  (beNat bs % (n - 1) + 1, s)

/-! ### Public key (12 R509, R516) -/

/-- Sign with a fresh secret; a secret that gives r or s of 0 is drawn again, `tries` times at most. -/
def State.signWith (s : State) (c : Ecdsa.Curve) (d : Nat) (digest : List Byte) : Nat → List Byte × State
  | 0 => (List.replicate (2 * c.bytes) 0, s)
  | n + 1 =>
    let (k, s) := s.randomBelow c.n
    match Ecdsa.sign c d k digest with
    | some sig => (sig, s)
    | none => State.signWith s c d digest n

/-- Sign (12 R510, R516). -/
def State.runSign (s : State) (engine : BitVec 4) (op : Nat) (c : Ecdsa.Curve) (typ : Nat) : Outcome :=
  s.runOver 3 engine op fun s cmd src _ _ =>
    s.withKey cmd [typ] fun k =>
      if !s.drbgRuns then (s, .fails 9 0)
      else
        let (sig, s) := s.signWith c (beNat k.material) src 64
        (s, .output sig 0)

/-- Verify (12 R516, R517). -/
def State.runVerify (s : State) (engine : BitVec 4) (op : Nat) (c : Ecdsa.Curve) : Outcome :=
  s.runOver 3 engine op fun s _ src pub _ =>
    if Ecdsa.verify c (beNat (pub.take c.bytes)) (beNat (pub.drop c.bytes)) (src.take c.bytes) (src.drop c.bytes) then
      (s, .words [] 0 0 0)
    else (s, .fails 3 0)

/-- ECDSA sign over P-256. -/
def execSignP256 (engine : BitVec 4) (s : State) : Outcome := s.runSign engine opSign256 Ecdsa.p256 7
/-- ECDSA sign over P-384. -/
def execSignP384 (engine : BitVec 4) (s : State) : Outcome := s.runSign engine opSign384 Ecdsa.p384 8
/-- ECDSA verify over P-256. -/
def execVerifyP256 (engine : BitVec 4) (s : State) : Outcome := s.runVerify engine opVerify256 Ecdsa.p256
/-- ECDSA verify over P-384. -/
def execVerifyP384 (engine : BitVec 4) (s : State) : Outcome := s.runVerify engine opVerify384 Ecdsa.p384

/-! ### The key store (12 R511 to R514) -/

/-- The bytes of a key of a type (12 R512). -/
def keyBytes (typ : Nat) : Nat :=
  match typ with
  | 1 => 16
  | 2 => 32
  | 3 => 32
  | 4 => 64
  | 5 => 32
  | 6 => 48
  | 7 => 32
  | 8 => 48
  | _ => 0

/-- The lowest entry not in use from `i` on; `fuel` exceeds the entries ever used. -/
def State.freeKeyFrom (s : State) : Nat → Nat → Option Nat
  | 0, _ => none
  | n + 1, i =>
    if 131072 ≤ i then none
    else if (s.key i).inUse then State.freeKeyFrom s n (i + 1) else some i

/-- Entries that a partition uses. -/
def State.keysOf (s : State) (p : BitVec 6) : Nat :=
  (s.keys.filter fun e => e.2.inUse && s.partOfSid e.2.sid == some p).length

/-- The next generation of an entry; 0 stands for an entry never used, so that no handle is 0
(assumption 39). -/
def nextGen (g : BitVec 15) : BitVec 15 := if g + 1 = 0 then 1 else g + 1

/-- Make a key: its handle; none where the store or the partition's quota is full. -/
def State.makeKey (s : State) (sid : BitVec 16) (p : BitVec 6) (typ : Nat) (material : List Byte) :
    Option (Word × State) :=
  match s.freeKeyFrom (s.keys.length + 1) 0 with
  | none => none
  | some i =>
    if (s.part p).keyQuota ≤ s.keysOf p then none
    else
      let g := if (s.key i).gen = 0 then 1 else (s.key i).gen
      let s := s.setKey i { inUse := true, gen := g, sid := sid, typ := BitVec.ofNat 8 typ, material := material }
      some (BitVec.ofNat 32 (g.toNat * 2 ^ 17 + i), s)

/-- Erase a key-store entry: its generation rises (12 R516, 14 R608). -/
def State.eraseKey (s : State) (i : Nat) : State := s.setKey i { key0 with gen := nextGen (s.key i).gen }

/-- Key material of a type. FREE VALUE: from the DRBG. -/
def State.newMaterial (s : State) (typ : Nat) : List Byte × State :=
  if typ = 7 ∨ typ = 8 then
    let c := if typ = 7 then Ecdsa.p256 else Ecdsa.p384
    let (d, s) := s.randomBelow c.n
    (natBe c.bytes d, s)
  else s.random (keyBytes typ)

/-- RANDOM (12 R516). -/
def execRandom (engine : BitVec 4) (s : State) : Outcome :=
  s.runOp 4 engine opRandom fun s c =>
    if !s.drbgRuns then (s, .fails 9 0)
    else
      let (bs, s) := s.random (descCap c.words)
      (s, .output bs 0)

/-- KEYGEN (12 R511, R512, R516). -/
def execKeygen (engine : BitVec 4) (s : State) : Outcome :=
  s.runOp 4 engine opKeygen fun s c =>
    if !s.drbgRuns then (s, .fails 9 0)
    else
      let typ := field (descParam c.words) 3 0
      let (m, s1) := s.newMaterial typ
      match s1.makeKey c.sid c.part typ m with
      | none => (s, .fails 10 0)
      | some (h, s) => (s, .words [] 0 0 h)

/-- The root wrapping key that Benus holds (14 R627). FREE VALUE: once it is destroyed (assumption 41). -/
def State.rootKey (s : State) : List Byte := if s.ben.rootKey = [] then Config.lostRootKey else s.ben.rootKey

/-- The wrapping key of a space (12 R513). -/
def State.spaceWrapKey (s : State) (sid : BitVec 16) : List Byte :=
  Digest.wrapKey s.rootKey sid (Map.get 0 s.wraps sid.toNat)

/-- The first 20 bytes of a blob, but for its IV (12 R513). -/
def blobHead (k : Key) : List Byte :=
  [1, k.typ] ++ natLe 2 (keyBytes k.typ.toNat) ++ natLe 2 k.sid.toNat ++ [0, 0]

/-- KEYEXPORT (12 R513, R516). FREE VALUE: the IV, from the DRBG. -/
def execKeyexport (engine : BitVec 4) (s : State) : Outcome :=
  s.runOp 4 engine opKeyexport fun s c =>
    s.withKey c [1, 2, 3, 4, 5, 6, 7, 8] fun k =>
      if !s.drbgRuns then (s, .fails 9 0)
      else
        let (iv, s) := s.random 12
        let plain := k.material ++ List.replicate (64 - k.material.length) 0
        (s, .output (blobHead k ++ iv ++ Aes.gcmEncrypt (s.spaceWrapKey c.sid) iv (blobHead k) plain) 0)

/-- KEYIMPORT (12 R514, R516). -/
def execKeyimport (engine : BitVec 4) (s : State) : Outcome :=
  s.runOver 4 engine opKeyimport fun s c b _ _ =>
    let typ := bytesAt b 1 1
    let n := keyBytes typ
    let fieldsOk := bytesAt b 0 1 == 1 && n != 0 && bytesAt b 2 2 == n && bytesAt b 4 2 == c.sid.toNat && bytesAt b 6 2 == 0
    match Aes.gcmDecrypt (s.spaceWrapKey c.sid) ((b.drop 8).take 12) (b.take 8) (b.drop 20) with
    | none => (s, .fails 12 0)
    | some m =>
      if !fieldsOk || !(m.drop n).all (· == 0) then (s, .fails 12 0)
      else
        match s.makeKey c.sid c.part typ (m.take n) with
        | none => (s, .fails 10 0)
        | some (h, s) => (s, .words [] 0 0 h)

/-- KEYDESTROY (12 R516). -/
def execKeydestroy (engine : BitVec 4) (s : State) : Outcome :=
  s.runOp 4 engine opKeydestroy fun s c =>
    s.withKey c [1, 2, 3, 4, 5, 6, 7, 8] fun _ => (s.eraseKey (field (descKey c.words) 16 0), .words [] 0 0 0)

/-- PUBKEY (12 R516). -/
def execPubkey (engine : BitVec 4) (s : State) : Outcome :=
  s.runOp 4 engine opPubkey fun s c =>
    s.withKey c [7, 8] fun k =>
      (s, .output (Ecdsa.publicKey (if k.typ = 7 then Ecdsa.p256 else Ecdsa.p384) (beNat k.material)) 0)

/-! ### The entropy source (12 R510, R530) -/

/-- DRBG_RESEED (12 R510): after 1 s. -/
def execDrbgReseed (s : State) : Outcome := if s.drbgRuns then .next s.reseeded else idle s

/-- ENTROPY_HEALTH_FAIL (12 R510, R530): the DRBG stops, the source raises and Benus logs the failure. -/
def execEntropyHealthFail (s : State) : Outcome :=
  let s := (s.setRegField esStat 31 31 0).setRegField esStat 30 30 1
  .next ((s.makeRecord { kind := 1, source := engineSource 22 }).2.assertSrc (engineSource 22))

/-- ENTROPY_RECOVERY (12 R510, R530): the start-up tests passed on 1,024 fresh samples, and the DRBG has been
reseeded. -/
def execEntropyRecovery (s : State) : Outcome :=
  if bit (s.reg esStat) 30 then
    .next ((s.setRegField esStat 30 30 0).setRegField esStat 31 31 1).reseeded
  else idle s

end Sys2Proof.Machine
end

