-- ==== Sys2Proof/Machine/Resets.lean ====
section
/-! DEFINITION. The brown-out flush (16 R690, R691) and the reset of the module (13 R560): what each keeps. What
a start then does is MODULE_START's. -/

namespace Sys2Proof.Machine

/-- The debug authorisation ends (15 R655; 13 R570): a debug record is logged, every halted strand is released,
every breakpoint, watchpoint and trace mark goes, and every TST field returns to its reset value. -/
def State.closeDebug (s : State) : State :=
  if !s.dbg.isOpen then s
  else
    let s := s.log 11 noPart ([1, 0] ++ natLe 2 s.dbg.scope.toNat ++ natLe 2 s.dbg.keyId.toNat)
    let s := s.each (s.slots.filter fun e => e.2.halted.isSome) fun s e =>
      s.unhalt (BitVec.ofNat 8 (e.1 / 8)) (BitVec.ofNat 3 (e.1 % 8))
    { s with
        slots := (s.slots.map fun e => (e.1, { e.2 with stepping := 0 })).filter fun e => e.2 != slot0
        frames := s.frames.map fun e => (e.1, { e.2 with tracing := false })
        regs := s.regs.filter fun e => !(decide (tstBase ≤ e.1) && decide (e.1 < tstBase + 0x1000))
        dbg := { s.dbg with isOpen := false, breaks := [], tbreaks := [], watches := [] } }

/-- The log store (14 R615): 512 MiB, of which the oldest records are reclaimed when it is full (assumption 40). -/
def State.toLogStore (s : State) : State :=
  { s with ben := { s.ben with flash := (logFit (2 ^ 29) (s.ben.flash ++ s.ben.ram)).2, ram := [] } }

/-- The brown-out flush up to a step (16 R690): the ledger opens no new entry; by step 3 the log, with a power record
of event 2, and the calendar are written. A change of an entry is in MRAM before anyone hears of it (R691), and the
journal is written before each effect (14 R581). FREE VALUE: the record's FEED. -/
def State.flushTo (s : State) (step : Nat) : State :=
  let s := { s with plat := { s.plat with ledgerClosed := decide (1 ≤ step) || s.plat.ledgerClosed } }
  if step < 3 then s
  else
    let (v, s) := s.draw
    let s := (s.log 9 noPart [2, v.setWidth 8]).toLogStore
    { s with ben := { s.ben with calStored := s.ben.tai } }

/-- Steps 1 to 4 of the brown-out flush. -/
def State.flush (s : State) : State := s.flushTo 4

/-- A mailbox after a reset: its assignment stays, and a command of the journal stays to be completed (14 R581).
A reset of the module keeps the requests that wait; a loss of power does not. -/
def Mailbox.afterReset (b : Mailbox) (journalled powerLost : Bool) : Mailbox :=
  if journalled || (!powerLost && b.state != mbIdle) then b
  else
    { mailbox0 with
      owner := b.owner, part := b.part, transport := b.transport, classes := b.classes, fingerprint := b.fingerprint }

/-- Benus after a reset: it keeps its two flash stores, the calendar clock and, without a loss of power, the
mailboxes in its SRAM; it stops until the module starts (14 R580, R581, R626). -/
def Benus.afterReset (b : Benus) (powerLost : Bool) : Benus :=
  { Benus.start with
    mbx := b.mbx.map fun e => (e.1, e.2.afterReset (b.journal.contains (BitVec.ofNat 5 e.1)) powerLost)
    order := if powerLost then b.journal else b.order, journal := b.journal
    fw := b.fw, staging := b.staging, bootImages := b.bootImages, config := b.config, flash := b.flash
    forwarded := b.forwarded, lseq := b.lseq, tai := b.tai, taiNs := b.taiNs, utcOff := b.utcOff
    calSource := b.calSource, calValid := b.calValid, calStored := b.calStored, backup := b.backup
    bootKey := b.bootKey, rootKey := b.rootKey, nextRec := b.nextRec, hartLog := b.hartLog
    lostRecs := b.lostRecs }

/-- The module's place in its system as its stored configuration keeps it (15 R634). -/
def Hier.afterReset (h : Hier) : Hier :=
  { Hier.start with
    system := h.system, numbered := h.numbered, modn := h.modn, role := h.role, gepoch := h.gepoch
    sepoch := h.sepoch, partner := h.partner, standbyOf := h.standbyOf }

/-- The platform after a reset: what is outside the module stays as it is, and the rails fall only with the power. -/
def Plat.afterReset (p : Plat) (powerLost : Bool) : Plat :=
  { Plat.start with
    evts := p.evts.map fun e => (e.1, { evtIn0 with raw := e.2.raw, since := e.2.since })
    feeds := p.feeds, cages := p.cages, rails := if powerLost then 0 else p.rails
    flushed := p.flushed, standbyOnly := p.standbyOnly, seqTries := p.seqTries, seqHold := p.seqHold
    protect := p.protect, capSince := p.capSince, clockStopped := p.clockStopped }

/-- The module is reset (13 R560; 00 R13): every register takes its reset value, and what does not survive is as
State.reset has it. The ledger and its duplicate windows stay in MRAM (11 R464, R467, R473), Benus's stores in
flash, and the failed marks of physical cells (13 R543). -/
def State.afterReset (s : State) (powerLost : Bool) : State :=
  { State.reset with
    pending := s.pending, ledger := s.ledger, copies := s.copies, dups := s.dups, tn := s.tn
    parts := (s.parts.filter fun e => e.2.record != []).map fun e => (e.1, { part0 with record := e.2.record })
    col := { Collector.start with failMark := s.col.failMark }
    ben := s.ben.afterReset powerLost, hier := s.hier.afterReset, plat := s.plat.afterReset powerLost
    out := s.out, now := s.now, ids := s.ids, free := s.free }

/-- The module reset of 13 R560 and 14 R610: the flush, then the reset. -/
def State.moduleReset (s : State) : State := s.closeDebug.flush.afterReset false

end Sys2Proof.Machine
end

