-- ==== Sys2Proof/Machine/Collector.lean ====
section
/-! DEFINITION. The fault collector (13 R555 to R568): samples, windows, records and reactions; spare cells
(13 R543 to R546); twins (13 R548 to R554); ALIVE (13 R565, R566). -/

namespace Sys2Proof.Machine

/-! ### Sources and their configuration (13 R558, R559, R577) -/

/-- A source, and changing it. -/
def State.source (s : State) (i : Nat) : Source := Map.get source0 s.col.srcs i
def State.modSource (s : State) (i : Nat) (f : Source → Source) : State :=
  { s with col := { s.col with srcs := Map.set source0 s.col.srcs i (f (s.source i)) } }

/-- FCL_SRC_CFG_i and its fields. -/
def srcCfgAt (i : Nat) : Nat := fclBase + 0x1000 + 4 * i
def srcCntAt (i : Nat) : Nat := fclBase + 0x3000 + 4 * i
def State.srcEnabled (s : State) (i : Nat) : Bool := bit (s.reg (srcCfgAt i)) 31
def State.srcReact (s : State) (i : Nat) : Nat := s.regField (srcCfgAt i) 30 26
def State.srcN (s : State) (i : Nat) : Nat := max 1 (s.regField (srcCfgAt i) 15 8)

/-- Set or clear the bit of a source in the register of its group at `off`. -/
def State.groupBit (s : State) (off i : Nat) (on : Bool) : State :=
  s.setRegField (fclBase + off + 4 * (i / 32)) (i % 32) (i % 32) (if on then 1 else 0)

/-- The source is a physical cell (13 R555). -/
def isCellSource (i : Nat) : Bool := decide (i < 512) && decide (i % 32 < 18)

/-- The logical cell that is bound to the physical cell of a source. -/
def State.cellOfSource (s : State) (i : Nat) : Option CellId :=
  if isCellSource i then
    (cellsOf (BitVec.ofNat 4 (i / 32))).find? fun c => s.regField (clcCell c 0xF40) 4 0 == i % 32
  else none

/-! ### What a record names (13 R560) -/

/-- The partitions that run. -/
def State.liveParts (s : State) : List (BitVec 6) :=
  (s.parts.filter fun e => e.2.isLive).map fun e => BitVec.ofNat 6 e.1

/-- The partitions with a slice of an engine class. -/
def State.partsOfClass (s : State) (k : BitVec 3) : List (BitVec 6) :=
  s.liveParts.filter fun p => (s.eclass k).slices.any fun e => e.2.state != 0 && e.2.part == p

/-- The engine class and engine that a source names, where it names one (13 R555). -/
def engineOfSource (i : Nat) : Option (BitVec 3 × BitVec 4) :=
  let b := i % 32
  if i / 32 = 46 ∧ b < 16 then some (1, BitVec.ofNat 4 b)
  else if i / 32 ≠ 45 then none
  else if b < 16 then some (0, BitVec.ofNat 4 b)
  else if b < 20 then some (2, BitVec.ofNat 4 (b - 16))
  else if b < 22 then some (3, BitVec.ofNat 4 (b - 20))
  else none

/-- The partitions that a record of a source names (13 R560): a cell's, or those whose cells, subchannels, slices
or span use the block; a platform source names none. -/
def State.partsNamed (s : State) (i : Nat) : List (BitVec 6) :=
  let g := i / 32
  let b := i % 32
  if isCellSource i then
    match s.cellOfSource i with
    | some c => (s.ownerOf c).toList
    | none => []
  else if g < 16 then
    s.liveParts.filter fun p => (s.part p).cells.any fun c => clusterOf c == BitVec.ofNat 4 g
  else if g < 36 then s.liveParts
  else if g < 44 then
    s.liveParts.filter fun p => (s.port (BitVec.ofNat 4 (g - 36))).subs.any fun e => e.2.bound && e.2.part == p
  else if g = 44 then
    if b < 3 then s.liveParts
    else if b < 11 then s.liveParts.filter fun p => decide (2 ≤ (s.part p).span.length)
    else []
  else
    match engineOfSource i with
    | some (k, _) => s.partsOfClass k
    | none => if g = 45 then s.partsOfClass 4 else []

/-- The strand that a HOP answers. -/
def hopSlot (op : HomeOp) : Option (CellId × SlotId) :=
  match op with
  | .istore c k _ _ | .iclear c k | .load c k _ | .loadr c k _ | .storec c k _ => some (c, k)
  | _ => none

/-- A message to a home asks for something a strand of this slot waits for. -/
def hopFrom (h : BitVec 4) (c : CellId) (k : SlotId) (m : Instr) : Bool :=
  match m with
  | .hop h' _ _ op => h' == h && hopSlot op == some (c, k)
  | _ => false

/-- A requester is the strand of a slot. -/
def Requester.isSlot (r : Requester) (c : CellId) (k : SlotId) : Bool :=
  match r with
  | .load c' k' _ _ | .fetch c' k' | .walk c' k' => c' == c && k' == k
  | _ => false

/-- The strand waits for an answer of a home agent. -/
def State.waitsOnHome (s : State) (h : BitVec 4) (c : CellId) (k : SlotId) : Bool :=
  ((s.cluster (clusterOf c)).misses.any fun m => m.home == h && m.reqs.any fun r => r.isSlot c k)
    || s.wire.any (hopFrom h c k) || (s.home h).queue.any (hopFrom h c k)
    || (s.home h).trans.any (fun t => hopFrom h c k t.req) || (s.home h).retried.any (fun e => hopFrom h c k e.1)

/-- The strands that a non-maskable trap of a source names (13 R560). -/
def State.trapped (s : State) (i : Nat) : List (CellId × SlotId) :=
  let all := (allCells.map fun c => allSlots.map fun k => (c, k)).flatten.filter fun x => (s.slot x.1 x.2).state != .idle
  let g := i / 32
  if g < 16 then all.filter fun x => clusterOf x.1 == BitVec.ofNat 4 g
  else if g < 32 then all.filter fun x => s.waitsOnHome (BitVec.ofNat 4 (g - 16)) x.1 x.2
  else if g < 36 then
    all.filter fun x => (List.range 4).any fun j => s.waitsOnHome (BitVec.ofNat 4 (4 * (g - 32) + j)) x.1 x.2
  else []

/-! ### Spare cells (13 R543 to R546) -/

/-- Mark a physical cell failed (13 R543, R574): it no longer counts as one that holds an image. -/
def State.markFailed (s : State) (g : BitVec 4) (phys : Nat) : State :=
  let s := (s.setRegField (clcBase g.toNat + 0xF04) phys phys 1).setRegField (clcBase g.toNat + 0xC40 + 4 * phys) 0 0 0
  { s with col := { s.col with failMark := Map.set false s.col.failMark (g.toNat * 32 + phys) true } }

/-- The free spare of a cluster with the lower physical number (13 R544): bound to no logical cell, and neither
failed nor taken by a replacement in progress. -/
def State.freeSpare (s : State) (g : BitVec 4) : Option Nat :=
  (List.range 18).find? fun p =>
    !(Map.get false s.col.failMark (g.toNat * 32 + p))
      && !((cellsOf g).any fun c => s.regField (clcCell c 0xF40) 4 0 == p)
      && !(s.col.copying.any fun e => clusterOf e.1 == g && e.2 == p)

/-- A logical cell is lost (13 R546): every context with a frame on it that is not COMPLETE fails with the record of
KIND 11. -/
def State.loseCell (s : State) (c : CellId) : State :=
  let s := (s.setRegField (clcCell c 0xF40) 9 8 2).modCell c fun x => { x with stopped := false }
  let s := { s with col := { s.col with lostCells := s.col.lostCells ++ [c] } }
  let (n, s) := s.makeRecord { kind := 11, source := s.cellSource c, cell := s.recCell c }
  s.each (s.framesOn c) fun s f => s.failContext f n

/-- A spare is loaded from the failed cell's repair bank (06 R277, 13 R544). One that takes the old image after its turn
in a patch is patched in a turn of its own. -/
def State.loadSpare (s : State) (g : BitVec 4) (old p : Nat) : State :=
  let at_ (x : Nat) : Nat := clcBase g.toNat + 0xC40 + 4 * x
  let bank := s.regField (at_ old) 2 2
  let s := (s.setRegField (at_ p) 2 2 bank).setRegField (at_ p) 0 0 1
  let me := g.toNat * 256 + p
  match s.ben.patch with
  | some r =>
    if r.finishing ∨ r.todo.any (fun e => e.1 == me) ∨ (bank == 1) = (s.cluster g).newBank then s
    else { s with ben := { s.ben with patch := some { r with todo := r.todo ++ [(me, 0)] } } }
  | none => s

/-- Steps 1 to 3 of a spare replacement (13 R544): the cell stops, its tokens are held at the router, and the free
spare is chosen and loaded from the failed cell's repair bank. With no spare the cell is lost (R546). -/
def State.startReplacement (s : State) (c : CellId) : State :=
  if s.regField (clcCell c 0xF40) 9 8 ≠ 0 then s
  else
    let g := clusterOf c
    let old := s.regField (clcCell c 0xF40) 4 0
    let s := s.markFailed g old
    match s.freeSpare g with
    | none => s.loseCell c
    | some p =>
      let s := (s.loadSpare g old p).cancelMigrations [c]
      let s := (s.setRegField (clcCell c 0xF40) 9 8 1).modCell c fun x => { x with stopped := true }
      { s with col := { s.col with copying := s.col.copying ++ [(c, p)] } }

/-! ### Block reset (13 R560) -/

/-- The words of a sector held only in a unit that is reset: POISON (FREE VALUE: their data). -/
def State.poisonWords (s : State) (ws : List TWord) : List TWord × State :=
  let (v, s) := s.draw
  (ws.map fun _ => ⟨Tag.poison, v.setWidth 32⟩, s)

/-- The cluster cache is reset: its dirty sectors are written as POISON, and every copy goes. -/
def State.resetCache (s : State) (g : BitVec 4) : State :=
  let held := ((s.cluster g).ways.map fun e => (List.range 4).map fun i => 4 * e.2.block + i).flatten
  s.each held fun s sec =>
    let x := (s.cluster g).sectorAt sec
    let s := if x.dirty then
        let (d, s) := s.poisonWords x.data
        s.modCluster g fun cl => cl.putSector sec { x with data := d }
      else s
    if x.st = 0 then s else s.recall sec

/-- The Porch and the Pantry are reset: an entry's dirty sectors that have not left, and the Pantry's words that
memory does not hold, are written as POISON. -/
def State.resetPorch (s : State) (g : BitVec 4) : State :=
  let (v, s) := s.draw
  let bad : TWord := ⟨Tag.poison, v.setWidth 32⟩
  let s := s.modCluster g fun cl =>
    { cl with porch := cl.porch.map fun q => if q.state = .waiting then
        { q with sectors := q.sectors.map fun e => (e.1, { e.2 with data := e.2.data.map fun _ => bad }) } else q }
  let words := ((s.cluster g).pantry ++ s.mem.filter fun e => s.pantryOf (s.ownWord (4 * e.1)) == some g).map Prod.fst
  s.each words fun s w =>
    if Map.get TWord.empty (s.cluster g).pantry w = Map.get TWord.empty s.mem w then s
    else s.modCluster g fun cl => { cl with pantry := Map.set TWord.empty cl.pantry w bad }

/-- A Threshold slice is reset: the stores of the releases it holds become POISON. -/
def State.resetThreshold (s : State) (g : BitVec 4) : State :=
  let (v, s) := s.draw
  let spoil (r : Release) : Release :=
    match r with
    | .memory es => .memory (es.map fun (e : StEnt) => { e with kind := .word, val := ⟨Tag.poison, v.setWidth 32⟩ })
    | x => x
  { s with flows := s.flows.map fun e => if flowSlice (BitVec.ofNat 12 e.1) = g then
      (e.1, { e.2 with held := e.2.held.map fun h => (h.1, spoil h.2) }) else e }

/-- The cluster cache's registers, but for the Pantry's, whose unit is another. -/
def State.resetCacheRegs (s : State) (g : BitVec 4) : State :=
  (s.blockResetRegs (cchBase g.toNat) 0x10).blockResetRegs (cchBase g.toNat + 0x20) 0xFE0

/-- A unit of a cluster other than a physical cell is reset, with the registers of its block (00 R13; which unit of a
cluster holds which block is a DESIGN CHOICE, assumption 74). Units that hold no state of their own are ready again at
once. The agent of a cache that is reset is admitted again (10 R433). -/
def State.resetClusterUnit (s : State) (g : BitVec 4) (b : Nat) : State :=
  match b with
  | 18 | 19 => ((s.resetCache g).resetCacheRegs g).readmit (s.agentOf g)
  | 20 => s.resetPorch g
  | 21 => (s.modCluster g fun cl => { cl with tlb := [], tlb2 := [], roots := [] }).blockResetRegs (trnBase g.toNat) 0x1000
  | 27 => s.resetThreshold g
  | 28 => s.modCluster g fun cl => { cl with mapCache := [] }
  | 30 => s.blockResetRegs (clcBase g.toNat) 0x10000
  | _ => s

/-- An engine stops (12 R527): its running command starts again on another engine of its class. -/
def State.stopEngine (s : State) (k : BitVec 3) (e : BitVec 4) : State :=
  let s := s.setRegField (engBase k) e.toNat e.toNat 1
  match s.running k e with
  | none => s
  | some c => s.modCmd k c fun y => { y with engine := none, status := none, detail := 0, outLen := 0 }

/-- The reaction block reset, by the unit that the source names (13 R560). -/
def State.blockReset (s : State) (i : Nat) : State :=
  let g := i / 32
  let b := i % 32
  if isCellSource i then
    match s.cellOfSource i with
    | some c => s.startReplacement c
    | none => s.markFailed (BitVec.ofNat 4 g) b
  else if b = 31 then s
  else if g < 16 then s.resetClusterUnit (BitVec.ofNat 4 g) b
  else if g < 32 then
    let h := BitVec.ofNat 4 (g - 16)
    (s.each ((s.home h).dir.filter fun e => e.2.v) fun s e =>
      s.each (List.range 4) fun s j => s.recall (4 * e.2.tag + j)).blockResetRegs (dirBase h.toNat) 0x1000
  else if g < 36 then
    if b < 5 then s.each (List.range 4) fun s j => s.setRegField (dirBase (4 * (g - 32) + j) + 0x18) b b 1 else s
  else if g < 44 then
    let n := BitVec.ofNat 4 (g - 36)
    let p := s.port n
    if b < 2 then
      if b ≠ p.active then s.modPort n fun p => { p with standbyOk := false, failedSides := p.failedSides ||| (1 <<< b) }
      else if p.standbyOk ∧ !p.switching then
        (s.beginSwitch n).modPort n fun p => { p with failedSides := p.failedSides ||| (1 <<< b) }
      else s
    else (if p.link = linkUp then s.endSession n else s).blockResetRegs (chnBase n.toNat) 0x1000
  else if g = 44 then
    if b < 2 then s.blockResetRegs ldgBase 0xC
    else if 3 ≤ b ∧ b < 11 ∧ (s.port (BitVec.ofNat 4 (b + 5))).link = linkUp then s.endSession (BitVec.ofNat 4 (b + 5)) else s
  else if g = 47 then
    if b = 0 then { s with ben := { s.ben with running := false } } else s
  else
    match engineOfSource i with
    | some (k, e) => s.stopEngine k e
    | none =>
      if b = 22 then (s.setRegField esStat 31 31 0).setRegField esStat 30 30 1
      else if b = 23 then s.reseeded
      else if b = 24 then s.each (s.keys.filter fun e => e.2.inUse) fun s e => s.eraseKey e.1
      else s

/-! ### Reactions and records (13 R560 to R562) -/

/-- ALIVE stops with a cause (13 R565, R577); outputs that are stopped already keep theirs. -/
def State.stopAlive (s : State) (cause : Nat) : State :=
  if bit (s.reg (fclBase + 8)) 31 then s
  else
    let s := (s.setRegField (fclBase + 8) 31 31 1).setRegField (fclBase + 8) 30 29 cause
    { s with col := { s.col with aliveA := false, aliveB := false } }

/-- Perform the reactions of a set that a record names. The module reset comes last. -/
def State.react (s : State) (set i : Nat) (recno : Word) : State :=
  let s := if set.testBit 0 then
      s.each (s.partsNamed i) fun s p => s.eventToken .collector p (s.eventStmt p) ⟨Tag.sys, recno⟩ else s
  let s := if set.testBit 1 then s.each (s.trapped i) fun s x => s.machineCheck x.1 x.2 recno else s
  let s := if set.testBit 2 then s.blockReset i else s
  let s := if set.testBit 4 then s.stopAlive 1 else s
  if set.testBit 3 then s.moduleReset else s

/-- The record of a group that is open. -/
def State.openRecord (s : State) (g : Nat) : Option Stored :=
  s.col.store.find? fun r => r.isOpen && r.fr.source.toNat / 32 == g

/-- Change the record with a number. -/
def State.modRecord (s : State) (n : Word) (f : Stored → Stored) : State :=
  { s with col := { s.col with store := s.col.store.map fun r => if r.fr.recno = n then f r else r } }

/-- A record with module reset or stop ALIVE stays open until `fault.record.close` (13 R562). -/
def keepsOpen (react : BitVec 8) : Bool := react.getLsbD 3 || react.getLsbD 4

/-- An event merges into its group's open record (13 R561): the reactions that are new are performed. -/
def State.mergeRecord (s : State) (r : Stored) (i set : Nat) (injected : Bool) : State :=
  let fresh : BitVec 8 := BitVec.ofNat 8 set &&& ~~~r.fr.react
  let src := BitVec.ofNat 16 i
  let more := if src ≠ r.fr.source ∧ !(r.fr.more.contains src) ∧ r.fr.more.length < 4 then r.fr.more ++ [src] else r.fr.more
  let s := s.modRecord r.fr.recno fun x =>
    { x with
      sticky := keepsOpen (x.fr.react ||| fresh)
      fr := { x.fr with
        merged := if x.fr.merged = 0xFFFF then x.fr.merged else x.fr.merged + 1
        lastT := s.now, more := more, react := x.fr.react ||| fresh
        detail := if injected then x.fr.detail ||| lockBit else x.fr.detail } }
  s.react fresh.toNat i r.fr.recno

/-- One more log record of a source in its interval (13 R568): more than STORM_RATE start a storm. -/
def State.countStorm (s : State) (i : Nat) : State :=
  let n := (s.source i).interval + 1
  let s := s.modSource i fun y => { y with interval := n }
  if s.regField fclBase 15 0 < n then
    let s := s.modSource i fun y => { y with storm := true, interval := 0, stormEvents := 0, kept := none }
    (s.makeRecord { kind := 9, source := i }).2
  else s

/-- A severe event (13 R558, R561): it merges into the open record of its group, or opens one, and the reactions
run. A lasting detection is of KIND 3 and starts spare replacement under R541. -/
def State.severe (s : State) (i : Nat) : State :=
  let x := s.source i
  let lasting := x.pending && isCellSource i
  let cell : Option CellId := s.cellOfSource i
  let set := s.srcReact i
  let s := (s.groupBit 0x200 i true).modSource i fun y => { y with pending := false }
  let s := match s.openRecord (i / 32) with
    | some r => s.mergeRecord r i set x.injected
    | none =>
      let (n, s) := s.nextRecno
      let (lost, s) := s.roomForRecord.takeLost
      let info : RecInfo :=
        { kind := if lasting then 3 else 2, source := i, count := BitVec.ofNat 32 (s.regField (srcCntAt i) 7 0)
          cell := match cell with | some c => s.recCell c | none => 0xFFFF
          detail := if x.injected then lockBit else 0 }
      let fr : FRec := { info.toRec n s.now with lost := lost, react := BitVec.ofNat 8 set }
      let s := { s with col := { s.col with store := s.col.store ++
        [({ fr := fr, isOpen := true, logged := false, sticky := keepsOpen fr.react } : Stored)] } }
      (if x.storm then s else s.countStorm i).react set i n
  match cell with
  | some c => if lasting && !set.testBit 3 then s.startReplacement c else s
  | none => s

/-! ### Events (13 R556 to R559, R568) -/

/-- An event below the threshold writes a minor record (13 R558); in storm mode only the last one is kept
(R568). -/
def State.minorEvent (s : State) (i : Nat) : State :=
  let x := s.source i
  let info : RecInfo :=
    { kind := 1, source := i, count := BitVec.ofNat 32 (s.regField (srcCntAt i) 7 0)
      cell := match s.cellOfSource i with | some c => s.recCell c | none => 0xFFFF
      detail := if x.injected then lockBit else 0 }
  if x.storm then
    s.modSource i fun y => { y with kept := some (info.toRec 0 s.now) }
  else ((s.makeRecord info).2).countStorm i

/-- An event of a source (13 R558). A disabled source counts nothing; a lasting detection starts spare replacement
all the same (R541). -/
def State.faultEvent (s : State) (i : Nat) : State :=
  let x := s.source i
  if !s.srcEnabled i then
    let s := s.modSource i fun y => { y with pending := false }
    match s.cellOfSource i with
    | some c => if x.pending then s.startReplacement c else s
    | none => s
  else
    let at_ := srcCntAt i
    let s := s.bumpField at_ 31 8
    let s := if x.openWin then s else
      ((s.setRegField at_ 7 0 0).groupBit 0x200 i false).modSource i fun y => { y with openWin := true }
    let s := s.bumpField at_ 7 0
    let s := if x.storm then s.modSource i fun y => { y with interval := y.interval + 1, stormEvents := y.stormEvents + 1 } else s
    if x.pending || decide (s.srcN i ≤ s.regField at_ 7 0) then s.severe i else s.minorEvent i

/-- The rails of a source as a sample reads them: P in bit 1 and N in bit 0. A detection drives P; TST_INJ inverts
(13 R556, R571). -/
def State.railsOf (s : State) (drawn : List (BitVec 11 × BitVec 2)) (i : Nat) : BitVec 2 × Bool :=
  let x := s.source i
  let rails : BitVec 2 := match drawn.find? fun e => e.1.toNat == i with
    | some e => e.2
    | none => if x.raw then 2 else 1
  let inj := s.reg (tstBase + 4)
  let sel := field inj 31 30
  if s.tstOpen ∧ sel ≠ 0 ∧ field inj 10 0 = i then
    (rails ^^^ ((if sel = 2 then 0 else 2) ||| (if sel = 1 then 0 else 1)), true)
  else (rails, false)

/-- One sample of one source (13 R556, R557): equal rails change nothing but their count; a change from idle to
asserted is an event. A source with its wire fault latched is treated as idle. -/
def State.sampleSource (s : State) (drawn : List (BitVec 11 × BitVec 2)) (i : Nat) : State :=
  let (rails, inj) := s.railsOf drawn i
  let x := s.source i
  let y := { x with raw := false, rails := rails }
  let set (s : State) (z : Source) : State := s.modSource i fun _ => z
  if rails = 0 ∨ rails = 3 then set s { y with samples := min 4 (x.samples + 1) }
  else
    let up : Bool := rails == 2 && !bit (s.reg (fclBase + 0x400 + 4 * (i / 32))) (i % 32)
    let s := set s { y with samples := 0, asserted := up, injected := inj && up }
    if up && !x.asserted then s.faultEvent i else s

/-- The sources that a sample can change: those with a detection, a level, a count or rails of their own. -/
def State.liveSources (s : State) (drawn : List (BitVec 11 × BitVec 2)) : List Nat :=
  let inj := if s.tstOpen ∧ field (s.reg (tstBase + 4)) 31 30 ≠ 0 then [field (s.reg (tstBase + 4)) 10 0] else []
  (List.range 1536).filter fun i =>
    drawn.any (fun e => e.1.toNat == i) || inj.contains i || (s.col.srcs.any fun e => e.1 == i)

/-- FAULT_SAMPLE (13 R556, R557, R571): every source's rails are sampled. `rails` names the sources whose rails are
not as their detections drive them. Without HOLD, RAIL clears after the sample. -/
def execFaultSample (rails : List (BitVec 11 × BitVec 2)) (s : State) : Outcome :=
  let s := s.each (s.liveSources rails) fun s i => s.sampleSource rails i
  .next (if s.tstOpen ∧ !bit (s.reg (tstBase + 4)) 29 then s.setRegField (tstBase + 4) 31 30 0 else s)

/-- Bit 31 of a group, the group's wire-fault source, is asserted (13 R557). -/
def State.assertWire (s : State) (g : Nat) : State :=
  let i := 32 * g + 31
  let x := s.source i
  let s := s.modSource i fun y => { y with asserted := true, injected := y.injected }
  if x.asserted then s else s.faultEvent i

/-- WIRE_FAULT (13 R557): the rails were equal for four samples. The source is idle, its bit is latched, and the
group's bit 31 is asserted. -/
def execWireFault (source : BitVec 11) (s : State) : Outcome :=
  let i := source.toNat
  if (s.source i).samples < 4 ∨ bit (s.reg (fclBase + 0x400 + 4 * (i / 32))) (i % 32) then idle s
  else
    let inj : Bool := (s.railsOf [] i).2
    let s := (s.groupBit 0x400 i true).modSource i fun y => { y with asserted := false }
    let s := s.modSource (i / 32 * 32 + 31) fun y => { y with injected := inj }
    .next (s.assertWire (i / 32))

/-- WIRE_FAULT_CLEAR (13 R557): the rails have differed for 1 ms. Bit 31 of the group is idle again when no bit of
the group stays latched. -/
def execWireFaultClear (source : BitVec 11) (s : State) : Outcome :=
  let i := source.toNat
  let rails := (s.source i).rails
  if rails = 0 ∨ rails = 3 ∨ !bit (s.reg (fclBase + 0x400 + 4 * (i / 32))) (i % 32) then idle s
  else
    let s := s.groupBit 0x400 i false
    .next (if s.reg (fclBase + 0x400 + 4 * (i / 32)) = 0 then
      s.modSource (i / 32 * 32 + 31) fun y => { y with asserted := false } else s)

/-- FAULT_WINDOW_END (13 R558): the window closes; a source that is still asserted is severe, and its level counts
once in the next window. -/
def execFaultWindowEnd (source : BitVec 11) (s : State) : Outcome :=
  let i := source.toNat
  if !(s.source i).openWin then idle s
  else
    let s := s.modSource i fun y => { y with openWin := false }
    if (s.source i).asserted && s.srcEnabled i then .next ((s.severe i).faultEvent i)
    else .next ((s.setRegField (srcCntAt i) 7 0 0).groupBit 0x200 i false)

/-- STORM_INTERVAL_END (13 R568): one second of system time ends. A storm with fewer than STORM_RATE / 4 events in
it is over: the kept record is logged, and a KIND 10 record counts the storm's events. -/
def execStormIntervalEnd (source : BitVec 11) (s : State) : Outcome :=
  let i := source.toNat
  let x := s.source i
  let s := s.modSource i fun y => { y with interval := 0 }
  if x.storm ∧ 4 * x.interval < s.regField fclBase 15 0 then
    let s := match x.kept with
      | some fr =>
        let (n, s) := s.nextRecno
        let (lost, s) : BitVec 16 × State := s.roomForRecord.takeLost
        { s with col := { s.col with store := s.col.store ++
          [({ fr := { fr with recno := n, lost := lost }, isOpen := false, logged := false, sticky := false } : Stored)] } }
      | none => s
    let s := s.modSource i fun y => { y with storm := false, stormEvents := 0, kept := none }
    .next (s.makeRecord { kind := 10, source := i, count := BitVec.ofNat 32 x.stormEvents }).2
  else .next s

/-! ### Records taken into the log (13 R562) -/

/-- A reaction of the record still runs: a replacement in its cluster, or a switch-over of its port. -/
def State.reacting (s : State) (r : Stored) : Bool :=
  let g := r.fr.source.toNat / 32
  r.fr.react.getLsbD 2 && ((decide (g < 16) && s.col.copying.any fun e => (clusterOf e.1).toNat == g)
    || (decide (36 ≤ g) && decide (g < 44) && (s.port (BitVec.ofNat 4 (g - 36))).switching))

/-- Records that are logged and have nothing left to wait for leave the store (13 R562). -/
def State.closeRecords (s : State) : State :=
  { s with col := { s.col with store := s.col.store.filter fun r => !(r.logged && (!r.isOpen || (!r.sticky && !s.reacting r))) } }

/-- RECORD_LOGGED (13 R562; 14 R617): Benus takes a record into the log. -/
def execRecordLogged (recno : Word) (s : State) : Outcome :=
  if !s.ben.running then idle s
  else
    match s.col.store.find? fun r => r.fr.recno == recno && !r.logged with
    | none => idle s
    | some r =>
      let part : Byte := match s.partsNamed r.fr.source.toNat with
        | [p] => p.setWidth 8
        | _ => noPart
      let s := s.log 1 part (recBytes r.fr)
      .next (s.modRecord recno fun x => { x with logged := true }).closeRecords

/-! ### The copy of a failed cell (13 R544, R545) -/

/-- The record under which an uncorrectable part of a copy is reported: the group's open one, after the state-copy
source has counted. -/
def State.copyRecord (s : State) (g : BitVec 4) : Word × State :=
  let s := s.faultEvent (clusterSource g 29)
  match s.openRecord g.toNat with
  | some r => (r.fr.recno, s)
  | none => (s.reg (fclBase + 0xC), s)

/-- State that the copy finds uncorrectable (13 R545, 02 R60). -/
def State.copyLoss (s : State) (c : CellId) (x : CopyLoss) : State :=
  match x with
  | .strand k =>
    if (s.slot c k).state = .idle then s
    else
      let f := frameOf (s.slot c k).act.ctx
      let (n, s) := s.copyRecord (clusterOf c)
      s.failContext f n
  | .header f =>
    if s.cellOf f = c ∧ (s.cell c).hdr.contains f then
      let (n, s) := s.copyRecord (clusterOf c)
      s.failContext f n
    else s
  | .queued i key =>
    let s := (s.copyRecord (clusterOf c)).2
    if key then (s.modCell c fun y => { y with inq := y.inq.eraseIdx i }).keyLost c
    else s.modCell c fun y => { y with inq := y.inq.mapIdx fun j q => if j = i then { q with tok := payloadLost q.tok } else q }
  | .ready i key =>
    let s := (s.copyRecord (clusterOf c)).2
    if key then (s.modCell c fun y => { y with ready := y.ready.eraseIdx i }).keyLost c
    else s.modCell c fun y =>
      { y with ready := y.ready.mapIdx fun j a => if j = i then { a with g1 := ⟨Tag.poison, 0⟩ } else a }
  | .stored set way key =>
    let s := (s.copyRecord (clusterOf c)).2
    if key then (s.modSet c set.toNat fun m => { m with ways := m.ways.eraseIdx way }).keyLost c
    else s.modSet c set.toNat fun m =>
      { m with ways := m.ways.mapIdx fun j t => if j = way then payloadLost t else t }
  | .retained id =>
    match s.copy ⟨.cell c, id⟩ with
    | none => s
    | some r => (s.copyRecord (clusterOf c)).2.substitute r.snd r.tok

/-- A strand resumes from its shadow on the spare (13 R544 step 6): a PARKED one executes WORKGET again. -/
def State.resumeStrand (s : State) (c : CellId) (k : SlotId) : State :=
  match (s.slot c k).state with
  | .idle | .entry | .commit => s.modSlot c k fun t => { t with retries := 0, lost := false }
  | _ => (((s.leaveQueue c k).restoreStrand c k).modSlot c k fun t => { t with retries := 0, lost := false })

/-- SPARE_RESUME (13 R544 steps 4 to 6, R545; 08 R356): the copy is done. `bad` is what it found uncorrectable. -/
def execSpareResume (cell : CellId) (bad : List CopyLoss) (s : State) : Outcome :=
  match s.col.copying.find? fun e => e.1 == cell with
  | none => idle s
  | some (_, p) =>
    let s := s.each bad fun s x => s.copyLoss cell x
    let s := (s.setRegField (clcCell cell 0xF40) 9 8 0).setRegField (clcCell cell 0xF40) 4 0 p
    let s := s.modCell cell fun x => { x with lines := [], linePtr := [], tlb := [], stopped := false }
    let s := { s with col := { s.col with copying := s.col.copying.filter fun e => e.1 != cell } }
    .next (s.each allSlots fun s k => s.resumeStrand cell k).closeRecords

/-! ### Twins (13 R549 to R554) -/

/-- The other twin of a cell (13 R575). -/
def State.peerOf (s : State) (c : CellId) : CellId :=
  let w := s.reg (clcCell c 0xF80)
  cellAt (BitVec.ofNat 4 (field w 7 4)) (field w 3 0)

/-- A pair is split: SPLIT is set in both registers, and a record of KIND 7 is logged (13 R554). -/
def State.splitPair (s : State) (c : CellId) : State :=
  let s := (s.setRegField (clcCell c 0xF80) 29 29 1).setRegField (clcCell (s.peerOf c) 0xF80) 29 29 1
  (s.makeRecord { kind := 7, source := clusterSource (clusterOf c) 26, cell := s.recCell c }).2

/-- A mismatch of a pair (13 R551): it is counted and the pair retries; past RETRY_MAX both cells test
themselves. -/
def State.twinMismatch (s : State) (c : CellId) (k : SlotId) : State :=
  let s := (s.bumpField (clcCell c 0xF80) 23 16).bumpField (clcCell (s.peerOf c) 0xF80) 23 16
  let s := (s.assertSrc (clusterSource (clusterOf c) 26)).countRetry c k
  if (s.slot c k).retries ≤ s.retryMax c then s
  else
    let s := s.modSlot c k fun t => { t with lost := true }
    { s with col := { s.col with selfTests := s.col.selfTests ++ [(c, k)] } }

/-- The slot waits for the digests of its pair at a commit point. -/
def State.atExchange (s : State) (c : CellId) (k : SlotId) : Bool :=
  s.twinned c && bit (s.reg (clcCell c 0xF80)) 31 && (s.slot c k).wait == .twin && !(s.cell c).stopped

/-- TWIN_DIGEST (13 R550, R551): the commit point completes when the digests match. -/
def execTwinDigest (cell : CellId) (slot : SlotId) (lead shadow : BitVec 64) (s : State) : Outcome :=
  if !s.atExchange cell slot then idle s
  else if lead = shadow then .next (s.modSlot cell slot fun t => { t with wait := .none, agreed := true })
  else .next (s.twinMismatch cell slot)

/-- TWIN_TIMEOUT (13 R551): a twin that sends no digest within TWIN_TO is a mismatch. -/
def execTwinTimeout (cell : CellId) (slot : SlotId) (s : State) : Outcome :=
  if s.atExchange cell slot then .next (s.twinMismatch cell slot) else idle s

/-- The shadow of a pair is replaced by a spare of its own cluster, of which only the control store is loaded; with
no free spare the pair splits, and the lead runs alone (13 R551). -/
def State.replaceShadow (s : State) (c : CellId) : State :=
  let d := s.peerOf c
  let g := clusterOf d
  let old := s.regField (clcCell d 0xF40) 4 0
  let s := s.markFailed g old
  match s.freeSpare g with
  | none => s.splitPair c
  | some p =>
    let s := s.loadSpare g old p
    (s.setRegField (clcCell d 0xF40) 4 0 p).modCell d fun x => { x with lines := [], linePtr := [], tlb := [] }

/-- TWIN_SELF_TEST_DONE (13 R551): what the self-tests of both cells gave. Both passed is a divergence. -/
def execTwinSelfTestDone (cell : CellId) (slot : SlotId) (leadPass shadowPass : Bool) (s : State) : Outcome :=
  if !(s.col.selfTests.contains (cell, slot)) then idle s
  else
    let s := { s with col := { s.col with selfTests := s.col.selfTests.filter (· != (cell, slot)) } }
    if leadPass && shadowPass then
      let t := s.slot cell slot
      let (n, s) := s.makeRecord { kind := 6, source := clusterSource (clusterOf cell) 26, cell := s.recCell cell
                                   sid := t.sid, ctx := t.act.ctx }
      .next (s.failContext (frameOf t.act.ctx) n)
    else
      let s := s.modSlot cell slot fun t => { t with retries := 0, lost := false }
      let s := if shadowPass then s else s.replaceShadow cell
      .next (if leadPass then s else s.startReplacement cell)

/-! ### ALIVE (13 R565, R566) -/

/-- Both feeds keep the watchdog running: after a reset, or once the outputs are armed again, they start it. -/
def State.fed (s : State) : State :=
  if s.col.armed && s.col.benusFed && s.col.collectorFed then
    let s := (s.setRegField (fclBase + 8) 31 31 0).setRegField (fclBase + 8) 30 29 0
    { s with col := { s.col with armed := false, aliveA := true, aliveB := false } }
  else s

/-- ALIVE_TOGGLE (13 R565): the outputs toggle in opposite phase while they are not stopped. -/
def execAliveToggle (s : State) : Outcome :=
  if bit (s.reg (fclBase + 8)) 31 then idle s
  else .next { s with col := { s.col with aliveA := !s.col.aliveA, aliveB := s.col.aliveA } }

/-- WATCHDOG_FEED_BENUS (13 R565). -/
def execWatchdogFeedBenus (s : State) : Outcome :=
  .next ({ s with col := { s.col with benusFed := true } }).fed

/-- WATCHDOG_FEED_COLLECTOR (13 R565). -/
def execWatchdogFeedCollector (s : State) : Outcome :=
  .next ({ s with col := { s.col with collectorFed := true } }).fed

/-- ALIVE_FEED_MISSING (13 R565): a feed has been missing for 50 ms, and the outputs stop. -/
def execAliveFeedMissing (benus : Bool) (s : State) : Outcome :=
  let col := if benus then { s.col with benusFed := false } else { s.col with collectorFed := false }
  let s := { s with col := col }
  .next ((s.stopAlive (if benus then 2 else 3)).assertSrc (platSource 9))

end Sys2Proof.Machine
end

