-- ==== Sys2Proof/Machine/Benus.lean ====
section
/-! DEFINITION. What Benus does with a mailbox command before its own effect (14 R581, R587, R593): the table
of commands with their lengths, who may send each, the objects each names and the range of each field, COMMAND_START;
and the commands of class INFO. -/

namespace Sys2Proof.Machine

/-! ### The commands (14 R603) -/

/-- The codes of R603. -/
def knownCmd (code : Nat) : Bool :=
  let n := code % 256
  decide (1 ≤ n) &&
    match code / 256 with
    | 0 => decide (n ≤ 7)
    | 1 => decide (n ≤ 15)
    | 2 => decide (n ≤ 9)
    | 3 => decide (n ≤ 3)
    | 4 => decide (n ≤ 1)
    | 5 => decide (n ≤ 4)
    | 6 => decide (n ≤ 3)
    | 7 => decide (n ≤ 7)
    | _ => false

/-- The payload length that a command requires (14 R603, R604). -/
def lenOk (code n : Nat) (p : List Byte) : Bool :=
  match code with
  | 0x0001 | 0x0005 | 0x0006 | 0x0007 | 0x0303 | 0x0603 | 0x0705 | 0x0706 => n == 0
  | 0x0103 | 0x0209 | 0x0503 | 0x0504 => n == 1
  | 0x0102 | 0x0108 | 0x010B | 0x0204 | 0x0205 | 0x0206 | 0x0502 | 0x0601 | 0x0703 => n == 2
  | 0x010F => n == 3
  | 0x0002 | 0x0004 | 0x0109 | 0x010C | 0x0302 => n == 4
  | 0x0301 | 0x0702 => n == 6
  | 0x0104 | 0x0105 | 0x0203 | 0x0208 => n == 8
  | 0x0201 | 0x0207 | 0x0704 => n == 9
  | 0x0202 => n == 10
  | 0x0003 => n == 12
  | 0x010D | 0x010E => n == 13
  | 0x0401 => n == 14
  | 0x0106 | 0x010A => n == 16
  | 0x0107 => n == 24
  | 0x0707 => n == 97
  | 0x0602 => n == 104
  | 0x0101 => decide (56 ≤ n) && n == 56 + 2 * bytesAt p 2 2
  | 0x0501 => decide (8 ≤ n)
  | 0x0701 => n == (if bytesAt p 1 1 = 3 then 56 else 8)
  | _ => true

/-- The Who column of R603: OPERATOR (which covers SERVICE, R591), HART, SUPERVISOR. `mod.zeroize` is accepted on
the SVC transport only (R599). -/
def whoMay (code : Nat) (b : Mailbox) : Bool :=
  let hart := !([0x0601, 0x0602, 0x0603, 0x0701, 0x0704, 0x0706, 0x0707].contains code)
  let sup := [0x0001, 0x0002, 0x0003, 0x0004, 0x0005, 0x0102, 0x0104, 0x0105, 0x0106, 0x0107, 0x0108, 0x010A, 0x010B,
    0x010C, 0x010D, 0x010E, 0x010F, 0x0201, 0x0203, 0x0204, 0x0205, 0x0206, 0x0207].contains code
  if b.owner = whoSupervisor then sup
  else if b.owner = whoHart then hart
  else if code = 0x0706 then b.transport == some .svc
  else code != 0x0703

/-- What a command names (14 R587, R593): the objects of R587, and cells. -/
inductive Obj where
  | part (p : BitVec 6)
  | sid (n : BitVec 16)
  | sub (n : BitVec 11)
  | slice (k : BitVec 3) (n : BitVec 6)
  | source (n : Nat)
  | pair (g : BitVec 4) (j : BitVec 2)
  | flow (f : BitVec 12)
  | update (k : Nat)
  | cell (c : CellId)
  deriving DecidableEq, Repr

/-- The objects that a command names (14 R603). -/
def named (code : Nat) (p : List Byte) : List Obj :=
  let byte (o : Nat) : Nat := bytesAt p o 1
  let half (o : Nat) : Nat := bytesAt p o 2
  let part (o : Nat) : List Obj := [.part (BitVec.ofNat 6 (byte o))]
  let sid (o : Nat) : List Obj := [.sid (BitVec.ofNat 16 (half o))]
  let pair : List Obj := [.pair (BitVec.ofNat 4 (byte 0)) (BitVec.ofNat 2 (byte 1))]
  let slice (k n : Nat) : List Obj := if n = 0xFF then [] else [.slice (BitVec.ofNat 3 k) (BitVec.ofNat 6 n)]
  match code with
  | 0x0004 => if half 0 = 0 then [] else sid 0
  | 0x0101 => part 0 ++ sid 40
  | 0x0102 | 0x0103 | 0x0104 | 0x0105 | 0x0109 | 0x010C | 0x0208 => part 0 ++ (if code = 0x0105 then sid 2 else [])
  | 0x0106 => part 0 ++ sid 12
  | 0x0107 => sid 0 ++ part 2
  | 0x0108 | 0x0207 => sid 0
  | 0x010A => pair ++ part 2
  | 0x010B => pair
  | 0x010D => part 0 ++ sid 2
  | 0x010E => .flow (BitVec.ofNat 12 (half 0)) :: part 2
  | 0x010F => part 0 ++ [.cell (cellAt (BitVec.ofNat 4 (byte 1)) (byte 2))]
  | 0x0201 => .sub (BitVec.ofNat 11 (half 0)) :: sid 2 ++ slice 0 (byte 6) ++ slice 1 (byte 7)
  | 0x0203 => slice (byte 0) (byte 1) ++ sid 2
  | 0x0204 | 0x0205 | 0x0206 => slice (byte 0) (byte 1)
  | 0x0301 => [.source (half 0)]
  | 0x0501 | 0x0502 => .update (byte 0) :: (if byte 0 = 4 then part 1 else [])
  | 0x0503 | 0x0504 => [.update (byte 0)]
  | _ => []

/-- The subchannel of its number (11 R454). -/
def subPort (n : BitVec 11) : BitVec 3 := (n >>> 8).setWidth 3
def subIndex (n : BitVec 11) : BitVec 8 := n.setWidth 8

/-- The partition to which an object belongs, none when it is not bound to one. -/
def State.objPart (s : State) (o : Obj) : Option (BitVec 6) :=
  match o with
  | .part p => some p
  | .sid n => s.partOfSid n
  | .sub n => let u := s.sub (subPort n) (subIndex n); if u.bound then some u.part else none
  | .slice k n => let x := s.slice k n; if x.state = slUnbound then none else some x.part
  | .pair g j =>
    let r := s.reg (pantryReg g j.toNat)
    if bit r 31 then some (BitVec.ofNat 6 (field r 29 24)) else none
  | .flow f => if (s.flow f).bound then some (s.flow f).part else none
  | .cell c => s.ownerOf c
  | .source _ | .update _ => none

/-- A SUPERVISOR may name an object: it is its own partition's; a SID, a subchannel, a slice, a flow and a Pantry
pair that no partition has may be named too, so that they can be bound (DEDUCED, assumption 42). -/
def State.mayName (s : State) (p : BitVec 6) (o : Obj) : Bool :=
  match s.objPart o with
  | some q => q == p
  | none => match o with | .cell _ => false | _ => true

/-- Two commands name the same object (14 R587): one that names a partition names every object of it. -/
def State.sameObject (s : State) (x y : Obj) : Bool :=
  let covers (a b : Obj) : Bool := match a with | .part p => s.objPart b == some p | _ => false
  x == y || covers x y || covers y x

/-! ### Field ranges (14 R603, R604) -/

/-- The fields of a command with the offset of each and whether it is in range, in the order of their offsets. -/
def State.fields (s : State) (code : Nat) (p : List Byte) : List (Nat × Bool) :=
  let v (o n : Nat) : Nat := bytesAt p o n
  let under (o n k : Nat) : Nat × Bool := (o, decide (v o n < k))
  let zero (o n : Nat) : Nat × Bool := (o, v o n == 0)
  let part (o : Nat) : Nat × Bool := under o 1 64
  let root (o : Nat) : Nat × Bool := (o, v o 8 % 2 ^ 16 == 0 && decide (v o 8 < 2 ^ 42))
  let modOrNone (o : Nat) : Nat × Bool := (o, v o 2 == 0xFFFF || decide (v o 2 < 4096))
  let inGroup (o : Nat) : Nat × Bool := (o, v o 2 == 0xFFFF || (decide (v o 2 < 4096) && v o 2 / 64 == s.hier.modn.toNat / 64))
  let isUnbind (o : Nat) : Bool := v o 1 == 1
  let cellarOk (o : Nat) : Nat × Bool := (o, decide (16 ≤ v o 4) && decide (v o 4 ≤ 4096))
  match code with
  | 0x0002 => [(2, decide (1 ≤ v 2 2) && decide (v 2 2 ≤ 126))]
  | 0x0003 => [(8, decide (24 ≤ v 8 2) && decide (v 8 2 ≤ 2024)), modOrNone 10]
  | 0x0101 =>
    [part 0, under 1 1 2, (2, decide (1 ≤ v 2 2) && decide (v 2 2 ≤ 256)),
      (12, (cellarOk 12).2 && decide (v 2 2 + 16 ≤ v 12 4 * 16)), under 18 1 32, zero 19 1,
      (32, v 32 2 == s.hier.modn.toNat), inGroup 34, inGroup 36, inGroup 38, (40, v 40 2 != 0), zero 42 6, root 48]
      ++ (List.range (v 2 2)).map fun i => under (56 + 2 * i) 2 256
  | 0x0102 => [part 0, under 1 1 2]
  | 0x0103 => [part 0]
  | 0x0104 => [part 0, zero 1 3, (4, (cellarOk 4).2 && decide ((s.part (BitVec.ofNat 6 (v 0 1))).cells.length + 16 ≤ v 4 4 * 16))]
  | 0x0105 => [part 0, zero 1 1]
  | 0x0106 => [part 0, under 1 1 32, (14, decide (4 ≤ v 14 1) && decide (v 14 1 ≤ 16)), zero 15 1]
  | 0x0107 => [(0, v 0 2 != 0), part 2, zero 3 5, root 8]
  | 0x0109 => [part 0, (1, decide (v 1 1 < 16) || v 1 1 == 0xFF)]
  | 0x010A => [under 0 1 16, under 1 1 4, part 2, zero 3 5, (8, v 8 8 % 2 ^ 21 == 0 && decide (v 8 8 < 2 ^ 42))]
  | 0x010B => [under 0 1 16, under 1 1 4]
  | 0x010C => [part 0, under 1 1 8]
  | 0x010D => [part 0, under 1 1 64, (8, isUnbind 12 || (decide (16 ≤ v 8 4) && decide (v 8 4 ≤ 65536))), under 12 1 2]
  | 0x010E => [under 0 2 4096, part 2, under 3 1 64, (8, decide (v 8 4 ≤ 1000000)), under 12 1 2]
  | 0x010F => [part 0, under 1 1 16, under 2 1 16]
  | 0x0201 => [under 0 2 2048, (6, decide (v 6 1 < 64) || v 6 1 == 0xFF), (7, decide (v 7 1 < 64) || v 7 1 == 0xFF), under 8 1 2]
  | 0x0202 => [under 0 1 8, zero 1 1]
  | 0x0203 =>
    [under 0 1 5, under 1 1 64, (4, isUnbind 7 || (decide (1 ≤ v 4 2) && decide (v 4 2 ≤ 256))),
      (6, isUnbind 7 || (decide (1 ≤ v 6 1) && decide (v 6 1 ≤ 127))), under 7 1 2]
  | 0x0204 | 0x0205 | 0x0206 => [under 0 1 5, under 1 1 64]
  | 0x0207 => [(8, decide (4 ≤ v 8 1) && decide (v 8 1 ≤ 16))]
  | 0x0208 => [part 0, zero 1 3]
  | 0x0209 => [under 0 1 8]
  | 0x0301 => [under 0 2 1536, under 2 1 2, under 3 1 32, (4, v 4 1 != 0), under 5 1 32]
  | 0x0401 => [under 8 4 1000000000]
  | 0x0501 => [(0, decide (1 ≤ v 0 1) && decide (v 0 1 ≤ 4)), part 1, under 2 1 4, zero 3 1]
  | 0x0502 => [(0, decide (1 ≤ v 0 1) && decide (v 0 1 ≤ 4)), part 1]
  | 0x0503 | 0x0504 => [(0, decide (1 ≤ v 0 1) && decide (v 0 1 ≤ 3))]
  | 0x0601 => [(0, v 0 2 / 64 % 4 == 0)]
  | 0x0602 => [(0, v 0 2 / 64 % 4 == 0), (4, decide (60 ≤ v 4 4) && decide (v 4 4 ≤ 86400))]
  | 0x0701 => [under 0 1 32, (1, decide (v 1 1 < 6) || v 1 1 == 0xFF), under 3 1 4, part 4, zero 5 3]
  | 0x0702 =>
    [under 0 1 4, zero 1 1, (2, decide (v 2 2 < (if v 0 1 = 2 then 64 else 4096))),
      (4, if v 0 1 = 3 then decide (v 4 2 < 4096) && v 4 2 / 64 == v 2 2 / 64 else (modOrNone 4).2)]
  | 0x0703 => [modOrNone 0]
  | 0x0704 => [under 8 1 2]
  | 0x0707 => [(0, v 0 1 == 4)]
  | _ => []

/-- The fields of the header, by their offset in it (14 R584; assumption 43). -/
def headerFields (b : Mailbox) : List (Nat × Bool) :=
  [(8, decide (b.flags < 2)), (10, b.transport == some .mbx || bytesAt b.request 10 2 == 0),
    (12, b.owner == whoHart || b.epoch == 0)]

/-! ### Checks (14 R593) -/

/-- The highest epoch seen in the scope of a Hart that sends to this module (15 R635): the system Hart sends to
a group Hart, the group Hart to every other module (DEDUCED, assumption 44). -/
def State.hartScope (s : State) : Word := if s.hier.role = 1 then s.hier.sepoch else s.hier.gepoch

/-- The first check that a request fails, with its DETAIL; none when it passes. -/
def State.checkRequest (s : State) (b : Mailbox) : Option (Nat × Nat) :=
  let p := b.payload
  let code := b.cmd
  if 2032 < b.len ∨ p.length < b.len ∨ !lenOk code b.len p then some (stLength, 0)
  else if !knownCmd code then some (stUnknown, 0)
  else if !b.classes.getLsbD (code / 256) then some (stClass, 0)
  else if !whoMay code b ∨ (b.owner = whoSupervisor ∧ (named code p).any fun o => !s.mayName b.part o) then
    some (stIdentity, 0)
  else if b.owner = whoHart ∧ b.epoch < s.hartScope.toNat then some (stStaleEpoch, 0)
  else ((headerFields b ++ s.fields code p).find? fun f => !f.2).map fun f => (stField, f.1)

/-- A higher epoch that a request of a Hart carries is kept (15 R634, R639). -/
def State.seeEpoch (s : State) (b : Mailbox) : State :=
  if b.owner = whoHart then s.sawEpoch (s.hier.role != 1) (BitVec.ofNat 32 b.epoch) else s

/-- The mailboxes whose commands run. -/
def State.runningMbx (s : State) : List (BitVec 5) := s.ben.order.filter fun m => (s.mbx m).state == mbRunning

/-- An earlier command that names the same object has not ended (14 R587). -/
def State.heldBack (s : State) (m : BitVec 5) : Bool :=
  let mine := named (s.mbx m).cmd (s.mbx m).payload
  let other (n : BitVec 5) : Bool :=
    let theirs := named (s.mbx n).cmd (s.mbx n).payload
    mine.any fun x => theirs.any (s.sameObject x)
  (s.ben.order.takeWhile (· != m)).any other

/-- COMMAND_START (14 R581, R586, R587, R593): a waiting command is checked; one that passes is journalled when it
changes module state, and runs. -/
def execCommandStart (m : BitVec 5) (s : State) : Outcome :=
  let b := s.mbx m
  if !s.ben.running || b.state != mbQueued || decide (8 ≤ s.runningMbx.length) || s.heldBack m then idle s
  else
    match s.checkRequest b with
    | some (status, detail) => .next ((s.setMbx m { b with state := mbRunning }).respond m status detail [])
    | none =>
      let s := (s.seeEpoch b).setMbx m { b with state := mbRunning, progress := 0 }
      .next (if b.cmd / 256 = 0 then s else { s with ben := { s.ben with journal := s.ben.journal ++ [m] } })

/-- Do `f` with the payload when the mailbox runs the command of a code, else nothing (assumption 3). -/
def onCommand (m : BitVec 5) (code : Nat) (s : State) (f : State → List Byte → State) : Outcome :=
  let b := s.mbx m
  if s.ben.running && b.state == mbRunning && b.cmd == code then .next (f s b.payload) else idle s

/-- The short forms of an answer. -/
def State.okay (s : State) (m : BitVec 5) (payload : List Byte) : State := s.respond m stOk 0 payload
def State.fails (s : State) (m : BitVec 5) (status : Nat) : State := s.respond m status 0 []

/-! ### Class INFO (14 R603, R613, R618, R623) -/

/-- A list of `n` bytes, filled up with 0. -/
def sized (n : Nat) (bs : List Byte) : List Byte := (bs ++ List.replicate n 0).take n

/-- The slots of an update kind, and the image and the patch that are active (14 R619). -/
def State.fwKind (s : State) (k : Nat) : FwKind := Map.get fw0 s.ben.fw k
def State.modFwKind (s : State) (k : Nat) (f : FwKind → FwKind) : State :=
  { s with ben := { s.ben with fw := Map.set fw0 s.ben.fw k (f (s.fwKind k)) } }
def FwKind.image (x : FwKind) (slotB : Bool) : List Byte := if slotB then x.imgB else x.imgA
def FwKind.over (x : FwKind) (slotB : Bool) : List Byte := if slotB then x.patchB else x.patchA
def imageVersion (img : List Byte) : Nat := bytesAt img 8 2

/-- A slot holds an image: slot A without another holds the one that the module is shipped with (00 R2; DESIGN CHOICE,
assumption 51); a slot with a patch alone holds the patch over that. -/
def FwKind.has (x : FwKind) (slotB : Bool) : Bool := !slotB || !(x.image slotB).isEmpty || !(x.over slotB).isEmpty

/-- The version that the module is shipped with (00 R2, 06 R268): Benus firmware and microcode 4.2, and the channel
firmware released with them. -/
def shippedVersion (kind : Nat) : Nat := if kind = 3 then Config.channelVersion.toNat else 0x0402

/-- The version of the image in a slot, a patch aside (14 R619, R623); an empty slot B shows 0. -/
def FwKind.baseVersion (x : FwKind) (kind : Nat) (slotB : Bool) : Nat :=
  if x.image slotB ≠ [] then imageVersion (x.image slotB) else if x.has slotB then shippedVersion kind else 0

/-- The version of what a slot holds: its patch's where it has one (14 R619). -/
def FwKind.version (x : FwKind) (kind : Nat) (slotB : Bool) : Nat :=
  if x.over slotB ≠ [] then imageVersion (x.over slotB) else x.baseVersion kind slotB

/-- ORDER and SERIAL (14 R603). FREE VALUE: what they read (assumption 2). -/
def orderText : List Byte := sized 24 Config.identity
def serialText : List Byte := sized 16 (Config.identity.drop 24)

/-- `mod.identity` (14 R603). -/
def execModIdentity (m : BitVec 5) (s : State) : Outcome :=
  onCommand m 0x0001 s fun s _ =>
    let ver (k : Nat) : List Byte := natLe 2 ((s.fwKind k).version k (s.fwKind k).active)
    s.okay m (natLe 2 s.hier.modn.toNat ++ [s.hier.role.setWidth 8, 0x21] ++ ver 1 ++ ver 2 ++ ver 3 ++ [0, 0]
      ++ orderText ++ serialText)

/-- The unit of a sensor, by its index (14 R612, R613); none for an ID that does not exist. -/
def sensorUnit (id : Nat) : Option Nat :=
  if id ≤ 0x17 then some 0
  else if id = 0x18 then some 1
  else if id = 0x19 then some 2
  else if id = 0x1A then some 3
  else if id = 0x20 ∨ id = 0x21 then some 4
  else if id = 0x22 ∨ id = 0x23 then some 5
  else if id = 0x24 ∨ id = 0x25 then some 6
  else if id = 0x26 ∨ id = 0x27 then some 7
  else if id = 0x28 then some 8
  else if 0x30 ≤ id ∧ id ≤ 0x35 then some 9
  else if 0x38 ≤ id ∧ id ≤ 0x3D then some 5
  else if 0x40 ≤ id ∧ id ≤ 0x50 then some 9
  else if 0x60 ≤ id ∧ id ≤ 0x70 then some 10
  else if id = 0x80 ∨ id = 0x81 then some 9
  else if 0x90 ≤ id ∧ id ≤ 0x9F then some 11
  else none

def State.sensor (s : State) (id : Nat) : Sensor := Map.get sensor0 s.ben.sensors id

/-- The record of a sensor that exists (14 R613). -/
def sensorBytes (id unit : Nat) (x : Sensor) : List Byte :=
  natLe 2 id ++ natLe 1 unit ++ natLe 1 x.state.toNat ++ wordBytes x.value ++ wordBytes x.low ++ wordBytes x.high

/-- A sensor's record. FREE VALUE: UNIT, MIN and MAX of an ID that does not exist, and the values of a sensor
that has not been sampled since the reset (assumption 45). -/
def State.sensorRecord (s : State) (id : Nat) : List Byte × State :=
  match sensorUnit id with
  | none =>
    let (u, s) := s.drawBytes 1
    let (r, s) := s.drawBytes 8
    (natLe 2 id ++ u ++ [3, 0, 0, 0, 0] ++ r, s)
  | some u =>
    let x := s.sensor id
    if x.seen then (sensorBytes id u x, s)
    else
      let (r, s) := s.drawBytes 12
      (natLe 2 id ++ [BitVec.ofNat 8 u, 0] ++ r, s)

/-- The records of `n` sensors from an ID on. -/
def State.sensorRecords (s : State) (id : Nat) : Nat → List Byte × State
  | 0 => ([], s)
  | n + 1 =>
    let (r, s) := s.sensorRecord (id % 65536)
    let (rs, s) := s.sensorRecords (id + 1) n
    (r ++ rs, s)

/-- `sensor.read` (14 R603, R613). -/
def execSensorRead (m : BitVec 5) (s : State) : Outcome :=
  onCommand m 0x0002 s fun s p =>
    let (r, s) := s.sensorRecords (bytesAt p 0 2) (bytesAt p 2 2)
    s.okay m r

/-- A log record as it is read (14 R616). -/
def logRecBytes (r : LogRec) : List Byte :=
  natLe 4 r.lseq.toNat ++ natLe 8 r.time.toNat ++ wordBytes r.cal ++ [r.typ, 0] ++ natLe 2 r.body.length
    ++ natLe 2 r.modn.toNat ++ [r.part, 0] ++ sized ((r.body.length + 7) / 8 * 8) r.body

/-- Take whole records that match, up to a number of bytes: the bytes and the LSEQ to read from next. -/
def takeRecords (room : Nat) (keep : LogRec → Bool) (after : Nat) : List LogRec → List Byte × Nat
  | [] => ([], after)
  | r :: rs =>
    if !keep r then takeRecords room keep (r.lseq.toNat + 1) rs
    else
      let bs := logRecBytes r
      if room < bs.length then ([], r.lseq.toNat)
      else
        let (more, next) := takeRecords (room - bs.length) keep (r.lseq.toNat + 1) rs
        (bs ++ more, next)

/-- `log.read` (14 R603, R618). The mirrored log of another module is held at a Hart only. -/
def execLogRead (m : BitVec 5) (s : State) : Outcome :=
  onCommand m 0x0003 s fun s p =>
    let b := s.mbx m
    let start := bytesAt p 0 4
    let mask := BitVec.ofNat 32 (bytesAt p 4 4)
    let of_ := bytesAt p 10 2
    let own := of_ == 0xFFFF || of_ == s.hier.modn.toNat
    if !own && s.hier.role != 1 && s.hier.role != 2 then s.fails m stNotFound
    else
      let held := if own then s.ben.flash ++ s.ben.ram else s.ben.hartLog.filter fun r => r.modn.toNat == of_
      let last := match held.getLast? with | some r => r.lseq.toNat | none => if own then s.ben.lseq.toNat else 0
      let head := match held.head? with | some r => r.lseq.toNat | none => last + 1
      let keep (r : LogRec) : Bool :=
        bit mask r.typ.toNat && (b.owner != whoSupervisor || r.part == b.part.setWidth 8)
      let from_ := held.filter fun r => decide (start ≤ r.lseq.toNat)
      let (bs, next) := takeRecords (bytesAt p 8 2) keep (last + 1) from_
      s.okay m (natLe 4 head ++ natLe 4 next ++ bs)

/-- `ledger.status` (14 R603). QUOTA is that of the partition whose entries are shown; for all partitions at once
it is the sum of theirs (DESIGN CHOICE, assumption 46). -/
def execLedgerStatus (m : BitVec 5) (s : State) : Outcome :=
  onCommand m 0x0004 s fun s p =>
    let b := s.mbx m
    let sid := BitVec.ofNat 16 (bytesAt p 0 2)
    let visible (e : Ledger) : Bool :=
      e.state != ldFree && (sid == 0 || e.sid == sid) && (b.owner != whoSupervisor || e.part == b.part)
    let mine := (s.ledger.map Prod.snd).filter visible
    let doubt := mine.filter fun e => e.state == ldInDoubt
    let quota :=
      if b.owner = whoSupervisor then (s.part b.part).ledgerQuota
      else match s.partOfSid sid with
        | some q => (s.part q).ledgerQuota
        | none => (s.liveParts.map fun q => (s.part q).ledgerQuota).sum
    let shown := (doubt.drop (bytesAt p 2 2)).take 31
    s.okay m (natLe 4 mine.length ++ natLe 4 doubt.length ++ natLe 4 quota ++ natLe 4 shown.length
      ++ (shown.map fun e => (e.words.map wordBytes).flatten).flatten)

/-- `time.get` (14 R603, R625). -/
def execTimeGet (m : BitVec 5) (s : State) : Outcome :=
  onCommand m 0x0005 s fun s _ =>
    let b := s.ben
    let flags := (if b.calValid then 1 else 0) + (if s.hier.holdover then 2 else 0) + (if b.backup then 4 else 0)
    s.okay m (natLe 8 b.tai.toNat ++ natLe 4 b.taiNs.toNat ++ natLe 2 b.utcOff.toNat ++ [b.calSource] ++ natLe 1 flags
      ++ natLe 8 s.now.toNat)

/-- The entries of `mem.telemetry` from channel `k` on. FREE VALUE: a channel's temperature (assumption 47). -/
def State.channelEntries (s : State) : Nat → List Byte × State
  | 0 => ([], s)
  | n + 1 =>
    let k := 19 - n
    let (corr, uncorr) := Map.get (0, 0) s.memErrs k
    let failed := bit (s.reg (dirBase (4 * (k / 5)) + 0x18)) (k % 5)
    let (t, s) := s.drawBytes 2
    let (more, s) := s.channelEntries n
    (natLe 1 k ++ [if failed then 1 else 0] ++ t ++ natLe 4 corr ++ natLe 4 uncorr ++ more, s)

/-- `mem.telemetry` (14 R603, 10 R416). -/
def execMemTelemetry (m : BitVec 5) (s : State) : Outcome :=
  onCommand m 0x0006 s fun s _ =>
    let (bs, s) := s.channelEntries 20
    s.okay m bs

/-- The staging area of a kind, and of a partition for kind 4 (14 R621). -/
def stageKey (kind part : Nat) : Nat := if kind = 4 then 64 + part else kind
def State.staged (s : State) (key : Nat) : Staging := Map.get staging0 s.ben.staging key
def State.setStaged (s : State) (key : Nat) (x : Staging) : State :=
  { s with ben := { s.ben with staging := Map.set staging0 s.ben.staging key x } }

/-- A cluster's cells are bound to different banks (06 R279). -/
def State.isMixed (s : State) (g : Nat) : Bool := bit (s.ucStat g) 1

/-- An entry of `fw.status` (14 R623). -/
def State.fwEntry (s : State) (k : Nat) : List Byte :=
  let x := s.fwKind k
  let st := s.staged (stageKey k 0)
  let mixed := k == 2 && (List.range 16).any s.isMixed
  [BitVec.ofNat 8 k, if x.active then 1 else 0, if st.complete then 2 else if st.bytes = [] then 0 else 1,
      BitVec.ofNat 8 ((if x.trial then 1 else 0) + (if mixed then 2 else 0))]
    ++ natLe 2 (x.baseVersion k false) ++ natLe 2 (x.baseVersion k true) ++ natLe 2 (imageVersion (x.over x.active))
    ++ natLe 2 x.counter ++ natLe 4 st.bytes.length

/-- `fw.status` (14 R603, R623). -/
def execFwStatus (m : BitVec 5) (s : State) : Outcome :=
  onCommand m 0x0007 s fun s _ => s.okay m (s.fwEntry 1 ++ s.fwEntry 2 ++ s.fwEntry 3)

end Sys2Proof.Machine
end

