-- ==== Sys2Proof/Machine/Placement.lean ====
section
/-! DEFINITION. Placement's samples and directives (07 R287, R291, R292), the migration of frames (07 R294 to
R306), the context map's router caches (07 R300), page moves (07 R307 to R309) and items that outlive their
limit (07 R319). -/

namespace Sys2Proof.Machine

/-! ### Samples and directives -/

/-- PLACEMENT_SAMPLE (07 R287): every cell publishes its input queue, its ready list and its resident frames. -/
def execPlacementSample (s : State) : Outcome :=
  .next (s.each allCells fun s c =>
    let x := s.cell c
    { s with samples := Map.set (0, 0, 0) s.samples c.toNat (x.inq.length, x.ready.length, (s.framesOn c).length) })

/-- PLACEMENT_DIRECTIVE (07 R291, 15 R635, R639): obeyed when its epoch is not below the highest seen. -/
def execPlacementDirective (part : BitVec 6) (epoch : Word) (weights : List (BitVec 12 × BitVec 8)) (s : State) :
    Outcome :=
  let x := s.part part
  if !x.isLive then idle s
  else if epoch < s.hier.gepoch ∨ epoch < x.epoch then .next s
  else
    let mine := weights.filter fun w => x.span.contains w.1
    .next ((s.setPart part { x with weights := mine, epoch := epoch }).sawEpoch true epoch)

/-- DIRECTIVE_ABSENT (07 R292): no directive for 100 ms, and every ALLOC places on its own module. -/
def execDirectiveAbsent (s : State) : Outcome :=
  .next { s with parts := s.parts.map fun (k, x) => (k, { x with weights := [] }) }

/-! ### Migration (07 R294 to R306) -/

/-- Migrations in progress that leave or enter a cluster (07 R298). -/
def State.migrations (s : State) (g : BitVec 4) : Nat :=
  (s.inMove.filter fun e => clusterOf e.2.1 == g || clusterOf e.2.2 == g).length

/-- A frame is chosen for migration (07 R297), by the counters of its header. -/
def State.migrates (s : State) (c : CellId) (x : Frame) : Bool :=
  let ctrl := s.reg (clcBase (clusterOf c).toNat + 0xD00)
  let p := s.part x.part
  bit ctrl 16 && x.holdLeft == 0 && (x.state == stActive || x.state == stStalled)
    && decide (2 ^ field ctrl 23 20 ≤ x.total.toNat)
    && decide (field ctrl 11 6 * x.total.toNat ≤ x.remote.toNat * 64)
    && x.candCl != clusterOf c && decide (x.total.toNat ≤ x.candCnt.toNat * 4)
    && !x.nomig && x.aff == 0 && !p.twin
    && (!x.pin || (s.pinSet x.part x.port).getLsbD x.candCl.toNat)
    && p.cells.any fun y => clusterOf y == x.candCl && !s.noPlace y

/-- The cell of the candidate cluster to which a frame goes (07 R301). -/
def State.newCell (s : State) (c : CellId) (x : Frame) : Option CellId :=
  let q : Placing := { part := x.part, cls := x.cls, port := x.port, pin := x.pin, nomig := x.nomig, aff := x.aff
                       ref := clusterOf c }
  s.bestCell q ((s.part x.part).cells.filter fun y => clusterOf y == x.candCl && !s.noPlace y)

/-- Steps 1 and 2 of a migration (07 R301): the forwarding entry, which holds the frame's activities back from SA, the
place at the new cell, and MOVING. The HEADER message of step 3 follows. -/
def State.startMigration (s : State) (c : CellId) (f : BitVec 20) (n : CellId) : State :=
  let s := s.modCell c fun y =>
    { y with fwd := y.fwd ++ [{ frame := f, target := n, marks := [], scanned := false, moved := false }] }
  let s := { (s.modCtxEnt f fun e => { e with moving := true }) with inMove := s.inMove ++ [(f, c, n)] }
  let (inq, ready, frames) := Map.get (0, 0, 0) s.samples n.toNat
  let s := { s with samples := Map.set (0, 0, 0) s.samples n.toNat (inq, ready + 1, frames)
                    placePtr := (n.toNat + 1) % 256 }
  s.post (.header f)

/-- A migration may start out of the cell into the cluster (07 R298, R302, R305). -/
def State.mayMigrate (s : State) (c : CellId) (g : BitVec 4) : Bool :=
  (s.cell c).fwd.length == 0 && !(s.inMove.any fun e => e.2.1 == c) && !(s.cell c).draining && !(s.cell c).stopped
    && decide (s.migrations (clusterOf c) < 4) && decide (s.migrations g < 4)

/-- MIGRATION_WINDOW_END (07 R297, R298, R301): the frames in the cell's header cache are evaluated and their
counters start anew. -/
def execMigrationWindowEnd (cell : CellId) (s : State) : Outcome :=
  .next (s.each (s.cell cell).hdr fun s f =>
    let x := s.frame f
    if s.cellOf f != cell || x.state == stFree then s
    else
      let s := s.modFrame f fun x =>
        { x with total := 0, remote := 0, candCl := 0, candCnt := 0, holdLeft := x.holdLeft - (if x.holdLeft = 0 then 0 else 1) }
      if s.migrates cell x && s.mayMigrate cell x.candCl then
        match s.newCell cell x with
        | some n => s.startMigration cell f n
        | none => s
      else s)

/-- Change the forwarding entry of a frame at a cell. -/
def State.modFwd (s : State) (c : CellId) (f : BitVec 20) (upd : FwdEnt → FwdEnt) : State :=
  s.modCell c fun x => { x with fwd := x.fwd.map fun e => if e.frame = f then upd e else e }

/-- The transfer point of a migration (07 R301 step 3): STATE becomes MIGRATING, and from here on the old cell forwards
what reaches it. -/
def State.transferFrame (s : State) (c : CellId) (f : BitVec 20) : State :=
  let s := s.modFrame f fun x => { x with saved := x.state, state := stMigrating, due := false }
  let s := (s.modFwd c f fun e => { e with moved := true }).modCell c fun x => { x with hdr := x.hdr.filter (· != f) }
  (s.bumpField (clcCell c 0xD80) 31 16).pmc c none 0x42

/-- HEADER (07 R301 steps 3, 5): the old cell passes the transfer point, and the new one takes ownership, loads the
header (FREE VALUE: the header that leaves a full cache) and confirms. The message's way is no step of its own
(DESIGN CHOICE, assumption 95). -/
def execHeader (frame : BitVec 20) (s : State) : Outcome :=
  onArrival (.header frame) s fun s =>
    match s.leaving frame with
    | none => .next s
    | some (c, e) =>
      let (r, s) := (s.transferFrame c frame).draw
      let s := s.modCell e.target fun x => { x with hdr := insertRandom 512 x.hdr frame r.toNat }
      .next ((s.bumpField (clcCell e.target 0xD80) 15 0).post (.headerConfirm frame))

/-- The operand tokens of a held activity. -/
def Activity.tokens (a : Activity) (sid : BitVec 16) : List Token :=
  if a.used = 2 then
    [mkToken a.ctx a.stmt a.iter portLeft 0 sid a.g1, mkToken a.ctx a.stmt a.iter portRight 0 sid a.g2]
  else [mkToken a.ctx a.stmt a.iter a.port 0 sid a.g1]

/-- A frame's entries of a set's spill chain leave it; `fuel` is the chain's length. -/
def State.takeSpilled (s : State) (p : BitVec 6) (c : CellId) (k : Nat) (f : BitVec 20) : Nat → List Token × State
  | 0 => ([], s)
  | n + 1 =>
    let head := s.peekData (s.spillDir p c k)
    match (s.chainList p head).find? fun e => frameOf e.2.2.ctx == f with
    | none => ([], s)
    | some (b, e, t) =>
      let (h, s) := s.chainRemove p head b e
      let s := (s.setSpillDir p c k h).modSet c k fun m => { m with spill := spillLess m.spill (h == 0) }
      let s := s.bump (clcCell c 0x900)
      let (ts, s) := State.takeSpilled s p c k f n
      (t :: ts, s)

/-- The waiting tokens of a frame leave the matching store and the spill chains of its old cell. -/
def State.takeWaiting (s : State) (p : BitVec 6) (c : CellId) (f : BitVec 20) : List Token × State :=
  let sets := (s.cell c).ms.map Prod.fst
  sets.foldl (fun (ts, s) k =>
    let m := Map.get ms0 (s.cell c).ms k
    let mine := m.ways.filter fun t => frameOf t.ctx == f
    let s := s.modSet c k fun m => { m with ways := m.ways.filter fun t => frameOf t.ctx != f }
    let n := if m.spill = 0 then 0 else (s.chainList p (s.peekData (s.spillDir p c k))).length
    let (sp, s) := s.takeSpilled p c k f n
    (ts ++ mine ++ sp, s)) ([], s)

/-- MIGRATION_SCAN_DONE (07 R301 step 4, R303, R306): the held activities' operands and every waiting token go
to the new cell, already counted. -/
def execMigrationScanDone (frame : BitVec 20) (s : State) : Outcome :=
  match s.leaving frame with
  | none => idle s
  | some (c, e) =>
    if e.scanned || !e.moved then idle s
    else
      let x := s.frame frame
      let mine (a : Activity) : Bool := frameOf a.ctx == frame
      let acts := (((s.cell c).ready.filter mine).map fun a => a.tokens x.sid).flatten
      let s := s.modCell c fun y => { y with ready := y.ready.filter fun a => !mine a }
      let (waiting, s) := s.takeWaiting x.part c frame
      let s := s.each (acts ++ waiting) fun s t =>
        s.post (.tokenAccept e.target t ⟨.cell c, 0⟩ (clusterOf c) .transferred)
      .next ((s.modFwd c frame fun e => { e with scanned := true }).tryEndFwd c frame)

/-- HEADER_CONFIRM (07 R301 step 6): the context map names the new cell, and every router is told. -/
def execHeaderConfirm (frame : BitVec 20) (s : State) : Outcome :=
  onArrival (.headerConfirm frame) s fun s =>
    match s.leaving frame with
    | none => .next s
    | some (_, e) =>
      let s := s.modCtxEnt frame fun y => { y with cell := e.target, version := y.version + 1 }
      .next (s.postAll (allClusters.map fun g => Instr.mapInvalidate g frame))

/-- MAP_INVALIDATE (07 R301 step 7): the router drops its entry and marks the end of its routing. -/
def execMapInvalidate (cluster : BitVec 4) (frame : BitVec 20) (s : State) : Outcome :=
  onArrival (.mapInvalidate cluster frame) s fun s =>
    .next ((s.modCluster cluster fun cl => { cl with mapCache := cl.mapCache.filter fun e => e.1 != frame }).post
      (.mapMark cluster frame))

/-- MAP_MARK (07 R301 steps 7, 8). -/
def execMapMark (cluster : BitVec 4) (frame : BitVec 20) (s : State) : Outcome :=
  onArrival (.mapMark cluster frame) s fun s =>
    match s.leaving frame with
    | none => .next s
    | some (c, _) =>
      .next ((s.modFwd c frame fun e => { e with marks := e.marks.filter (· != cluster) ++ [cluster] }).tryEndFwd c frame)

/-- Tokens of a frame that its old cell has forwarded or sent are on their way. -/
def State.tokensComing (s : State) (f : BitVec 20) : Bool :=
  s.wire.any fun c =>
    match c with
    | .tokenAccept _ t _ _ _ => frameOf t.ctx == f
    | _ => false

/-- END_FWD (07 R301 step 9): the frame has its STATE back. The message follows every token that the old cell
has sent. A context whose COUNT a commit or an acknowledgement brought to 0 meanwhile completes now (02 R74). -/
def execEndFwd (frame : BitVec 20) (s : State) : Outcome :=
  if s.tokensComing frame then idle s
  else
    onArrival (.endFwd frame) s fun s =>
      let hold := s.regField (clcBase (clusterOf (s.cellOf frame)).toNat + 0xD00) 15 12
      let s := s.modFrame frame fun x =>
        if x.state = stMigrating then { x with state := x.saved, saved := 0, holdLeft := BitVec.ofNat 4 hold } else x
      let s := { (s.modCtxEnt frame fun e => { e with moving := false }) with
        inMove := s.inMove.filter fun e => e.1 != frame }
      .next (if (s.frame frame).due then (s.modFrame frame fun x => { x with due := false }).tryComplete frame else s)

/-- CONTEXT_MAP_FILL (07 R300): a router reads a frame's entry and keeps the cell it names: 8,192 entries, eight ways,
one of which leaves at random (FREE VALUE). The set is the frame number modulo 1,024 (DESIGN CHOICE, assumption 28). -/
def execContextMapFill (cluster : BitVec 4) (frame : BitVec 20) (s : State) : Outcome :=
  if (s.cluster cluster).mapCache.any fun e => e.1 == frame then idle s
  else
    let cell := s.cellOf frame
    let (r, s) := s.draw
    .next (s.modCluster cluster fun cl =>
      let same (g : BitVec 20 × CellId) : Bool := g.1.toNat % 1024 == frame.toNat % 1024
      { cl with mapCache := (cl.mapCache.filter fun g => !same g)
                              ++ insertRandom 8 (cl.mapCache.filter same) (frame, cell) r.toNat })

/-! ### Page moves (07 R307 to R309) -/

/-- The partition's block that a machine block of this module backs, with its leaf entry. -/
def State.leafOf (s : State) (b : Nat) : Option (BitVec 6 × Nat × BitVec 64) :=
  s.parts.findSome? fun e =>
    if !e.2.isLive then none
    else
      let p := BitVec.ofNat 6 e.1
      (List.range e.2.memBlocks).findSome? fun pblk =>
        let pa := pblk * 2 ^ 21
        match s2Table (s.peek64 (s.s2RootAt p pa)) with
        | none => none
        | some t =>
          let l := s.peek64 (s2LeafAt t pa)
          if l.getLsbD 0 && bits64 l 19 8 == s.hier.modn.toNat && bits64 l 50 32 == b && !l.getLsbD 2 then
            some (p, pblk, l) else none

/-- What a window's samples of a block ask for (07 R307): a move to another position of the coherence group, or
another HOMING. -/
inductive PageWish where
  | stay
  | toModule (pos : Nat)
  | homing (h : BitVec 3)
  deriving DecidableEq, Repr

/-- At least `k` of each 64 samples. -/
def share64 (k n total : Nat) : Bool := decide (k * total ≤ n * 64)

def pageWish (own : Nat) (homing : BitVec 3) (samples : List Agent) : PageWish :=
  let n := samples.length
  let fromPos (m : Nat) := (samples.filter fun a => a.toNat / 16 == m).length
  let fromRow (r : Nat) := (samples.filter fun a => a.toNat % 16 / 4 == r).length
  match (List.range 4).find? fun m => m != own && share64 48 (fromPos m) n with
  | some m => .toModule m
  | none =>
    match (List.range 4).find? fun r => homing != BitVec.ofNat 3 (r + 1) && share64 48 (fromRow r) n with
    | some r => .homing (BitVec.ofNat 3 (r + 1))
    | none =>
      if homing != 0 && (List.range 4).all fun r => !share64 24 (fromRow r) n then .homing 0 else .stay

/-- Start a move (07 R308 steps 1, 2), when one of the four is free, no other moves the block and the pool that Benus
reserves for moves has a block (08 R327). A move to
another module takes that module's place in the partition's span (DESIGN CHOICE, assumption 29; FREE VALUE: the
block that the other module takes). -/
def State.startMove (s : State) (b : Nat) (p : BitVec 6) (pblk : Nat) (homing : BitVec 3) (wish : PageWish) : State :=
  if s.moves.any fun e => e.2.active && e.2.source == b then s
  else
    match ((List.range 4).map (BitVec.ofNat 2)).find? fun m => !(s.move m).active with
    | none => s
    | some m =>
      let go (s : State) (target : Nat) (h : BitVec 3) : State :=
        s.setMove m { active := true, part := p, pblk := pblk, source := b, target := target, homing := h, copied := 0 }
      match wish with
      | .stay => s
      | .homing h =>
        match s.ben.movePool with
        | t :: rest =>
          let s := { s with ben := { s.ben with movePool := rest, blocks := s.ben.blocks ++ [(t, 1)] } }
          go s (s.hier.modn.toNat * 2 ^ 19 + t) h
        | [] => s
      | .toModule pos =>
        match (s.part p).span[pos]? with
        | none => s
        | some md =>
          let (r, s) := s.draw
          if md = s.hier.modn then s else go s (md.toNat * 2 ^ 19 + firstFreeBlock + r.toNat % (2 ^ 19 - firstFreeBlock)) homing

/-- PAGE_SAMPLE_WINDOW (07 R307): a block with at least 32 samples may be chosen; FIXED blocks never move. -/
def execPageSampleWindow (home : BitVec 4) (s : State) : Outcome :=
  let on := bit (s.reg (clcBase home.toNat + 0xD00)) 24
  let own := s.regField (dirBase home.toNat + 0xC) 1 0
  let table := (s.home home).pageSamples
  let s := s.modHome home fun x => { x with pageSamples := [] }
  if !on then .next s
  else
    .next (s.each table fun s (b, as_) =>
      if as_.length < 32 then s
      else
        match s.leafOf b with
        | none => s
        | some (p, pblk, l) =>
          let homing := BitVec.ofNat 3 (bits64 l 5 3)
          if l.getLsbD 1 then s else s.startMove b p pblk homing (pageWish own homing as_))

/-- The agents of other modules that the directory of a home names for a sector, and whether one of them owns it. -/
def Home.awayAgents (x : Home) (own : Agent → Bool) (sec : Nat) : List Agent × Bool :=
  let es := x.dir.filter fun e => e.2.v && e.2.tag == sec / 4 && e.2.state (sec % 4) != 0
  let owners := (es.filter fun e => e.2.state (sec % 4) == 2 && !own (e.2.ownerOf (sec % 4))).map fun e => e.2.ownerOf (sec % 4)
  let sharers := (es.filter fun e => e.2.state (sec % 4) == 1).map fun e => e.2.sharers.filter fun a => !own a
  ((owners ++ sharers.flatten).eraseDups, !owners.isEmpty)

/-- The old home recalls one sector of a moving block (07 R308 step 3): from this module's caches, and by a probe from
the agents of other modules. FREE VALUE: what an owner of another module sends. -/
def State.recallForMove (s : State) (sec : Nat) : State :=
  let s := s.recall sec
  s.each allClusters fun s h =>
    let (as_, owned) := (s.home h).awayAgents s.isOwnAgent sec
    let s := s.each as_ fun s a => s.emit (.message (.prbI a sec))
    let s := if !owned then s
      else
        s.each (List.range 16) fun s i =>
          let (v, s) := s.draw
          s.poke (sec * 16 + i) ⟨(v >>> 32).setWidth 4, v.setWidth 32⟩
    s.modHome h fun x => x.uncache sec

/-- The sectors of a 2 MiB block that the directory of a home names agents of other modules for. -/
def Home.awaySectors (x : Home) (own : Agent → Bool) (b : Nat) : List Nat :=
  (x.dir.filter fun e => e.2.v && bigBlock (e.2.tag * 64) == b).flatMap fun e =>
    ((List.range 4).map (e.2.tag * 4 + ·)).filter fun sec => (x.awayAgents own sec).1 != []

/-- The copies of a 2 MiB block in the caches of other modules of the coherence group are recalled (09 R392 step 3). -/
def State.recallAway (s : State) (b : Nat) : State :=
  s.each (allClusters.flatMap fun h => (s.home h).awaySectors s.isOwnAgent b) fun s sec =>
    if s.isOwn (sec * 16) then s.recallForMove sec else s

/-- PAGE_MOVE_BLOCK_COPY (07 R308 steps 3 to 5, R309): the next 256 bytes are recalled and copied; a word that is
uncorrectable becomes POISON (FREE VALUE: its data). After the last the stage-2 entry is rewritten. -/
def execPageMoveBlockCopy (move : BitVec 2) (uncorrectable : Option (BitVec 6)) (s : State) : Outcome :=
  let m := s.move move
  let w0 := s.hier.modn.toNat * wordsPerModule + m.source * 2 ^ 19 + m.copied * 64
  let w1 := m.target * 2 ^ 19 + m.copied * 64
  let busy := allClusters.any fun h => (s.home h).trans.any fun t => t.block == blockOf w0
  if !m.active || decide (8192 ≤ m.copied) || busy then idle s
  else
    let s := s.each (List.range 4) fun s i => s.recallForMove (sectorOf w0 + i)
    let (r, s) := s.draw
    let s := s.each (List.range 64) fun s i =>
      let v := if uncorrectable = some (BitVec.ofNat 6 i) then ⟨Tag.poison, r.setWidth 32⟩ else s.dram (w0 + i)
      s.poke (w1 + i) v
    let s := s.setMove move { m with copied := m.copied + 1 }
    if m.copied + 1 = 8192 then
      let e := leafEntry (BitVec.ofNat 12 (m.target / 2 ^ 19)) (m.target % 2 ^ 19) m.homing false false
      .next (s.writeLeaf m.part m.pblk e)
    else .next s

/-- Nothing in the module names a word of a 2 MiB block any more: no buffered store, miss, write-back, load,
request or home transaction. -/
def State.blockUnused (s : State) (b : Nat) : Bool :=
  let here (w : Nat) : Bool := s.isOwn w && bigBlock w == b
  !(s.cells.any fun e => (e.2.stbuf.any fun y => (match y.kind with | .slot .. => false | _ => here y.addr))
      || e.2.reqs.any fun r => here r.addr)
    && !(s.clusters.any fun e => (e.2.misses.any fun m => here (m.sector * 16))
      || e.2.porch.any fun q => here (q.block * 64))
    && !(s.slots.any fun e => e.2.loads.any fun l => l.parts.any fun p => here p.1)
    && !(s.homes.any fun e => (e.2.trans.any fun t => here (t.block * 64))
      || e.2.queue.any fun c => here (reqSector c * 16))

/-- Every word of a run of machine blocks becomes EMPTY (14 R608). -/
def State.eraseBlocks (s : State) (b n : Nat) : State :=
  { s with mem := s.mem.filter fun e => !(decide (b * 2 ^ 19 ≤ e.1) && decide (e.1 < (b + n) * 2 ^ 19)) }

/-- PAGE_MOVE_TLB_ACK (07 R308 step 6): the homes stop forwarding, and the old block is erased and returns to the
pool. -/
def execPageMoveTlbAck (move : BitVec 2) (s : State) : Outcome :=
  let m := s.move move
  if !m.active || m.copied != 8192 || !s.blockUnused m.source then idle s
  else
    let s := (s.eraseBlocks m.source 1).giveBlocks m.source
    .next (({ s with ben := { s.ben with movePool := s.ben.movePool ++ [m.source] } }).setMove move move0)

/-! ### Items (07 R319) -/

/-- The item limit of a flow in ns (07 R319): by default twice the quiet time, at least 1 ms; 1,000 s when stall
detection is disabled. -/
def State.itemLimit (s : State) (f : BitVec 12) : Nat :=
  let x := s.flow f
  if x.limit ≠ 0 then x.limit.toNat * 1000000
  else
    match s.quietNs x.part with
    | some q => max 1000000 (2 * q)
    | none => 1000000000000

/-- ITEM_LIMIT_EXPIRY (07 R319): the head item has not ended within the flow's limit. -/
def execItemLimitExpiry (flow : BitVec 12) (s : State) : Outcome :=
  let x := s.flow flow
  match s.flowItem flow x.nextRel with
  | none => idle s
  | some i =>
    if i.ended || i.abandoned || decide ((s.now - x.headSince).toNat < s.itemLimit flow) then idle s
    else .next (s.abandonItem i.id)

end Sys2Proof.Machine
end

