-- ==== Sys2Proof/Machine/Partitions.lean ====
section
/-! DEFINITION. The mailbox commands of class PART (14 R603 to R608): partitions, spaces, vectors and events, caches
and Pantry pairs, pin sets, work queues, flows and twins. -/

namespace Sys2Proof.Machine

/-! ### Creating a partition (14 R604, R605, R620) -/

/-- The cells of a `part.create` request. -/
def recordCells (r : List Byte) : List CellId := (List.range (bytesAt r 2 2)).map fun i => BitVec.ofNat 8 (bytesAt r (56 + 2 * i) 2)

/-- Twin pairs: each cell with the first later one of another cluster that has no pair yet; none when a cell is left
over (13 R548; DESIGN CHOICE, assumption 48). -/
def formPairs : Nat → List CellId → Option (List (CellId × CellId))
  | 0, _ => none
  | _ + 1, [] => some []
  | n + 1, c :: cs => do
    let d ← cs.find? fun d => clusterOf d != clusterOf c
    let rest ← formPairs n (cs.erase d)
    return (c, d) :: rest

/-- A cell that a partition may take: no other has it, and it is not lost or failed. -/
def State.cellFree (s : State) (c : CellId) : Bool :=
  (s.ownerOf c).isNone && !s.col.lostCells.contains c && !Map.get false s.col.failMark (s.physOf c)

/-- A segment of a boot image: its partition address and its words (14 R620). -/
structure Segment where
  addr : Nat
  words : List TWord
  deriving DecidableEq, Repr

/-- Tag `i` of a segment's tag bytes: two to a byte, the lower word in bits [3:0]. -/
def segmentTag (tags : List Byte) (i : Nat) : Tag :=
  let b := tags.getD (i / 2) 0
  if i % 2 = 0 then b.setWidth 4 else (b >>> 4).setWidth 4

/-- The segments of a boot-image body; none where its bytes do not form whole segments. -/
def segments : Nat → List Byte → Option (List Segment)
  | _, [] => some []
  | 0, _ => none
  | fuel + 1, bs => do
    let n := bytesAt bs 8 4
    let tagBytes := ((n + 1) / 2 + 3) / 4 * 4
    let len := 16 + 4 * n + tagBytes
    if bs.length < len ∨ bytesAt bs 0 8 % 4 ≠ 0 ∨ bytesAt bs 12 4 ≠ 0 then none
    else
      let ws := bytesWords n (bs.drop 16)
      let tags := bs.drop (16 + 4 * n)
      let seg : Segment := { addr := bytesAt bs 0 8, words := ws.zipIdx.map fun (w, i) => ⟨segmentTag tags i, w⟩ }
      return seg :: (← segments fuel (bs.drop len))

/-- Write a word of a partition's memory, mapping its block first (08 R342); none where the partition has no such
word or no machine memory is left. -/
def State.writePart (s : State) (p : BitVec 6) (pa : Nat) (v : TWord) : Option State :=
  if devRegion ≤ pa / 2 ^ 21 then none
  else
    let s? := if (s.stage2 p pa).isSome then some s else s.mapBlock p pa
    s?.bind fun s => (s.stage2 p pa).map fun l => s.poke (l.word pa) v

/-- Write the words of a segment. -/
def State.writeWords (s : State) (p : BitVec 6) : Nat → List TWord → Option State
  | _, [] => some s
  | pa, v :: vs => do
    let s ← s.writePart p pa v
    State.writeWords s p (pa + 4) vs

/-- Copy a boot image's segments into the memory of a partition. -/
def State.copySegments (s : State) (p : BitVec 6) : List Segment → Option State
  | [] => some s
  | g :: gs => do
    let s ← s.writeWords p g.addr g.words
    State.copySegments s p gs

/-- Bits of CLC_TWIN_n that name a peer (13 R575). -/
def twinPeer (c : CellId) : Nat := (clusterOf c).toNat * 16 + cellIndex c

/-- The ways of a cluster that Pantry pairs hold or are taking (09 R390, R392). -/
def State.pantryWays (s : State) (g : BitVec 4) : BitVec 16 :=
  (List.range 4).foldl (fun m j =>
    if bit (s.reg (pantryReg g j)) 31 || (s.pair4 g (BitVec.ofNat 2 j)).step != 0 then
      m ||| ((3 : BitVec 16) <<< (8 + 2 * j))
    else m) 0

/-- Write a partition's way mask in a cluster, less the Pantry ways; each pair remembers the ways that the mask loses
to it (09 R392 step 2, R393 step 4, R398). -/
def State.setWayMask (s : State) (g : BitVec 4) (p : BitVec 6) (mask : BitVec 16) : State :=
  let ways := s.pantryWays g
  let s := s.setReg (cchBase g.toNat + 0x100 + 4 * p.toNat) ((mask &&& ~~~ways).setWidth 32)
  s.each ((List.range 4).map (BitVec.ofNat 2)) fun s j =>
    let x := s.pair4 g j
    if ways.getLsbD (8 + 2 * j.toNat) then
      let lost := mask &&& ((3 : BitVec 16) <<< (8 + 2 * j.toNat))
      s.setPair g j { x with masks := (x.masks.filter fun e => e.1 != p) ++ (if lost = 0 then [] else [(p, lost)]) }
    else s

/-- Write the Cellar descriptor of a partition (02 R62): every bucket but bucket 0 is free. -/
def State.writeCellar (s : State) (p : BitVec 6) (block mib ncells quiet : Nat) : State :=
  let pool := (mib * 2 ^ 20 - 32768 * ncells) / 64
  let w (s : State) (byte v : Nat) : State := s.setDescWord p byte (BitVec.ofNat 32 v)
  let s := w (w s 0 (block * 2 ^ 21)) 4 (block * 2 ^ 21 / 2 ^ 32)
  let s := w (w (w s 8 mib) 12 pool) 16 1
  let s := w (w (w s 20 (pool - 1)) 24 0) 28 (quiet * 2 ^ 16)
  (List.range 8).foldl (fun s i => w s (32 + 4 * i) 0) s

/-- Bind a SID (08 R325, R326; 12 R513): the root first, BOUND last. -/
def State.bindSid (s : State) (sid : BitVec 16) (p : BitVec 6) (root wrap : Nat) : State :=
  let a := s.spaceEntryAt sid
  let s := s.poke64 a (BitVec.ofNat 64 root)
  let s := s.poke (s.ownWord (a + 12)) ⟨Tag.sys, 0⟩
  let s := s.poke (s.ownWord (a + 8)) ⟨Tag.sys, BitVec.ofNat 32 (128 + p.toNat)⟩
  { s with wraps := Map.set 0 s.wraps sid.toNat (BitVec.ofNat 64 wrap) }

/-- The rights that ENTRY's page needs (14 R620): R and X without U, and its word in a segment. -/
def State.entryOk (s : State) (sid : BitVec 16) (entry : Word) (segs : List Segment) : Bool :=
  match s.blockLeaf sid entry with
  | .error _ => false
  | .ok (p, e, big) =>
    let pa := leafPa e big entry
    match s.stage2 p pa with
    | none => false
    | some l =>
      let t := tlbEntry sid p entry e big l
      t.r && t.x && !t.u && segs.any fun g => decide (g.addr ≤ pa) && decide (pa < g.addr + 4 * g.words.length)

/-- Steps 2 to 4 of R605, as a request records them: a status, or ENTRY and the new state. -/
def State.prepPart (s : State) (p : BitVec 6) (r : List Byte) : Except Nat (Word × State) := do
  let cells := recordCells r
  let twin := bytesAt r 1 1 == 1
  let pairs ← if twin then (match formPairs (cells.length + 1) cells with | some x => .ok x | none => .error stResource)
    else .ok []
  let mask := BitVec.ofNat 16 (bytesAt r 16 2)
  if allClusters.any fun g => mask &&& ~~~(s.pantryWays g) == 0 then throw stState
  if 2 ^ 42 - 2 ^ 24 < bytesAt r 4 4 * 2 ^ 20 then throw stResource
  let mib := bytesAt r 12 4
  let some (block, s) := s.takeBlocks ((mib + 1) / 2) | throw stResource
  let sid := BitVec.ofNat 16 (bytesAt r 40 2)
  let spans := ((List.range 4).map fun i => bytesAt r (32 + 2 * i) 2).filter (· < 4096)
  let x : Part :=
    { part0 with
      isLive := true, cells := cells, twin := twin, memMib := bytesAt r 4 4, quota := bytesAt r 8 4
      devices := BitVec.ofNat 32 (bytesAt r 28 4), cellar := block, span := spans.map (BitVec.ofNat 12)
      ledgerQuota := bytesAt r 20 4, keyQuota := bytesAt r 24 4, record := r }
  let s := (s.setPart p x).writeCellar p block mib cells.length (bytesAt r 18 1)
  let s := s.each allClusters fun s g => s.setWayMask g p mask
  let s := s.each cells fun s c => (s.setReg (clcCell c 0xB80) (sid.setWidth 32)).setReg (clcCell c 0xB40) 0
  let s := s.each pairs fun s (c, d) =>
    (s.setReg (clcCell c 0xF80) (BitVec.ofNat 32 (2 ^ 31 + twinPeer d))).setReg (clcCell d 0xF80)
      (BitVec.ofNat 32 (2 ^ 30 + twinPeer c))
  if (s.spaceEntry sid).isSome then throw stState
  let s := s.bindSid sid p (bytesAt r 48 8) 0
  let img := Map.get [] s.ben.bootImages p.toNat
  if img = [] then throw stNotFound
  let body := img.drop 256
  let some segs := segments (body.length + 1) body | throw stImage
  let some s := s.copySegments p segs | throw stResource
  let s := s.each cells fun s c => (s.modCell c fun y => { y with vectors := [], prefetch := [] }).loadVectors c
  let entry := BitVec.ofNat 32 (bytesAt img 28 4)
  if !s.entryOk sid entry segs then throw stImage
  return (entry, s)

/-- Steps 2 to 5 of R605: a status, or BOOT_CTX and the new state. -/
def State.makePart (s : State) (p : BitVec 6) (r : List Byte) : Except Nat (Word × State) := do
  let sid := BitVec.ofNat 16 (bytesAt r 40 2)
  let (entry, s) ← s.prepPart p r
  let first := (recordCells r).headD 0
  let q : Placing :=
    { part := p, cls := clsThroughput, port := 0, pin := false, nomig := false, aff := 0, ref := clusterOf first }
  let some (ctx, s) := s.settle q { frame0 with sid := sid, code := entry, persist := true } first | throw stResource
  let t := mkToken ctx 0 0 portSingle 0 sid (TWord.int (p.setWidth 32))
  return (ctx, s.send .benus t none false false)

/-- `part.create` (14 R604, R605, R608): a step that fails undoes the steps before it, so nothing is left behind. -/
def execPartCreate (m : BitVec 5) (s : State) : Outcome :=
  onCommand m 0x0101 s fun s r =>
    let p := BitVec.ofNat 6 (bytesAt r 0 1)
    let cells := recordCells r
    if (s.part p).isLive then s.fails m stState
    else if !(cells.all s.cellFree) || cells != cells.eraseDups then s.fails m stResource
    else
      match s.makePart p r with
      | .error e => s.fails m e
      | .ok (ctx, s) => s.okay m (wordBytes ctx)

/-! ### Quiescing and destroying (14 R606 to R608) -/

/-- PARKED WORKGETs of a cell return INT 0 (06 R272 step 3). -/
def State.unparkAll (s : State) (c : CellId) : State := s.each allSlots fun s k => s.unpark c k TWord.zero

/-- Every slot of a cell is IDLE (06 R272 step 3). -/
def State.isDrained (s : State) (c : CellId) : Bool := allSlots.all fun k => (s.slot c k).state == .idle

/-- `part.quiesce`, long (14 R606): the answer waits until every cell is drained. -/
def execPartQuiesce (m : BitVec 5) (s : State) : Outcome :=
  onCommand m 0x0102 s fun s r =>
    let p := BitVec.ofNat 6 (bytesAt r 0 1)
    if !(s.part p).isLive then s.fails m stNotFound
    else if bytesAt r 1 1 = 1 then
      let s := s.modPart p fun x => { x with quiesced := false }
      let s := s.each (List.range 64) fun s q => s.grantQueue p (BitVec.ofNat 6 q)
      s.okay m []
    else
      let s := s.modPart p fun x => { x with quiesced := true }
      let s := s.each (s.part p).cells State.unparkAll
      if (s.part p).cells.all s.isDrained then s.okay m [] else s

/-- The SIDs that are bound to a partition. -/
def State.sidsOf (s : State) (p : BitVec 6) : List (BitVec 16) :=
  ((List.range 65536).map (BitVec.ofNat 16)).filter fun n => s.sidBoundTo n p

/-- The TLB entries of a SID and its partition's global ones go, and walks of the partition start again (08 R361). -/
def State.dropSid (s : State) (p : BitVec 6) (sid : BitVec 16) : State :=
  (s.restartWalks p).dropTlb (fun e => e.part == p && (e.glob || e.sid == sid)) fun _ => false

/-- A partition's span has other modules, which an invalidation reaches too. -/
def State.hasPeers (s : State) (p : BitVec 6) : Bool := (s.part p).span.any fun m => m != s.hier.modn

/-- A SID is unbound, once every TLB of the module and the span has acknowledged (08 R361): BOUND clears. -/
def State.unbindSid (s : State) (sid : BitVec 16) : State :=
  match s.partOfSid sid with
  | none => s
  | some p =>
    let s := s.dropSid p sid
    let s := s.each allClusters fun s g => s.modCluster g fun cl => { cl with roots := cl.roots.filter fun e => e.1 != sid }
    s.poke (s.ownWord (s.spaceEntryAt sid + 8)) ⟨Tag.sys, 0⟩

/-- Write a Pantry pair's block back and unbind it (09 R393 steps 2 to 6). -/
def State.unbindPair (s : State) (g : BitVec 4) (j : BitVec 2) : State :=
  let b := s.pairBlock g j
  let x := s.pair4 g j
  let p := BitVec.ofNat 6 (s.regField (pantryReg g j.toNat) 29 24)
  let ws := blockWords (s.cluster g).pantry b
  let s := { s with mem := putWords (withoutBlock s.mem b) ws }
  let s := (s.rangeBlock b none).setReg (pantryReg g j.toNat) 0
  let s := s.modCluster g fun cl => { cl with pantry := withoutBlock cl.pantry b }
  let s := s.each x.masks fun s (q, lost) =>
    let a := cchBase g.toNat + 0x100 + 4 * q.toNat
    s.setReg a (s.reg a ||| lost.setWidth 32)
  let s := match s.stage2 p (x.leaf * 2 ^ 21) with
    | none => s
    | some l => if x.wasFixed then s else s.writeLeaf p x.leaf (leafEntry l.modn (l.ma / 2 ^ 21) l.homing l.dev false)
  (s.setPair g j pair0).holdBlock b false

/-- Release and erase the machine blocks that a partition's tables name on this module (14 R608). -/
def State.releaseBlocks (s : State) (p : BitVec 6) : State :=
  s.each s.ben.blocks fun s (b, n) =>
    if n ≠ 1 then s
    else
      match s.leafOf b with
      | some (q, pblk, _) =>
        if q ≠ p then s else (((s.writeLeaf p pblk 0).recallBlock b).eraseBlocks b 1).giveBlocks b
      | none => s

/-- The partition's cells are as a start leaves them; what they sent and what was on its way to them is gone. -/
def State.clearCell (s : State) (c : CellId) : State :=
  let mine (x : Sender) : Bool := x.who == .cell c
  { s with
    cells := Map.del s.cells c.toNat
    slots := s.slots.filter fun e => e.1 / 8 != c.toNat
    retained := s.retained.filter fun r => !mine r.snd
    samples := Map.del s.samples c.toNat
    regs := (s.setReg (clcCell c 0xF80) 0).regs.filter fun e => e.1 != clcCell c 0xB80 && e.1 != clcCell c 0xB40
    wire := s.wire.filter fun w =>
      match w with
      | .tokenAccept d _ snd _ _ => d != c && !mine snd
      | .ackReceive snd => !mine snd
      | .returnedTokenReceive snd => !mine snd
      | .retransmissionRequest snd => !mine snd
      | _ => true }

/-- What R607 frees, and what R608 erases. -/
def State.destroyPart (s : State) (p : BitVec 6) : State :=
  let x := s.part p
  let sids := s.sidsOf p
  let frames := (s.frames.filter fun e => e.2.part == p && e.2.state != stFree).map fun e => BitVec.ofNat 20 e.1
  let s := s.each frames State.freeFrame
  let s := s.each allClusters fun s g => s.each ((List.range 4).map (BitVec.ofNat 2)) fun s j =>
    if s.objPart (.pair g j) = some p then s.unbindPair g j else s
  let s := s.releaseBlocks p
  let size := (s.descWord p 8).toNat
  let s := (s.eraseBlocks x.cellar ((size + 1) / 2)).giveBlocks x.cellar
  let s := s.each sids State.unbindSid
  let s := s.each (s.keys.filter fun e => e.2.inUse && sids.contains e.2.sid) fun s e => s.eraseKey e.1
  let s := s.each x.cells State.clearCell
  let emptied (k : EClass) : EClass := { k with slices := k.slices.filter fun e => e.2.part != p || e.2.state == slUnbound }
  { s with
    classes := s.classes.map fun e => (e.1, emptied e.2)
    ports := s.ports.map fun e => (e.1, { e.2 with subs := e.2.subs.filter fun u => u.2.part != p })
    workqs := s.workqs.filter fun e => e.1 / 64 != p.toNat
    flows := s.flows.filter fun e => e.2.part != p
    items := s.items.filter fun i => i.part != p
    moves := s.moves.filter fun e => e.2.part != p
    inMove := s.inMove.filter fun e => !frames.contains e.1
    waitRecs := s.waitRecs.filter fun e => e.2.part != p
    parts := Map.del s.parts p.toNat }

/-- An entry of the partition that `part.destroy` waits for (14 R607). -/
def State.hasOpenEntry (s : State) (p : BitVec 6) : Bool :=
  s.ledger.any fun e => e.2.part == p
    && (e.2.state == ldOpen || e.2.state == ldMirroring || e.2.state == ldAccepted || e.2.state == ldInDoubt)

/-- `part.destroy`, long (14 R607, R608). -/
def execPartDestroy (m : BitVec 5) (s : State) : Outcome :=
  onCommand m 0x0103 s fun s r =>
    let p := BitVec.ofNat 6 (bytesAt r 0 1)
    let x := s.part p
    if !x.isLive then s.fails m stNotFound
    else if !x.quiesced || !(x.cells.all s.isDrained) || s.hasOpenEntry p then s.fails m stState
    else (s.destroyPart p).okay m []

/-! ### The Cellar (02 R713) -/

/-- The free list of a partition's bucket pool. -/
def State.freeList (s : State) (p : BitVec 6) : Nat → Nat → List Nat
  | 0, _ => []
  | fuel + 1, k => if k = 0 then [] else k :: State.freeList s p fuel (s.freeNext p k).toNat

/-- Link a free list of buckets anew, writing only what changes. -/
def State.relink (s : State) (p : BitVec 6) : List Nat → State
  | [] => s
  | [k] => if s.freeNext p k = 0 then s else (s.setBucketWord p k 0 0).setBucketWord p k 1 0
  | k :: j :: ks =>
    let s := if (s.freeNext p k).toNat = j then s else (s.setBucketWord p k 0 0).setBucketWord p k 1 (BitVec.ofNat 32 j)
    State.relink s p (j :: ks)

/-- Change the machine blocks of the Cellar at its end; none when the memory after it is in use. -/
def State.resizeBlocks (s : State) (b n k : Nat) : Option State :=
  let others := s.ben.blocks.filter fun u => u.1 != b
  let clash := others.any fun u => decide (u.1 < b + k) && decide (b + n ≤ u.1)
  if 2 ^ 19 < b + k ∨ (n < k ∧ clash) then none
  else some { s with ben := { s.ben with blocks := others ++ [(b, k)] } }

/-- `part.cellar.set` (14 R603, 02 R713). -/
def execPartCellarSet (m : BitVec 5) (s : State) : Outcome :=
  onCommand m 0x0104 s fun s r =>
    let p := BitVec.ofNat 6 (bytesAt r 0 1)
    let x := s.part p
    if !x.isLive then s.fails m stNotFound
    else
      let old := (s.descWord p 8).toNat
      let mib := bytesAt r 4 4
      let oldPool := s.cellarPool p
      let pool := (mib * 2 ^ 20 - 32768 * x.cells.length) / 64
      let free := s.freeList p (s.cellarFree p) (s.descWord p 16).toNat
      let kept := free.filter (· < pool)
      let sized (s : State) (count : Nat) : State :=
        let s := (s.setDescWord p 8 (BitVec.ofNat 32 mib)).setDescWord p 12 (BitVec.ofNat 32 pool)
        ((s.setDescWord p 20 (BitVec.ofNat 32 count)).raiseSpace p).checkSpace p .benus
      if old ≤ mib then
        match s.resizeBlocks x.cellar ((old + 1) / 2) ((mib + 1) / 2) with
        | none => s.fails m stResource
        | some s =>
          if pool = oldPool then s.okay m []
          else
            let s := if s.freeNext p (oldPool - 1) = 0 ∧ (s.peek (s.ownWord (s.bucketAt p (oldPool - 1) + 4))).tag = Tag.empty then
                s.setBucketWord p (oldPool - 1) 1 0 else s
            let s := (s.setBucketWord p (pool - 1) 0 0).setBucketWord p (pool - 1) 1 (s.descWord p 16)
            let s := s.setDescWord p 16 (BitVec.ofNat 32 oldPool)
            (sized s (s.cellarFree p + (pool - oldPool))).okay m []
      else if free.length - kept.length ≠ oldPool - pool then s.fails m stState
      else
        match s.resizeBlocks x.cellar ((old + 1) / 2) ((mib + 1) / 2) with
        | none => s.fails m stResource
        | some s =>
          let s := sized s kept.length
          let s := (s.setDescWord p 16 (BitVec.ofNat 32 (kept.headD 0))).relink p kept
          let from_ := s.cellarBase p / 4 + mib * 2 ^ 18
          let to_ := s.cellarBase p / 4 + old * 2 ^ 18
          let s := { s with mem := s.mem.filter fun e => !(decide (from_ ≤ e.1) && decide (e.1 < to_)) }
          s.okay m []

/-! ### Vectors and events (05 R230, 14 R605) -/

/-- A SID that a command gives to a partition: NOT_FOUND when it is not bound, STATE when another partition has it
(assumption 48). -/
def State.sidFault (s : State) (sid : BitVec 16) (p : BitVec 6) : Option Nat :=
  match s.partOfSid sid with
  | none => some stNotFound
  | some q => if q = p then none else some stState

/-- The vector table of R230 is one that Benus accepts. -/
def State.vectorsOk (s : State) (sid : BitVec 16) (va : Word) : Bool :=
  match (s.touches sid (va + 1) 7).spaceReads sid (va + 1) 7 with
  | .ok vs => vs.all fun v => v.tag == Tag.code
  | .error _ => false

/-- `part.vector.set` (14 R603; 05 R230, R241; 08 R329). -/
def execPartVectorSet (m : BitVec 5) (s : State) : Outcome :=
  onCommand m 0x0105 s fun s r =>
    let p := BitVec.ofNat 6 (bytesAt r 0 1)
    let sid := BitVec.ofNat 16 (bytesAt r 2 2)
    let va := BitVec.ofNat 32 (bytesAt r 4 4)
    if !(s.part p).isLive then s.fails m stNotFound
    else
      match s.sidFault sid p with
      | some e => s.fails m e
      | none =>
        if !s.vectorsOk sid va then s.fails m stState
        else
          (s.each (s.part p).cells fun s c =>
            ((s.setReg (clcCell c 0xB80) (sid.setWidth 32)).setReg (clcCell c 0xB40) va).loadVectors c).okay m []

/-- `part.event.set` (14 R603, R605; 02 R62). -/
def execPartEventSet (m : BitVec 5) (s : State) : Outcome :=
  onCommand m 0x0106 s fun s r =>
    let p := BitVec.ofNat 6 (bytesAt r 0 1)
    let ctx := BitVec.ofNat 32 (bytesAt r 4 4)
    let sid := BitVec.ofNat 16 (bytesAt r 12 2)
    let x := s.frame (frameOf ctx)
    if !(s.part p).isLive then s.fails m stNotFound
    else
      match s.sidFault sid p with
      | some e => s.fails m e
      | none =>
        if ctxModule ctx ≠ s.hier.modn ∨ x.part ≠ p ∨ !x.persist ∨ x.state = stFree ∨ x.state = stFailed then
          s.fails m stState
        else
          let s := s.setDescWord p 24 ctx
          let s := s.setDescWord p 28 (BitVec.ofNat 32 (bytesAt r 2 2 + bytesAt r 1 1 * 2 ^ 16))
          let s := s.setDescWord p 32 (BitVec.ofNat 32 (bytesAt r 8 4))
          (s.setDescWord p 36 (BitVec.ofNat 32 (sid.toNat + bytesAt r 14 1 * 2 ^ 16))).okay m []

/-! ### Spaces (08 R325, R361) -/

/-- `space.bind` (08 R325, R326). -/
def execSpaceBind (m : BitVec 5) (s : State) : Outcome :=
  onCommand m 0x0107 s fun s r =>
    let sid := BitVec.ofNat 16 (bytesAt r 0 2)
    let p := BitVec.ofNat 6 (bytesAt r 2 1)
    if !(s.part p).isLive then s.fails m stNotFound
    else if (s.spaceEntry sid).isSome then s.fails m stState
    else (s.bindSid sid p (bytesAt r 8 8) (bytesAt r 16 8)).okay m []

/-- A frame, an engine slice or a work queue of the SID is not released (08 R361). -/
def State.sidInUse (s : State) (sid : BitVec 16) : Bool :=
  (s.frames.any fun e => e.2.state != stFree && e.2.sid == sid)
    || (s.classes.any fun k => k.2.slices.any fun e => e.2.state != slUnbound && e.2.sid == sid)
    || s.workqs.any fun e => e.2.bound && e.2.sid == sid

/-- `space.unbind`, long (08 R361): where the partition's span has other modules, they are told, and BOUND clears only
when the command goes on after they have acknowledged (DESIGN CHOICE, assumption 129: its second run). -/
def execSpaceUnbind (m : BitVec 5) (s : State) : Outcome :=
  onCommand m 0x0108 s fun s r =>
    let sid := BitVec.ofNat 16 (bytesAt r 0 2)
    if (s.spaceEntry sid).isNone then s.fails m stNotFound
    else if s.sidInUse sid then s.fails m stState
    else
      match s.partOfSid sid with
      | some p =>
        if (s.mbx m).progress = 0 ∧ s.hasPeers p then
          ((s.dropSid p sid).tellSpan p).modMbx m fun b => { b with progress := 1 }
        else (s.unbindSid sid).okay m []
      | none => (s.unbindSid sid).okay m []

/-! ### Caches and the Pantry (09 R391 to R393, R398) -/

/-- `cache.ways.set` (09 R398). -/
def execCacheWaysSet (m : BitVec 5) (s : State) : Outcome :=
  onCommand m 0x0109 s fun s r =>
    let p := BitVec.ofNat 6 (bytesAt r 0 1)
    let mask := BitVec.ofNat 16 (bytesAt r 2 2)
    let gs := if bytesAt r 1 1 = 0xFF then allClusters else [BitVec.ofNat 4 (bytesAt r 1 1)]
    if !(s.part p).isLive then s.fails m stNotFound
    else if gs.any fun g => mask &&& ~~~(s.pantryWays g) == 0 then s.fails m stState
    else (s.each gs fun s g => s.setWayMask g p mask).okay m []

/-- The keys of the ways 8 + 2j and 9 + 2j of every set. -/
def pairWays (cl : Cluster) (j : BitVec 2) : List Nat :=
  (cl.ways.filter fun e => e.1 % 16 / 2 == 4 + j.toNat).map Prod.fst

/-- Evict the ways of a pair, as far as the Porch has room (09 R392 step 2). -/
def State.emptyPair (s : State) (g : BitVec 4) (j : BitVec 2) : State :=
  s.each (pairWays (s.cluster g) j) fun s k =>
    if ((s.cluster g).way k).fill then s
    else (s.evict g k).elim s fun s => s.modCluster g fun cl => cl.setWay k block0

/-- Step 1 of R392, and the masks of step 2. -/
def State.beginPair (s : State) (g : BitVec 4) (j : BitVec 2) (m : BitVec 5) (p : BitVec 6) (pblk : Nat) (l : S2Leaf)
    (wasFixed : Bool) : State :=
  let s := s.writeLeaf p pblk (leafEntry l.modn (l.ma / 2 ^ 21) l.homing l.dev true)
  let s := s.setReg (pantryReg g j.toNat) (BitVec.ofNat 32 (p.toNat * 2 ^ 24 + l.ma / 2 ^ 21))
  let s := s.setPair g j { step := 1, wasFixed := wasFixed, masks := [], leaf := pblk, mailbox := some m }
  s.each ((List.range 64).map (BitVec.ofNat 6)) fun s q =>
    s.setWayMask g q ((s.reg (cchBase g.toNat + 0x100 + 4 * q.toNat)).setWidth 16)

/-- A binding that would leave some partition's mask with no way outside the Pantry (09 R391). -/
def State.masksLeft (s : State) (g : BitVec 4) (j : BitVec 2) : Bool :=
  let ways := s.pantryWays g ||| ((3 : BitVec 16) <<< (8 + 2 * j.toNat))
  s.liveParts.all fun q => ((s.reg (cchBase g.toNat + 0x100 + 4 * q.toNat)).setWidth 16 &&& ~~~ways) != 0

/-- `pantry.set`, long (09 R391, R392 steps 1 to 3): run again until the ways are empty; PANTRY_COPY_DONE ends it. -/
def execPantrySet (m : BitVec 5) (s : State) : Outcome :=
  onCommand m 0x010A s fun s r =>
    let g := BitVec.ofNat 4 (bytesAt r 0 1)
    let j := BitVec.ofNat 2 (bytesAt r 1 1)
    let p := BitVec.ofNat 6 (bytesAt r 2 1)
    let pa := bytesAt r 8 8
    let begun := (s.pair4 g j).mailbox == some m
    let start : Except Nat State :=
      if begun then .ok s
      else if !(s.part p).isLive then .error stNotFound
      else
        match s.stage2 p pa with
        | none => .error stNotFound
        | some l =>
          let b := l.ma / 2 ^ 21
          let taken := allClusters.any fun g => (List.range 4).any fun i =>
            s.pairBlock g (BitVec.ofNat 2 i) == b && (bit (s.reg (pantryReg g i)) 31 || (s.pair4 g (BitVec.ofNat 2 i)).step != 0)
          let busy := bit (s.reg (pantryReg g j.toNat)) 31 || (s.pair4 g j).step != 0
          let e := match s2Table (s.peek64 (s.s2RootAt p pa)) with
            | some t => s.peek64 (s2LeafAt t pa)
            | none => 0
          if l.modn ≠ s.hier.modn ∨ l.dev ∨ taken ∨ busy ∨ !s.masksLeft g j then .error stState
          else .ok (s.beginPair g j m p (pa / 2 ^ 21) l (e.getLsbD 1))
    match start with
    | .error e => s.fails m e
    | .ok s =>
      if (s.pair4 g j).step ≠ 1 then s
      else
        let s := s.emptyPair g j
        let b := s.pairBlock g j
        let left := (pairWays (s.cluster g) j).any fun k => !((s.cluster g).way k).isEmpty || ((s.cluster g).way k).fill
        if left || (s.cluster g).porch.any (fun q => q.state != .combine) then s
        else (((s.rangeBlock b (some (g, j))).holdBlock b true |>.recallBlock b).recallAway b).setPair g j { s.pair4 g j with step := 2 }

/-- PANTRY_COPY_DONE (09 R392 steps 4, 5): the block is copied, and the pair is bound. -/
def execPantryCopyDone (cluster : BitVec 4) (pair : BitVec 2) (s : State) : Outcome :=
  let x := s.pair4 cluster pair
  let b := s.pairBlock cluster pair
  if x.step ≠ 2 ∨ !s.blockQuiet b then idle s
  else
    let s := s.recallBlock b
    let ws := blockWords s.mem b
    let s := s.modCluster cluster fun cl => { cl with pantry := putWords cl.pantry ws }
    let s := s.setRegField (pantryReg cluster pair.toNat) 31 31 1
    let s := (s.setPair cluster pair { x with step := 0, mailbox := none }).holdBlock b false
    .next (match x.mailbox with | some m => s.okay m [] | none => s)

/-- `pantry.clear`, long (09 R393 step 1); PANTRY_WRITEBACK_DONE ends it. -/
def execPantryClear (m : BitVec 5) (s : State) : Outcome :=
  onCommand m 0x010B s fun s r =>
    let g := BitVec.ofNat 4 (bytesAt r 0 1)
    let j := BitVec.ofNat 2 (bytesAt r 1 1)
    let x := s.pair4 g j
    if x.mailbox = some m then s
    else if !bit (s.reg (pantryReg g j.toNat)) 31 then s.fails m stNotFound
    else (s.holdBlock (s.pairBlock g j) true).setPair g j { x with step := 3, mailbox := some m }

/-- PANTRY_WRITEBACK_DONE (09 R393 steps 2 to 6). -/
def execPantryWritebackDone (cluster : BitVec 4) (pair : BitVec 2) (s : State) : Outcome :=
  let x := s.pair4 cluster pair
  if x.step ≠ 3 ∨ !s.blockQuiet (s.pairBlock cluster pair) then idle s
  else
    let s := s.unbindPair cluster pair
    .next (match x.mailbox with | some m => s.okay m [] | none => s)

/-! ### Pin sets, work queues, flows (07 R284, R310, R313) -/

/-- `place.pin.set` (07 R284). -/
def execPlacePinSet (m : BitVec 5) (s : State) : Outcome :=
  onCommand m 0x010C s fun s r =>
    let p := BitVec.ofNat 6 (bytesAt r 0 1)
    if !(s.part p).isLive then s.fails m stNotFound
    else
      (s.modPart p fun x =>
        { x with pins := Map.set none x.pins (bytesAt r 1 1) (some (BitVec.ofNat 16 (bytesAt r 2 2))) }).okay m []

/-- A channel program or a flow names a queue, or an item of it holds a descriptor (07 R310). -/
def State.queueInUse (s : State) (p q : BitVec 6) : Bool :=
  let stream (u : Sub) : Bool :=
    u.bound && u.part == p && u.prog.running && u.prog.streaming && streamQueue u.prog.words == q
  (s.ports.any fun e => e.2.subs.any fun u => stream u.2)
    || (s.flows.any fun e => e.2.bound && e.2.part == p && e.2.queue == q)
    || s.items.any fun i => i.part == p && i.queue == q && !i.finished && !i.abandoned

/-- Every WORKGET parked on a queue returns INT 0 (07 R310). -/
def State.unparkQueue (s : State) (p q : BitVec 6) : State :=
  s.each (s.workq p q).parked fun s (c, k) => s.unpark c k TWord.zero

/-- `workq.set` (07 R310, R312): the ring's descriptors are free. -/
def execWorkqSet (m : BitVec 5) (s : State) : Outcome :=
  onCommand m 0x010D s fun s r =>
    let p := BitVec.ofNat 6 (bytesAt r 0 1)
    let q := BitVec.ofNat 6 (bytesAt r 1 1)
    let sid := BitVec.ofNat 16 (bytesAt r 2 2)
    let ring := BitVec.ofNat 32 (bytesAt r 4 4)
    let n := bytesAt r 8 4
    let w := s.workq p q
    if !(s.part p).isLive then s.fails m stNotFound
    else if w.bound ∧ s.queueInUse p q then s.fails m stState
    else if bytesAt r 12 1 = 1 then
      if !w.bound then s.fails m stNotFound else ((s.unparkQueue p q).setWorkq p q workq0).okay m []
    else
      match s.sidFault sid p with
      | some e => s.fails m e
      | none =>
        ((s.unparkQueue p q).setWorkq p q
          { workq0 with
            bound := true, sid := sid, ring := ring, entries := n
            free := (List.range n).map fun i => ring + BitVec.ofNat 32 (8 * i) }).okay m []

/-- A running READ STREAM order names a flow (07 R313). -/
def State.streamNames (s : State) (f : BitVec 12) : Bool :=
  s.ports.any fun e => e.2.subs.any fun u =>
    u.2.bound && u.2.prog.running && u.2.prog.streaming && streamFlow u.2.prog.words == some f

/-- `flow.bind` (07 R313). -/
def execFlowBind (m : BitVec 5) (s : State) : Outcome :=
  onCommand m 0x010E s fun s r =>
    let f := BitVec.ofNat 12 (bytesAt r 0 2)
    let p := BitVec.ofNat 6 (bytesAt r 2 1)
    let q := BitVec.ofNat 6 (bytesAt r 3 1)
    let first := BitVec.ofNat 32 (bytesAt r 4 4)
    let x := s.flow f
    if !(s.part p).isLive then s.fails m stNotFound
    else if x.bound ∧ (x.occupancy ≠ 0 ∨ !x.held.isEmpty ∨ s.streamNames f) then s.fails m stState
    else if bytesAt r 12 1 = 1 then
      if !x.bound then s.fails m stNotFound else (s.setFlow f flow0).okay m []
    else if !(s.workq p q).bound then s.fails m stNotFound
    else
      (s.setFlow f
        { flow0 with
          bound := true, part := p, queue := q, nextSeq := first, nextRel := first
          limit := BitVec.ofNat 32 (bytesAt r 8 4) }).okay m []

/-! ### Twins (13 R554) -/

/-- `twin.resync`, long (13 R554): the answer waits until the lead is drained. -/
def execTwinResync (m : BitVec 5) (s : State) : Outcome :=
  onCommand m 0x010F s fun s r =>
    let p := BitVec.ofNat 6 (bytesAt r 0 1)
    let c := cellAt (BitVec.ofNat 4 (bytesAt r 1 1)) (bytesAt r 2 1)
    let lead := if bit (s.reg (clcCell c 0xF80)) 31 then c else s.peerOf c
    let shadow := s.peerOf lead
    if !(s.part p).isLive ∨ !(s.part p).cells.contains c then s.fails m stNotFound
    else if !(s.part p).twin ∨ !bit (s.reg (clcCell lead 0xF80)) 29 then s.fails m stState
    else
      let s := s.each [lead, shadow] fun s c => s.each allSlots fun s k =>
        (s.unhalt c k).modSlot c k fun t => { t with stepping := 0 }
      let s := (s.modCell lead fun x => { x with draining := true }).unparkAll lead
      if !s.isDrained lead then s
      else
        let s := s.modCell shadow fun x => { x with lines := [], linePtr := [], tlb := [] }
        let s := (s.setRegField (clcCell lead 0xF80) 29 29 0).setRegField (clcCell shadow 0xF80) 29 29 0
        let (_, s) := s.makeRecord { kind := 8, source := s.cellSource lead, cell := s.recCell lead }
        (s.modCell lead fun x => { x with draining := false }).okay m []

end Sys2Proof.Machine
end

