-- ==== Sys2Proof/Machine/Services.lean ====
section
/-! DEFINITION. The mailbox commands of classes IO, FAULT and TIME and those of class SYSTEM that need no Hart (14
R603, R607 to R610, R625, R627): subchannels and paths, engine slices, ledger notices and quotas, processor swaps,
fault reactions and records, the calendar clock, mailboxes, stored configuration, reset and keys. -/

namespace Sys2Proof.Machine

/-! ### Subchannels and paths (11 R454, R489) -/

/-- A slice that a subchannel is given: NOT_FOUND when it is not bound, STATE when another SID has it (assumption
49); 0xFF names none. -/
def State.sliceFault (s : State) (k : BitVec 3) (n : Nat) (sid : BitVec 16) : Option Nat :=
  if n = 0xFF then none
  else
    let x := s.slice k (BitVec.ofNat 6 n)
    if x.state = slUnbound then some stNotFound else if x.sid = sid then none else some stState

/-- `chan.sub.set` (11 R454): refused with STATE while a channel program runs (assumption 49). -/
def execChanSubSet (m : BitVec 5) (s : State) : Outcome :=
  onCommand m 0x0201 s fun s r =>
    let b := BitVec.ofNat 11 (bytesAt r 0 2)
    let sid := BitVec.ofNat 16 (bytesAt r 2 2)
    let lfm := bytesAt r 6 1
    let aes := bytesAt r 7 1
    let u := s.sub (subPort b) (subIndex b)
    let set (s : State) (v : Sub) : State := (s.modSub (subPort b) (subIndex b) fun _ => v).okay m []
    if u.bound ∧ u.prog.running then s.fails m stState
    else if bytesAt r 8 1 = 1 then if u.bound then set s sub0 else s.fails m stNotFound
    else
      match s.partOfSid sid with
      | none => s.fails m stNotFound
      | some p =>
        match (s.sliceFault 0 lfm sid).or (s.sliceFault 1 aes sid) with
        | some e => s.fails m e
        | none =>
          let slot (n : Nat) : Option (BitVec 6) := if n = 0xFF then none else some (BitVec.ofNat 6 n)
          set s { sub0 with
                  bound := true, sid := sid, part := p, lch := BitVec.ofNat 16 (bytesAt r 4 2)
                  slices := Map.set none (Map.set none [] 0 (slot lfm)) 1 (slot aes) }

/-- `chan.path.set` (11 R489): a transaction that waits for a path takes one that the command opened. -/
def execChanPathSet (m : BitVec 5) (s : State) : Outcome :=
  onCommand m 0x0202 s fun s r =>
    let n := chPort (BitVec.ofNat 3 (bytesAt r 0 1))
    let l := BitVec.ofNat 16 (bytesAt r 2 2)
    let alts := (((List.range 3).map fun i => BitVec.ofNat 16 (bytesAt r (4 + 2 * i) 2)).filter (· != 0xFFFF))
    let s := s.modLch n l fun c => { c with alts := alts }
    let up := ((List.range 16).map (BitVec.ofNat 4)).filter fun q => (s.port q).link == linkUp
    (s.each up fun s q => s.pathUp q).okay m []

/-! ### Engine slices (12 R522 to R526) -/

/-- The depths of a class but for one slice. -/
def State.otherDepths (s : State) (k : BitVec 3) (n : BitVec 6) : Nat :=
  (((s.eclass k).slices.filter fun e => e.1 != n.toNat && e.2.state != slUnbound).map fun e => e.2.depth).sum

/-- `engine.slice.set` (12 R522, R524). -/
def execEngineSliceSet (m : BitVec 5) (s : State) : Outcome :=
  onCommand m 0x0203 s fun s r =>
    let k := BitVec.ofNat 3 (bytesAt r 0 1)
    let n := BitVec.ofNat 6 (bytesAt r 1 1)
    let sid := BitVec.ofNat 16 (bytesAt r 2 2)
    let depth := bytesAt r 4 2
    let share := BitVec.ofNat 7 (bytesAt r 6 1)
    let x := s.slice k n
    if bytesAt r 7 1 = 1 then
      if x.state = slUnbound then s.fails m stNotFound
      else if x.state ≠ slQuiesced then s.fails m stState
      else (s.setSlice k n slice0).okay m []
    else
      match s.partOfSid sid with
      | none => s.fails m stNotFound
      | some p =>
        if x.state ≠ slUnbound ∧ x.sid ≠ sid ∧ x.state ≠ slQuiesced then s.fails m stState
        else if 4096 < s.otherDepths k n + depth then s.fails m stResource
        else if x.state ≠ slUnbound ∧ x.sid = sid then
          (s.setSlice k n { x with depth := depth, share := share }).okay m []
        else
          (s.setSlice k n { slice0 with state := slActive, sid := sid, part := p, depth := depth, share := share }).okay m []

/-- `engine.slice.quiesce`, long (12 R525, R526): the answer waits until the slice has drained. -/
def execEngineSliceQuiesce (m : BitVec 5) (s : State) : Outcome :=
  onCommand m 0x0204 s fun s r =>
    let k := BitVec.ofNat 3 (bytesAt r 0 1)
    let n := BitVec.ofNat 6 (bytesAt r 1 1)
    let x := s.slice k n
    if x.state = slUnbound then s.fails m stNotFound
    else if x.state = slQuiesced then s.okay m []
    else (s.setSlice k n { x with state := slQuiescing, waitMbx := some m }).settleSlice k n

/-- `engine.slice.resume` (12 R526). -/
def execEngineSliceResume (m : BitVec 5) (s : State) : Outcome :=
  onCommand m 0x0205 s fun s r =>
    let k := BitVec.ofNat 3 (bytesAt r 0 1)
    let n := BitVec.ofNat 6 (bytesAt r 1 1)
    if (s.slice k n).state = slUnbound then s.fails m stNotFound
    else (s.modSlice k n fun x => { x with state := slActive }).okay m []

/-- `engine.slice.reset` (12 R526, R529). -/
def execEngineSliceReset (m : BitVec 5) (s : State) : Outcome :=
  onCommand m 0x0206 s fun s r =>
    let k := BitVec.ofNat 3 (bytesAt r 0 1)
    let n := BitVec.ofNat 6 (bytesAt r 1 1)
    let a := engBase k + 0x400 + 16 * n.toNat
    if (s.slice k n).state = slUnbound then s.fails m stNotFound
    else if (s.slice k n).state ≠ slQuiesced then s.fails m stState
    else (((s.modSlice k n fun x => { x with queue := [] }).setReg (a + 8) 0).setReg (a + 12) 0).okay m []

/-! ### Ledger and channel processors (11 R474, R475, R493) -/

/-- `ledger.notice.set` (11 R474): notices not yet written go to the new ring. -/
def execLedgerNoticeSet (m : BitVec 5) (s : State) : Outcome :=
  onCommand m 0x0207 s fun s r =>
    let sid := BitVec.ofNat 16 (bytesAt r 0 2)
    match s.partOfSid sid with
    | none => s.fails m stNotFound
    | some p =>
      let s := s.modPart p fun x =>
        { x with notice := some (BitVec.ofNat 32 (bytesAt r 4 4), sid, bytesAt r 8 1, BitVec.ofNat 16 (bytesAt r 2 2)) }
      (s.drainNotices p (s.part p).noticeWait.length).okay m []

/-- `ledger.quota.set` (11 R475). -/
def execLedgerQuotaSet (m : BitVec 5) (s : State) : Outcome :=
  onCommand m 0x0208 s fun s r =>
    let p := BitVec.ofNat 6 (bytesAt r 0 1)
    if !(s.part p).isLive then s.fails m stNotFound
    else (s.modPart p fun x => { x with ledgerQuota := bytesAt r 4 4 }).okay m []

/-- `cp.swap`, long (11 R493): CP_SELF_TEST_DONE answers it; a switch-over that fails ends it with STATE. -/
def execCpSwap (m : BitVec 5) (s : State) : Outcome :=
  onCommand m 0x0209 s fun s r =>
    let n := chPort (BitVec.ofNat 3 (bytesAt r 0 1))
    let p := s.port n
    if p.swapMbx = some m then
      if p.switching || p.testing then s else (s.modPort n fun p => { p with swapMbx := none }).fails m stState
    else if !p.standbyOk || p.switching || p.testing then s.fails m stState
    else (s.beginSwitch n).modPort n fun p => { p with swapping := true, swapMbx := some m }

/-! ### Faults (13 R558, R562, R566) -/

/-- `fault.react.set` (13 R558, R576): a source that is enabled while it is asserted has an event. -/
def execFaultReactSet (m : BitVec 5) (s : State) : Outcome :=
  onCommand m 0x0301 s fun s r =>
    let i := bytesAt r 0 2
    let was := s.srcEnabled i
    let s := s.setReg (srcCfgAt i) (BitVec.ofNat 32
      (bytesAt r 2 1 * 2 ^ 31 + bytesAt r 5 1 * 2 ^ 26 + bytesAt r 3 1 * 2 ^ 21 + bytesAt r 4 1 * 2 ^ 8))
    let s := s.okay m []
    if !was && s.srcEnabled i && (s.source i).asserted then s.faultEvent i else s

/-- `fault.record.close` (13 R562). -/
def execFaultRecordClose (m : BitVec 5) (s : State) : Outcome :=
  onCommand m 0x0302 s fun s r =>
    let n := BitVec.ofNat 32 (bytesAt r 0 4)
    if !(s.col.store.any fun x => x.fr.recno == n && x.isOpen) then s.fails m stNotFound
    else ((s.modRecord n fun x => { x with sticky := false }).closeRecords).okay m []

/-- `fault.alive.rearm` (13 R566). -/
def execFaultAliveRearm (m : BitVec 5) (s : State) : Outcome :=
  onCommand m 0x0303 s fun s _ =>
    let held := s.col.store.any fun x => x.isOpen && x.fr.react.getLsbD 4
    if held || !s.col.benusFed || !s.col.collectorFed then s.fails m stState
    else ({ s with col := { s.col with armed := true } }).fed.okay m []

/-! ### The calendar clock (14 R625) -/

/-- `time.set` (14 R617, R625). -/
def execTimeSet (m : BitVec 5) (s : State) : Outcome :=
  onCommand m 0x0401 s fun s r =>
    if s.ben.calSource = 2 then s.fails m stState
    else
      let tai := bytesAt r 0 8
      let ns := bytesAt r 8 4
      let step : Int := (Int.ofNat tai - Int.ofNat s.ben.tai.toNat) * 1000000000 + (Int.ofNat ns - Int.ofNat s.ben.taiNs.toNat)
      let s := { s with ben := { s.ben with
        tai := BitVec.ofNat 64 tai, taiNs := BitVec.ofNat 32 ns, utcOff := BitVec.ofNat 16 (bytesAt r 12 2)
        calSource := 1, calValid := true } }
      (s.log 8 noPart ([0, 0, 0, 0, 0, 0, 0, 0] ++ natLe 8 (BitVec.ofInt 64 step).toNat)).okay m []

/-! ### Mailboxes, configuration, reset, keys (14 R594, R609, R610, R627) -/

/-- A mailbox takes a new assignment (14 R594): after the response when its command runs; a request that waits is
cancelled (DESIGN CHOICE, assumption 50). -/
def State.reassign (s : State) (n : BitVec 5) (p : List Byte) : State :=
  let b := s.mbx n
  if b.state = mbRunning then s.setMbx n { b with newOwner := p }
  else
    let s := if b.state = mbQueued then s.respond n stCancelled 0 [] else s
    s.assignMbx n p

/-- `mbx.assign` (14 R583, R594, R603). -/
def execMbxAssign (m : BitVec 5) (s : State) : Outcome :=
  onCommand m 0x0701 s fun s r => (s.reassign (BitVec.ofNat 5 (bytesAt r 0 1)) r).okay m []

/-- The stored configuration holds this register (14 R609, 16 R707): Benus writes it at start and then locks it; the
tables that Benus places itself are not of it. -/
def isConfig (a : Nat) : Bool :=
  let isTable := (a / 0x10000 == 0x00F0 && decide (8 ≤ a % 0x1000) && decide (a % 0x1000 < 0x18))
    || (decide (0x00E00000 ≤ a) && decide (a < 0x00F00000) && (a % 0x10000 == 0x808 || a % 0x10000 == 0x80C))
  !isTable && (match regSpec a with | some r => r.lockAt != 0 || a == fclBase + 0x80 | none => false)

/-- Every instance of the register that an address names. -/
def instances (a : Nat) : List Nat :=
  if 0x00E00000 ≤ a ∧ a < 0x00F00000 then (List.range 16).map fun i => clcBase i + a % 0x10000
  else if a / 0x10000 = 0x00F0 then (List.range 16).map fun i => trnBase i + a % 0x1000
  else if a / 0x10000 = 0x00F1 then (List.range 16).map fun i => cchBase i + a % 0x1000
  else if a / 0x10000 = 0x00F2 then (List.range 16).map fun i => dirBase i + a % 0x1000
  else if 0x00F30000 ≤ a ∧ a < 0x00F38000 then (List.range 8).map fun i => chnBase i + a % 0x1000
  else if 0x00F80000 ≤ a ∧ a < 0x00FC0000 then (List.range 16).map fun i => pmcBase i + a % 0x4000
  else if fclBase + 0x90 ≤ a ∧ a < fclBase + 0xA0 then (List.range 4).map fun i => fclBase + 0x90 + 4 * i
  else [a]

/-- Registers that must hold one value in every instance (14 R609): CLC_ARITH_CTRL, TRN_CTRL, DIR_CTRL, DIR_LFSR,
DIR_GROUP and CLC_TIME_CTRL. -/
def oneValue (a : Nat) : Bool :=
  let clc := decide (0x00E00000 ≤ a) && decide (a < 0x00F00000)
  (clc && (a % 0x10000 == 0xA00 || a % 0x10000 == 0xE40)) || (a / 0x10000 == 0x00F0 && a % 0x1000 == 0)
    || (a / 0x10000 == 0x00F2 && (a % 0x1000 == 0 || a % 0x1000 == 8 || a % 0x1000 == 0xC))

/-- `mod.config.set` (14 R609): the value takes effect at the next start. -/
def execModConfigSet (m : BitVec 5) (s : State) : Outcome :=
  onCommand m 0x0704 s fun s r =>
    let a := bytesAt r 0 4
    let v := BitVec.ofNat 32 (bytesAt r 4 4)
    if !isConfig a then s.respond m stField 0 []
    else
      let at_ := if bytesAt r 8 1 = 1 ∨ oneValue a then instances a else [a]
      let config := at_.foldl (fun c i => Map.set none c i (some v)) s.ben.config
      ({ s with ben := { s.ben with config := config } }).okay m []

/-- `mod.reset` (14 R610, 13 R560, 16 R694, R701): the response is written, then the module is reset; it is refused
while the cause of a protection persists. -/
def execModReset (m : BitVec 5) (s : State) : Outcome :=
  onCommand m 0x0705 s fun s _ =>
    if s.plat.protect ≠ 0 then s.fails m stState
    else
      let s := (s.okay m []).moduleReset
      { s with plat := { s.plat with standbyOnly := false, seqTries := 0 } }

/-- Mailbox 0 as a first start assigns it (14 R594). -/
def firstMailbox : Mailbox := { mailbox0 with owner := whoService, transport := some .svc, classes := 0xFF }

/-- `mod.zeroize`, long (14 R627): every secret, boot image and mailbox assignment is destroyed. A command that runs
in another mailbox finishes first (R594). -/
def execModZeroize (m : BitVec 5) (s : State) : Outcome :=
  onCommand m 0x0706 s fun s _ =>
    let s := s.each (s.keys.filter fun e => e.2.inUse) fun s e => s.eraseKey e.1
    let s := { s with ben := { s.ben with rootKey := [], bootKey := [], bootImages := [] } }
    let s := s.okay m []
    let gone : List Byte := [0, 0xFF, 0, 0, 0]
    let s := s.each ((List.range 32).map (BitVec.ofNat 5)) fun s n => s.reassign n gone
    let s := s.setMbx 0 (if (s.mbx 0).state = mbRunning then
      { s.mbx 0 with newOwner := [0, 0, 0xFF, whoService, 0] } else firstMailbox)
    { s with ben := { s.ben with tls := [] } }

/-- `boot.key.set` (14 R603, R627). -/
def execBootKeySet (m : BitVec 5) (s : State) : Outcome :=
  onCommand m 0x0707 s fun s r => ({ s with ben := { s.ben with bootKey := r } }).okay m []

end Sys2Proof.Machine
end

