-- ==== Sys2Proof/Machine/Updates.lean ====
section
/-! DEFINITION. Images and updates (14 R619 to R624, 06 R268 to R277): staging, the checks of an image, the slots of
each kind, microcode patches over the cells one at a time, channel firmware port by port; and scrubbing (06 R267). -/

namespace Sys2Proof.Machine

/-! ### The fields of an image (06 R268, 14 R619, R620) -/

/-- The sizes of a slot (14 R619). -/
def slotSize (kind : Nat) : Nat :=
  match kind with
  | 1 => 8 * 2 ^ 20
  | 2 => 2 ^ 20
  | _ => 4 * 2 ^ 20

/-- MAGIC of a kind (14 R619). -/
def imageMagic (kind : Nat) : List Byte :=
  match kind with
  | 1 => [0x4D, 0x56, 0x42, 0x46]
  | 2 => [0x4D, 0x56, 0x55, 0x43]
  | 3 => [0x4D, 0x56, 0x43, 0x46]
  | _ => [0x4D, 0x56, 0x50, 0x42]

/-- Header fields (06 R268). -/
def imageKind (img : List Byte) : Nat := bytesAt img 6 1
def imageBase (img : List Byte) : Nat := bytesAt img 10 2
def imageStepping (img : List Byte) : Nat := bytesAt img 12 4
def imageRollback (img : List Byte) : Nat := bytesAt img 16 4
def imageRecords (img : List Byte) : Nat := bytesAt img 20 4
def imageBody (img : List Byte) : List Byte := img.drop 256

/-- Bytes that a format reserves read 0. -/
def zeroBytes (img : List Byte) (o n : Nat) : Bool := ((img.drop o).take n).all (· == 0)

/-! ### Microcode images (06 R245, R254, R269) -/

/-- A record of a patch is well formed: its address is in range and its reserved bits are 0 (06 R269). -/
def patchRecordOk (patch : List Byte) (r : Nat) : Bool :=
  let t := bytesAt patch (20 * r) 4
  let w := bytesAt patch (20 * r + 4) 16
  bitsOf t 30 13 == 0
    && (if bitsOf t 31 31 = 1 then decide (t % 8192 < 1024) && decide (w < 2 ^ 32) && bitsOf w 25 13 == 0
        else bitsOf w 30 0 == 0)

/-- The reserved fields of a full body are 0. -/
def fullBodyOk (body : List Byte) : Bool :=
  ((List.range 1024).all fun i => bitsOf (bytesAt body (4 * i) 4) 25 13 == 0)
    && (List.range 8192).all fun u => bitsOf (bytesAt body (4096 + 16 * u) 16) 30 0 == 0

/-- The functions of a long major (03 R117): how many FN values have an operation; a major of layout LS has no
FN, and all eight indices that R116 gives it must be VALID, since bits [14:12] of its words are the STMT field's (DESIGN
CHOICE, assumption 121). -/
def majorFns (major : Nat) : Nat :=
  match major with
  | 0x01 | 0x02 | 0x08 | 0x09 | 0x0A | 0x0B => 8
  | 0x18 | 0x19 | 0x1A | 0x1B | 0x1C | 0x1D | 0x22 | 0x23 => 8
  | 0x03 | 0x20 => 7
  | 0x04 | 0x26 => 6
  | 0x05 | 0x21 => 5
  | 0x1E | 0x36 => 4
  | 0x06 | 0x35 => 3
  | 0x24 | 0x25 | 0x29 | 0x2A | 0x2B | 0x31 | 0x34 => 2
  | 0x10 | 0x11 | 0x12 | 0x13 | 0x14 | 0x1F | 0x28 | 0x2C | 0x2D | 0x30 | 0x32 | 0x33 => 1
  | _ => 0

/-- Supervisor-only operations (03 R117), and commit-first ones (03 R151). -/
def majorSup (major fn : Nat) : Bool :=
  [0x1C, 0x1D, 0x32, 0x33, 0x34, 0x35, 0x36].contains major || (major == 0x1E && decide (2 ≤ fn))
def majorFirst (major fn : Nat) : Bool :=
  [0x1E, 0x1F, 0x24, 0x29, 0x2C, 0x2D, 0x33, 0x34].contains major || (major == 0x25 && fn == 1)

/-- VALID, SUP and CF of a dispatch entry are as 03 R116 to R118 and R151 give; VALID is 0 at a reserved index of 06
R255. -/
def dispatchOk (i w : Nat) : Bool :=
  let valid := bitsOf w 31 31 == 1
  let sup := bitsOf w 30 30 == 1
  let first := bitsOf w 29 29 == 1
  if i < 512 then
    let is := decide (i % 8 < majorFns (i / 8))
    valid == is && (!is || (sup == majorSup (i / 8) (i % 8) && first == majorFirst (i / 8) (i % 8)))
  else if i < 544 then
    let is := decide (i < 541)
    valid == is && (!is || (!sup && !first))
  else if i < 554 ∨ (560 ≤ i ∧ i < 570) then true
  else !valid

/-- A selector that DEST may name (06 R247). -/
def writable (d : Nat) : Bool :=
  [0x00, 0x01, 0x02, 0x15, 0x19, 0x1A].contains d || (decide (8 ≤ d) && decide (d ≤ 15)) || decide (0x20 ≤ d)

/-- START, NEXT and the sequential paths stay within the store, and DEST names what is writable (06 R270). -/
def placesOk (u w : Nat) : Bool :=
  (mwSeq w != 5 || decide (mwNext w + 15 ≤ 8191)) && (u != 8191 || !([1, 2, 4, 7].contains (mwSeq w)))
    && writable (mwDest w)

/-- A short operation's routine is one microword (06 R270). -/
def shortOk (w : Nat) : Bool :=
  mwClen w == 0 && mwSeq w == 6 && !mwTrail w && mwTokop w == 0 && mwUnit w == 0 && [0, 5, 6].contains (mwMemop w)

/-- What a trailing microword may do (06 R260): the ALU, micro-temporaries, TOKOP 2 and 3, SEQ 0 and 6. A DEST of 0 is
that of a microword that sets no DEST (DEDUCED, assumption 52). -/
def trailOk (w : Nat) : Bool :=
  !mwTrail w || ([0, 2, 3].contains (mwTokop w) && [0, 6].contains (mwSeq w) && mwMemop w == 0 && mwUnit w == 0
    && mwEvent w == 0 && mwSsr w == 0 && mwTchk w == 0 && !mwPoint w
    && (mwDest w == 0 || (decide (8 ≤ mwDest w) && decide (mwDest w ≤ 15))))

/-- A microword with PERFORM ends its routine, raises nothing and does not trail (06 R262). -/
def performOk (w : Nat) : Bool := !mwPerform w || (mwSeq w == 6 && mwEvent w == 0 && !mwTrail w)

/-- Where the sequencer may go after a microword other than a CALL or a RETURN (06 R252). -/
def nextOf (u w : Nat) : List Nat :=
  match mwSeq w with
  | 0 => [mwNext w]
  | 1 | 4 => [mwNext w, u + 1]
  | 5 => (List.range 16).map (mwNext w + ·)
  | 7 => [u + 1]
  | _ => []

/-- One round over the store: the addresses from which a goal is reached without passing a microword with CPOINT set.
A CALL goes on behind itself when its routine returns so. -/
def reachRound (mw : Nat → Nat) (goal : Nat → Bool) (back : List Nat) (known : List Nat) : List Nat :=
  (List.range 8192).filter fun u =>
    let w := mw u
    !mwPoint w && (goal w || (nextOf u w).any known.contains
      || (mwSeq w == 2 && (known.contains (mwNext w) || (back.contains (mwNext w) && known.contains (u + 1)))))

/-- The addresses from which a RETURN is reached without CPOINT. -/
def returnRound (mw : Nat → Nat) (known : List Nat) : List Nat :=
  (List.range 8192).filter fun u =>
    let w := mw u
    !mwPoint w && (mwSeq w == 3 || (nextOf u w).any known.contains
      || (mwSeq w == 2 && known.contains (mwNext w) && known.contains (u + 1)))

/-- The least set that a round keeps: as many rounds as the store has addresses reach it. -/
def fixpoint (round : List Nat → List Nat) : Nat → List Nat
  | 0 => []
  | n + 1 => round (fixpoint round n)

/-- An event-entry routine is straight-line and its holds total 11 cc (06 R264). -/
def entryRoutineOk (mw : Nat → Nat) (u held : Nat) : Nat → Bool
  | 0 => false
  | n + 1 =>
    let w := mw u
    let held := held + mwClen w + 1
    if mwSeq w = 6 then held == 11 else mwSeq w == 0 && entryRoutineOk mw (mwNext w) held n

/-- Checks 6 to 9 of 06 R270, of the image that results: the number of the first that fails. -/
def ucodeFault (body patch : List Byte) : Option Nat :=
  let mw := microOf body patch
  let de := dispatchOf body patch
  let store := List.range 8192
  let valid (i : Nat) : Bool := bitsOf (de i) 31 31 == 1
  let start (i : Nat) : Nat := bitsOf (de i) 12 0
  let back := fixpoint (returnRound mw) 8192
  let perform := fixpoint (reachRound mw mwPerform back) 8192
  let guarded (i : Nat) : Bool := !valid i || bitsOf (de i) 29 29 == 1 || !perform.contains (start i)
  if !((List.range 1024).all fun i => dispatchOk i (de i)) then some 6
  else if !(((List.range 1024).all fun i => !valid i || decide (start i ≤ 8191)) && store.all fun u => placesOk u (mw u)) then
    some 7
  else if !((List.range 29).all fun i => shortOk (mw (start (512 + i)))) then some 8
  else if !((store.all fun u => trailOk (mw u) && performOk (mw u)) && (List.range 1024).all guarded
      && (List.range 7).all fun i => !valid (545 + i) || entryRoutineOk mw (start (545 + i)) 0 12) then some 9
  else none

/-! ### The checks (06 R270, 14 R620) -/

/-- Check 1: MAGIC, FORMAT, KIND, BODY_LEN and RECORDS are consistent, and every reserved field is 0. -/
def formatOk (kind : Nat) (img : List Byte) : Bool :=
  let body := imageBody img
  img.take 4 == imageMagic kind && bytesAt img 4 2 == 1 && decide (256 ≤ img.length) && bytesAt img 24 4 == body.length
    && zeroBytes img 7 1 && (kind == 4 || zeroBytes img 28 4) && zeroBytes img 80 48 && zeroBytes img 224 32
    && (if kind ≠ 2 then imageKind img == 1 && imageRecords img == 0 && imageBase img == 0
        else if imageKind img = 1 then
          imageBase img == 0 && imageRecords img == 8192 && body.length == 135168 && fullBodyOk body
        else
          imageKind img == 2 && decide (1 ≤ imageRecords img) && decide (imageRecords img ≤ 9216)
            && body.length == 20 * imageRecords img && (List.range (imageRecords img)).all (patchRecordOk body))

/-- Check 3: the signature over the header's first 128 bytes, and the digest of the body. The key is a public point:
0x04, then x and y. -/
def signatureOk (key img : List Byte) : Bool :=
  let x := beNat ((key.drop 1).take 48)
  let y := beNat ((key.drop 49).take 48)
  (img.drop 32).take 48 == Digest.sha384 (imageBody img)
    && Ecdsa.verify Ecdsa.p384 x y (Digest.sha384 (img.take 128)) ((img.drop 128).take 96)

/-- Check 5, of a patch: BASE is the running VERSION, and each TARGET is named once. -/
def baseOk (running : Nat) (img : List Byte) : Bool :=
  imageKind img != 2 || (imageBase img == running
    && (let ts := (List.range (imageRecords img)).map fun r => bytesAt (imageBody img) (20 * r) 4
        ts == ts.eraseDups))

/-- The STATUS and DETAIL of the first check that an image fails; the module's stepping is B1. `running` and `full` are
the version a patch must name and the body it goes over. -/
def State.imageFault (s : State) (kind : Nat) (img : List Byte) (running : Nat) (full : List Byte) : Option (Nat × Nat) :=
  let key := if kind = 4 then s.ben.bootKey else Config.imageKey
  if !formatOk kind img then some (stImage, 1)
  else if !(imageStepping img).testBit 3 then some (stStepping, 0)
  else if key = [] ∨ !signatureOk key img then some (stSignature, 0)
  else if kind ≠ 4 ∧ imageRollback img < (s.fwKind kind).counter then some (stRollback, 0)
  else if kind ≠ 2 then none
  else if !baseOk running img then some (stImage, 5)
  else
    let found := if imageKind img = 2 then ucodeFault full (imageBody img) else ucodeFault (imageBody img) []
    found.map fun n => (stImage, n)

/-! ### The log of updates (14 R617) -/

/-- An update record. FREE VALUE: its step code, which the manual does not number (assumption 53). -/
def State.logUpdate (s : State) (kind version status count : Nat) : State :=
  let (step, s) := s.drawBytes 1
  s.log 7 noPart ([BitVec.ofNat 8 kind] ++ step ++ natLe 2 version ++ natLe 2 status ++ natLe 2 count)

/-- An update command ends: its record and its response. -/
def State.endUpdate (s : State) (m : BitVec 5) (kind status detail count : Nat) (payload : List Byte) : State :=
  (s.logUpdate kind ((s.fwKind kind).version kind (s.fwKind kind).active) status count).respond m status detail payload

/-! ### Staging (14 R621) -/

/-- `fw.stage` (14 R621); an image longer than its slot has no room (DESIGN CHOICE, assumption 51). -/
def execFwStage (m : BitVec 5) (s : State) : Outcome :=
  onCommand m 0x0501 s fun s r =>
    let kind := bytesAt r 0 1
    let key := stageKey kind (bytesAt r 1 1)
    let old := if bytesAt r 2 1 % 2 = 1 then [] else (s.staged key).bytes
    let bytes := old ++ r.drop 8
    if bytesAt r 4 4 ≠ old.length then s.respond m stField 4 []
    else if slotSize kind < bytes.length then s.fails m stResource
    else (s.setStaged key { bytes := bytes, complete := 2 ≤ bytesAt r 2 1 }).okay m (natLe 4 bytes.length)

/-! ### Slots (14 R619, R622, R624) -/

/-- Write an image, and the patch over it, into a slot. -/
def FwKind.put (x : FwKind) (slotB : Bool) (img patch : List Byte) : FwKind :=
  if slotB then { x with imgB := img, patchB := patch } else { x with imgA := img, patchA := patch }

/-- The microcode of a slot, as a bank holds it (06 R243, R271). -/
def FwKind.ucImage (x : FwKind) (slotB : Bool) : UcImage :=
  { body := imageBody (x.image slotB), patch := imageBody (x.over slotB) }

/-- The slot selector is switched, and the slot that is now active is on trial. -/
def FwKind.switched (x : FwKind) : FwKind := { x with active := !x.active, trial := true, trialFails := 0 }

/-- The image on top in a slot: its patch where it has one. -/
def FwKind.top (x : FwKind) (slotB : Bool) : List Byte := if x.over slotB = [] then x.image slotB else x.over slotB

/-- ROLLBACK of the image on top in a slot (14 R624). -/
def FwKind.rollback (x : FwKind) (kind : Nat) (slotB : Bool) : Nat :=
  if x.top slotB = [] then (Config.shippedRollback kind).toNat else imageRollback (x.top slotB)

/-- What `fw.commit` puts into the inactive slot before it is switched (14 R622). -/
def State.stageIntoSlot (s : State) (kind : Nat) : State :=
  let img := (s.staged (stageKey kind 0)).bytes
  s.modFwKind kind fun x =>
    if kind = 2 ∧ imageKind img = 2 then x.put (!x.active) (x.image x.active) img else x.put (!x.active) img []

/-- A commit or a revert of a kind switches its slot: a commit fills the inactive slot first. -/
def State.switchSlot (s : State) (kind : Nat) (commit : Bool) : State :=
  (if commit then s.stageIntoSlot kind else s).modFwKind kind FwKind.switched

/-- The STATUS and DETAIL with which a commit or a revert of kind 1 to 3 is refused (14 R622, R624). -/
def State.updateFault (s : State) (kind : Nat) (commit : Bool) : Option (Nat × Nat) :=
  let x := s.fwKind kind
  if commit then
    let st := s.staged (stageKey kind 0)
    if !st.complete then some (stState, 0)
    else s.imageFault kind st.bytes (x.version kind x.active) (imageBody (x.image x.active))
  else
    let other := x.image (!x.active)
    if !x.has (!x.active) then some (stNotFound, 0)
    else if x.top (!x.active) = [] then (if x.rollback kind (!x.active) < x.counter then some (stRollback, 0) else none)
    else s.imageFault kind (x.top (!x.active)) (x.version kind (!x.active)) (imageBody other)

/-! ### Patching the cells of a running module (06 R272 to R276) -/

/-- CLC_UC_CELL_p by the number cluster × 256 + physical cell, and two of its bits. -/
def ucCellAt (x : Nat) : Nat := clcBase (x / 256) + 0xC40 + 4 * (x % 256)
def State.isLoaded (s : State) (x : Nat) : Bool := bit (s.reg (ucCellAt x)) 0
def State.cellBank (s : State) (x : Nat) : Bool := bit (s.reg (ucCellAt x)) 2

/-- Every physical cell, in the order of a patch (06 R272 step 2). -/
def physCells (g : Nat) : List Nat := (List.range 18).map (256 * g + ·)
def allPhysCells : List Nat := ((List.range 16).map physCells).flatten

/-- The logical cells that must drain before a physical cell is written: the one bound to it, and its twin (06
R274). -/
def State.boundCells (s : State) (x : Nat) : List CellId :=
  match (cellsOf (BitVec.ofNat 4 (x / 256))).find? fun c => s.regField (clcCell c 0xF40) 4 0 == x % 256 with
  | none => []
  | some c => if s.twinned c then [c, s.peerOf c] else [c]

/-- The number of the physical cell of a logical cell. -/
def State.physKey (s : State) (c : CellId) : Nat := (clusterOf c).toNat * 256 + s.regField (clcCell c 0xF40) 4 0

/-- The physical cells that change bank in one step with `x`. -/
def State.together (s : State) (x : Nat) : List Nat :=
  match s.boundCells x with
  | [c, d] => [s.physKey c, s.physKey d]
  | _ => [x]

/-- Patch result and response (14 R617, R622; 06 R275). -/
def State.endPatch (s : State) (r : PatchRun) : State :=
  let left := allPhysCells.filter r.left.contains
  let pairs := ((left.take 114).map fun x => [BitVec.ofNat 8 (x / 256), BitVec.ofNat 8 (x % 256)]).flatten
  let counts := natLe 2 r.patched ++ natLe 2 left.length
  let s := { s with ben := { s.ben with patch := none } }
  (s.log 12 noPart (counts ++ pairs)).endUpdate r.mailbox 2 stOk 0 r.patched counts

/-- Step 3 for the next cell of a patch, or the end of it: the cell gets no new frame, SA stops, and PARKED WORKGETs
return INT 0. -/
def State.drainHead (s : State) (r : PatchRun) : State :=
  match r.todo with
  | [] => s.endPatch r
  | (x, _) :: _ =>
    let s := { s with ben := { s.ben with patch := some { r with since := s.now } } }
    let s := s.cancelMigrations (s.boundCells x)
    s.each (s.boundCells x) fun s c => (s.modCell c fun y => { y with draining := true }).unparkAll c

/-- Step 1 of 06 R272: the slot is switched, and the image that results goes into the bank that no cell of a cluster
uses; then the cells follow in their order. -/
def State.startPatch (s : State) (m : BitVec 5) : State :=
  let s := (s.switchSlot 2 ((s.mbx m).cmd == 0x0502)).modMbx m fun b => { b with progress := 1 }
  let x := s.fwKind 2
  let s := s.each (List.range 16) fun s g =>
    let used := match (physCells g).find? s.isLoaded with
      | some y => s.cellBank y
      | none => true
    let s := s.setReg (clcBase g + 0xC08 + 4 * (if used then 0 else 1)) (BitVec.ofNat 32 (x.version 2 x.active))
    s.modCluster (BitVec.ofNat 4 g) fun cl => ({ cl with newBank := !used } : Cluster).setBank (!used) (x.ucImage x.active)
  s.drainHead { finishing := false, todo := (allPhysCells.filter s.isLoaded).map fun y => (y, 0), left := [], patched := 0
                mailbox := m, since := s.now }

/-- The next cell; a change that left clusters mixed is complete once its cells are (06 R276). -/
def State.nextCell (s : State) (r : PatchRun) : State :=
  if r.finishing ∧ r.todo = [] then s.startPatch r.mailbox else s.drainHead r

/-- Step 5 of 06 R272: the cells that drained go on, and their frames' quiet times with them. -/
def State.restoreCells (s : State) (since : BitVec 64) : State :=
  let cs := (s.cells.filter fun e => e.2.draining).map fun e => BitVec.ofNat 8 e.1
  let s := s.each cs fun s c => s.each (s.framesOn c) fun s f => s.modFrame f fun x =>
    { x with lastCommit := laterCommit s.now since x.lastCommit }
  s.each cs fun s c => s.modCell c fun y => { y with draining := false }

/-- Begin to bring the image of the active microcode slot into the cells: first a change that left clusters mixed is
completed (06 R276). -/
def State.beginPatch (s : State) (m : BitVec 5) : State :=
  let s := s.each allPhysCells fun s x => s.setRegField (ucCellAt x) 15 8 0
  let mixed := (List.range 16).filter s.isMixed
  let behind := (mixed.map physCells).flatten.filter fun x =>
    s.isLoaded x && s.cellBank x != (s.cluster (BitVec.ofNat 4 (x / 256))).newBank
  s.nextCell { finishing := true, todo := behind.map fun x => (x, 0), left := [], patched := 0, mailbox := m
               since := s.now }

/-- CELL_DRAIN_COMPLETE (06 R272 steps 3 to 5, R274): the cell in hand has drained; the new bank is copied into it, read
back and bound to it, and it goes on. -/
def execCellDrainComplete (cluster : BitVec 4) (phys : BitVec 5) (s : State) : Outcome :=
  let x := cluster.toNat * 256 + phys.toNat
  match s.ben.patch with
  | none => idle s
  | some r =>
    match r.todo with
    | [] => idle s
    | (y, _) :: rest =>
      if x ≠ y ∨ !((s.boundCells x).all s.isDrained) ∨ s.col.copying.any (fun e => (s.boundCells x).contains e.1) then idle s
      else
        let xs := (s.together x).filter s.isLoaded
        let s := s.each xs fun s z =>
          s.setRegField (ucCellAt z) 2 2 (if (s.cluster (BitVec.ofNat 4 (z / 256))).newBank then 1 else 0)
        .next ((s.restoreCells r.since).nextCell
          { r with todo := rest.filter fun e => !(xs.contains e.1), patched := r.patched + xs.length })

/-- DRAIN_TIMEOUT (06 R275, R276): the cell in hand goes on with its old bank and comes again after the others; after 8
attempts it stays on the old image, and a change that must be completed first ends with STATE. -/
def execDrainTimeout (cluster : BitVec 4) (phys : BitVec 5) (s : State) : Outcome :=
  let x := cluster.toNat * 256 + phys.toNat
  match s.ben.patch with
  | none => idle s
  | some r =>
    match r.todo with
    | [] => idle s
    | (y, n) :: rest =>
      if x ≠ y ∨ (s.boundCells x).all s.isDrained then idle s
      else
        let s := (s.restoreCells r.since).bumpField (ucCellAt x) 15 8
        if n + 1 < 8 then .next (s.nextCell { r with todo := rest ++ [(x, n + 1)] })
        else if r.finishing then
          .next (({ s with ben := { s.ben with patch := none } }).endUpdate r.mailbox 2 stState x 0 [])
        else
          let xs := s.together x
          .next (s.nextCell { r with todo := rest.filter fun e => !(xs.contains e.1), left := r.left ++ xs })

/-- CONTROL_STORE_SCRUB (06 R267, R280; 13 R541): a microword that fails its check is rewritten from the cell's repair
bank; one that fails again within 1 s is lasting. -/
def execControlStoreScrub (cluster : BitVec 4) (phys : BitVec 5) (address : BitVec 13) (bad : Bool) (s : State) : Outcome :=
  let base := clcBase cluster.toNat
  if !bit (s.reg (base + 0xC00)) 16 ∨ !s.isLoaded (cluster.toNat * 256 + phys.toNat) then idle s
  else if !bad then .next s
  else
    let key := (phys.toNat, address.toNat)
    let same (r : Nat × Nat × BitVec 64) : Bool := r.1 == key.1 && r.2.1 == key.2
    let again := (s.cluster cluster).rewritten.any fun r => same r && decide ((s.now - r.2.2).toNat < 1000000000)
    let s := s.modCluster cluster fun cl =>
      { cl with rewritten := (cl.rewritten.filter fun r => !same r) ++ [(key.1, key.2, s.now)] }
    let s := s.bumpField (base + 0xCA0 + 4 * phys.toNat) 15 8
    .next (if again then s.assertSevere (clusterSource cluster phys.toNat) else s)

/-! ### Channel firmware (14 R622) -/

/-- How far a commit of channel firmware has come: the port in hand, whether its swap runs, and the ports that were
skipped, packed into the progress of its mailbox. -/
def State.loadPorts (s : State) (m : BitVec 5) : Nat → State
  | 0 => s
  | fuel + 1 =>
    let b := s.mbx m
    let k := b.progress % 32 - 1
    let skipped := b.progress / 32
    let n := BitVec.ofNat 4 (k / 2)
    let p := s.port n
    let go (s : State) (k skipped : Nat) : State := s.modMbx m fun b => { b with progress := k + 1 + 32 * skipped }
    if 16 ≤ k then
      let done := (List.range 8).map fun i => if skipped.testBit i then (1 : Byte) else 0
      s.endUpdate m 3 stOk 0 (8 - (done.filter (· == 1)).length) done
    else if k % 2 = 1 then
      if p.switching || p.testing then s else State.loadPorts (go s (k + 1) skipped) m fuel
    else if p.switching || p.testing then s
    else if p.standbyOk then go ((s.beginSwitch n).modPort n fun p => { p with swapping := true }) (k + 1) skipped
    else if b.flags % 2 = 1 then
      State.loadPorts (go (if p.link = linkUp then s.endSession n else s) (k + 2) skipped) m fuel
    else State.loadPorts (go s (k + 2) (skipped + 2 ^ (k / 2))) m fuel

/-! ### The commands (14 R622, R624) -/

/-- A commit or a revert of kind 1 to 3, once its image has passed: what the row of 14 R622 does. Benus firmware is
answered before Benus stops for its restart, which BENUS_RESTART ends. -/
def State.activate (s : State) (m : BitVec 5) (kind : Nat) (commit : Bool) : State :=
  if kind = 1 then
    let s := (s.switchSlot 1 commit).endUpdate m 1 stOk 0 0 []
    { s with ben := { s.ben with running := false } }
  else if kind = 2 then s.beginPatch m
  else ((s.switchSlot 3 commit).modMbx m fun b => { b with progress := 1 }).loadPorts m 20

/-- A commit or a revert that is under way goes on; one that was interrupted after its slot was switched is complete
once every cell is loaded. -/
def State.continueUpdate (s : State) (m : BitVec 5) (kind : Nat) : State :=
  if kind = 3 then s.loadPorts m 20
  else
    match s.ben.patch with
    | some _ => s
    | none =>
      let n := (allPhysCells.filter s.isLoaded).length
      s.endUpdate m 2 stOk 0 n (natLe 2 n ++ [0, 0])

/-- A commit or a revert of kind 1 to 3 is in progress on another mailbox: BUSY (14 R611). -/
def State.updateBusy (s : State) (m : BitVec 5) (kind : Nat) : Bool :=
  kind == 2 && (match s.ben.patch with | some r => r.mailbox != m | none => false)

/-- The common course of `fw.commit` and `fw.revert` for kinds 1 to 3. -/
def State.update (s : State) (m : BitVec 5) (kind : Nat) (commit : Bool) : State :=
  if (s.mbx m).progress ≠ 0 then s.continueUpdate m kind
  else if (match s.ben.patch with | some r => kind == 2 && r.mailbox == m | none => false) then s
  else if s.updateBusy m kind then s.fails m stBusy
  else
    match s.updateFault kind commit with
    | some (st, d) => s.endUpdate m kind st d 0 []
    | none => s.activate m kind commit

/-- `fw.commit`, long (14 R622). -/
def execFwCommit (m : BitVec 5) (s : State) : Outcome :=
  onCommand m 0x0502 s fun s r =>
    let kind := bytesAt r 0 1
    let part := bytesAt r 1 1
    if kind ≠ 4 then s.update m kind true
    else
      let st := s.staged (stageKey 4 part)
      if !st.complete then s.fails m stState
      else
        match s.imageFault 4 st.bytes 0 [] with
        | some (e, d) => (s.logUpdate 4 (imageVersion st.bytes) e 0).respond m e d []
        | none =>
          let s := { s with ben := { s.ben with bootImages := Map.set [] s.ben.bootImages part st.bytes } }
          (s.logUpdate 4 (imageVersion st.bytes) stOk 0).okay m []

/-- `fw.confirm` (14 R624): the counter never decreases. -/
def execFwConfirm (m : BitVec 5) (s : State) : Outcome :=
  onCommand m 0x0503 s fun s r =>
    let kind := bytesAt r 0 1
    let x := s.fwKind kind
    if !x.has x.active then s.fails m stNotFound
    else
      let n := max x.counter (x.rollback kind x.active)
      (s.modFwKind kind fun x => { x with counter := n, trial := false, trialFails := 0 }).endUpdate m kind stOk 0 0
        (natLe 2 n)

/-- `fw.revert`, long (14 R624). -/
def execFwRevert (m : BitVec 5) (s : State) : Outcome :=
  onCommand m 0x0504 s fun s r => s.update m (bytesAt r 0 1) false

end Sys2Proof.Machine
end

