-- ==== Sys2Proof/Machine/Hierarchy.lean ====
section
/-! DEFINITION. The module's place in its system (15 R628 to R640, 11 R477, R478): fabric identity, roles, epochs,
decisions and fail-over; system time (15 R641 to R647); performance counters that wrap and dump (15 R650, R651). -/

namespace Sys2Proof.Machine

/-! ### Fabric identity (15 R628 to R632) -/

/-- The partner module of a fabric port (15 R628); the partner port has the same number. -/
def partnerOf (modn : BitVec 12) (p : Nat) : BitVec 12 :=
  let g := modn.toNat / 64
  let i := modn.toNat % 64
  if p < 6 then BitVec.ofNat 12 (g * 64 + Nat.xor i (2 ^ p))
  else if p = 6 then BitVec.ofNat 12 (Nat.xor g (2 ^ (i % 6)) * 64 + i)
  else BitVec.ofNat 12 (Nat.xor g (2 ^ ((i + 3) % 6)) * 64 + i)

/-- A fabric port, and changing it. -/
def State.fab (s : State) (p : Nat) : FabPort := Map.get fabPort0 s.hier.ports p
def State.modFab (s : State) (p : Nat) (f : FabPort → FabPort) : State :=
  { s with hier := { s.hier with ports := Map.set fabPort0 s.hier.ports p (f (s.fab p)) } }

/-- The link port of a fabric port. -/
def fabLink (p : Nat) : BitVec 4 := BitVec.ofNat 4 (8 + p)

/-- What a neighbour's IDENT allows on a port (15 R631, R632). -/
def State.admits (s : State) (p : Nat) : BitVec 2 :=
  match (s.fab p).peer with
  | none => 0
  | some m =>
    if s.hier.numbered && m.numbered then
      if m.system = s.hier.system ∧ m.module = partnerOf s.hier.modn p ∧ m.port.toNat = p then 2 else 3
    else if s.hier.numbered != m.numbered then 1
    else 0

/-- Evaluate a port anew (15 R631): a refusal asserts its source, and a port that is no longer admitted carries no
session. -/
def State.evalPort (s : State) (p : Nat) : State :=
  let was := (s.fab p).state
  let is := s.admits p
  let s := s.modFab p fun f => { f with state := is }
  let s := if is = 3 ∧ was ≠ 3 then s.assertSrc (ledgerSource 11) else s
  if was = 2 ∧ is ≠ 2 then
    if (s.port (fabLink p)).link = linkUp then s.endSession (fabLink p)
    else s.modPort (fabLink p) fun y => { y with link := linkDown }
  else s

/-- FABRIC_LINK_TRAINED (15 R629): corrected polarity or reversal is counted in the port's fault source. -/
def execFabricLinkTrained (port : BitVec 3) (corrected : Bool) (s : State) : Outcome :=
  let s := (s.modFab port.toNat fun _ => { fabPort0 with up := true })
  .next (if corrected then s.assertSrc (ledgerSource (3 + port.toNat)) else s)

/-- The IDENT of the module on a port (15 R630). -/
def State.ownIdent (s : State) (port : BitVec 3) : Ident :=
  let h := s.hier
  { system := h.system, numbered := h.numbered, module := if h.numbered then h.modn else 0, port := port, role := h.role
    gepoch := h.gepoch, sepoch := h.sepoch, holder := none }

/-- IDENT_SEND (15 R630). -/
def execIdentSend (port : BitVec 3) (s : State) : Outcome :=
  if (s.fab port.toNat).up then .next (s.emit (.ident port (s.ownIdent port))) else idle s

/-! ### Roles (15 R633, 01 R32) -/

/-- A neighbour's IDENT agrees with a new number: one that holds no number yet says nothing against it (DEDUCED,
assumption 54). -/
def agrees (modn : BitVec 12) (p : Nat) (m : Ident) : Bool :=
  !m.numbered || (m.module == partnerOf modn p && m.port.toNat == p)

/-- A neighbour names another module as the holder of a role, with a higher epoch of its scope. The system Hart is the
group Hart of its group too (01 R29). -/
def State.claimed (s : State) (role : BitVec 2) (modn : BitVec 12) (m : Ident) : Bool :=
  let inGroup0 : Bool := role == 1 && m.role == 2
  let named := m.holder.or (if m.role = role ∨ inGroup0 then some m.module else none)
  let higher :=
    if role = 2 then decide (s.hier.sepoch < m.sepoch)
    else role == 1 && decide (s.hier.gepoch < m.gepoch) && m.module.toNat / 64 == modn.toNat / 64
  higher && (match named with | some h => h != modn | none => false)

/-- Whether the neighbours confirm a role; none while a port in UP state has not reported. -/
def State.confirms (s : State) (role : BitVec 2) (modn : BitVec 12) : Option Bool :=
  let ups := (List.range 8).filter fun p => (s.fab p).up
  if ups.any fun p => (s.fab p).peer.isNone then none
  else some (ups.all fun p => match (s.fab p).peer with
    | some m => agrees modn p m && !s.claimed role modn m
    | none => false)

/-- The SYSTEM of a neighbour that holds a number. -/
def State.neighbourSystem (s : State) : Option Word :=
  (List.range 8).findSome? fun p => match (s.fab p).peer with
    | some m => if m.numbered ∧ (s.fab p).up then some m.system else none
    | none => none

/-- The calendar clock's TAI, in ns (14 R625). -/
def State.taiNanos (s : State) : BitVec 64 := BitVec.ofNat 64 (s.ben.tai.toNat * 1000000000 + s.ben.taiNs.toNat)

/-- A confirmed role takes effect; at the system's first start its Hart sets system time from its calendar clock, unless
a partition runs (15 R641). FREE VALUE: the SYSTEM that the system Hart chooses at the system's first start; a
module that joins takes its neighbour's (DEDUCED, assumption 54). -/
def State.takeRole (s : State) (role : BitVec 2) (modn : BitVec 12) (standbyOf : Option (BitVec 12)) : State :=
  let (v, s) := s.draw
  let first : Bool := role == 2 && !s.hier.numbered && s.neighbourSystem.isNone && !s.parts.any fun e => e.2.isLive
  let s := if first then { s with now := s.taiNanos } else s
  let system := if s.hier.numbered then s.hier.system else s.neighbourSystem.getD (v.setWidth 32)
  let s := { s with hier := { s.hier with
    system := system, numbered := true, modn := modn, role := role, standbyOf := standbyOf, lease := false
    heartbeat := false } }
  (s.each (List.range 8) State.evalPort).logRole role false modn

/-- A role that waits for the neighbours is confirmed, or refused and the previous one stays (01 R32). -/
def State.settleRole (s : State) : State :=
  match s.hier.pendingRole with
  | none => s
  | some (role, modn, standbyOf, m) =>
    match s.confirms role modn with
    | none => s
    | some ok =>
      let s := { s with hier := { s.hier with pendingRole := none } }
      if ok then (s.takeRole role modn standbyOf).okay m []
      else (s.logRole role true modn).fails m stState

/-- `role.set`, long (14 R603, 15 R633): IDENT confirms it where the neighbours have not reported yet. -/
def execRoleSet (m : BitVec 5) (s : State) : Outcome :=
  onCommand m 0x0702 s fun s r =>
    let half (o : Nat) : BitVec 12 := BitVec.ofNat 12 (bytesAt r o 2)
    let standbyOf := if bytesAt r 4 2 = 0xFFFF then none else some (half 4)
    match s.hier.pendingRole with
    | some (_, _, _, n) => if n = m then s.settleRole else s
    | none =>
      ({ s with hier := { s.hier with pendingRole := some (BitVec.ofNat 2 (bytesAt r 0 1), half 2, standbyOf, m) } }).settleRole

/-- `ledger.pair` (11 R477): the partner is another module of the group. -/
def execLedgerPair (m : BitVec 5) (s : State) : Outcome :=
  onCommand m 0x0703 s fun s r =>
    let w := bytesAt r 0 2
    if w = 0xFFFF then ({ s with hier := { s.hier with partner := none } }).okay m []
    else if w / 64 ≠ s.hier.modn.toNat / 64 ∨ w = s.hier.modn.toNat then s.respond m stField 0 []
    else ({ s with hier := { s.hier with partner := some (BitVec.ofNat 12 w) } }).okay m []

/-- A dead module whose IDENT arrives rejoins; a mirror partner only after its copies here are resolved, and it takes
their outcomes (11 R478; what shows a rejoin: DEDUCED, assumption 65). -/
def State.rejoin (s : State) (d : BitVec 12) : State :=
  let paired := s.hier.partner == some d
  if !(s.hier.deadMods.contains d || s.hier.gone.contains d) || (paired && !s.copies.all fun e => e.state == ldClosed) then s
  else
    let s := { s with hier := { s.hier with
      deadMods := s.hier.deadMods.filter (· != d), gone := s.hier.gone.filter (· != d) } }
    if paired then { s.each s.copies (fun s e => s.emit (.mirror d e.words)) with copies := [] } else s

/-- An IDENT arrives at a connected port (11 R478; 15 R631 to R633, R639). -/
def State.identArrives (s : State) (p : Nat) (m : Ident) : State :=
    let s := s.rejoin m.module
    let s := (s.modFab p fun f => { f with peer := some m }).evalPort p
    let s := if (s.fab p).state ≠ 2 then s
      else
        let s := if m.module.toNat / 64 = s.hier.modn.toNat / 64 then s.sawEpoch true m.gepoch else s
        s.sawEpoch false m.sepoch
    s.settleRole

/-! ### A dead module is declared dead (11 R478, 10 R435) -/

/-- The partner resolves the entries of a dead module: an outbound one goes IN_DOUBT and is queried, an inbound one
closes (11 R478). -/
def State.resolvePartner (s : State) (d : BitVec 12) : State :=
  if s.hier.partner ≠ some d then s
  else
    s.each (s.copies.filter fun e => e.state != ldClosed) fun s e =>
      if e.kind.getLsbD 0 then
        let some_ := s.copies.any fun x => x.itemTn == e.tn && !x.kind.getLsbD 0
        let outcome := if some_ then ocPartial else ocUnprocessed
        (s.closeCopy e.tn outcome).sendResolve (e.path.setWidth 4) e.tn (s.lchOf e.sub) outcome
      else
        let s := { s with copies := s.copies.map fun (x : Ledger) =>
          if x.tn == e.tn && x.kind == e.kind then { x with state := ldInDoubt, doubted := true } else x }
        s.each ((s.entryPaths e).filter fun q => (s.port q).link == linkUp) fun s q =>
          s.sendFrame q tyQuery (frame11 (s.lchOf e.sub) e.tn 0 [])

/-- A module is declared dead: its agents and homes are, if they were not before. -/
def State.moduleDead (s : State) (d : BitVec 12) : State :=
  if s.hier.deadMods.contains d then s
  else (({ s with hier := { s.hier with deadMods := s.hier.deadMods ++ [d] } }).resolvePartner d).loseModule d

/-! ### Decisions (15 R634 to R638) -/

/-- Two decisions are about the same thing: the later replaces the earlier. -/
def sameSubject (a b : Decision) : Bool :=
  match a, b with
  | .placement p _, .placement q _ => p == q
  | .role m _, .role n _ => m == n
  | .pair _, .pair _ => true
  | .dead m, .dead n => m == n
  | .time _, .time _ => true
  | _, _ => false

/-- Keep a decision among the current ones. -/
def State.keepDecision (s : State) (group : Bool) (e : Word) (d : Decision) : State :=
  { s with hier := { s.hier with
    decisions := (s.hier.decisions.filter fun x => !(x.1 == group && sameSubject x.2.2 d)) ++ [(group, e, d)] } }

/-- A measured offset in ns from upstream (15 R642, R663): LOCKED within 1 µs. The slew that follows changes the rate of
system time only, which the model's ticks do not show (assumption 5). -/
def State.takeOffset (s : State) (v : BitVec 64) : State :=
  let o := v.toInt
  let sat : Int := max (-32768) (min 32767 o)
  { s with hier := { s.hier with offset := BitVec.ofInt 16 sat, locked := decide (-1000 ≤ o) && decide (o ≤ 1000) } }

/-- What an accepted decision does here: a mirror partner is another module of the group (01 R34). A `role` decision
reaches its module as `role.set`. -/
def State.obey (s : State) (epoch : Word) (d : Decision) : State :=
  match d with
  | .placement p ws =>
    let x := s.part p
    if x.isLive then s.setPart p { x with weights := x.span.zip ws, epoch := epoch } else s
  | .role _ _ => s
  | .pair q =>
    let fits : Bool := match q with | some m => m != s.hier.modn && m.toNat / 64 == s.hier.modn.toNat / 64 | none => true
    if fits then { s with hier := { s.hier with partner := q } } else s
  | .dead m => s.moduleDead m
  | .time o => if s.hier.role = 2 then s else s.takeOffset o

/-- The module is a Hart. -/
def State.isHart (s : State) : Bool := s.hier.role == 1 || s.hier.role == 2

/-- The Hart may issue decisions (15 R637): it has no standby, or its lease runs. -/
def State.mayIssue (s : State) : Bool := s.isHart && (!s.hier.heartbeat || s.hier.lease)

/-- The module is the Hart of a scope: of its group, or of the system. -/
def State.hartOf (s : State) (group : Bool) : Bool := if group then s.isHart else s.hier.role == 2

/-- HART_DECISION (15 R634 to R636, R639; 01 R33): refused below the highest epoch seen in its scope; the standby keeps
what reaches it. At the Hart of the scope, whose epoch it is, the decision is its own: it goes out, to the standby
too, while the Hart may issue (DESIGN CHOICE, assumption 127). -/
def execHartDecision (group : Bool) (epoch : Word) (d : Decision) (s : State) : Outcome :=
  let highest := if group then s.hier.gepoch else s.hier.sepoch
  if epoch < highest then .next s
  else if s.hartOf group ∧ epoch = highest then
    if s.mayIssue then .next (((s.keepDecision group epoch d).emit (.decision group epoch d)).obey epoch d) else .next s
  else
    let s := s.sawEpoch group epoch
    let s := if s.hier.role = 3 then s.keepDecision group epoch d else s
    .next (s.obey epoch d)

/-- A module's summary of a spanning partition reaches its group Hart (07 R291; 01 R33): the Hart answers with a weight
for each module of the span, and obeys that for its own cells. Of a partition that is not on the module it knows the
modules that have sent one. FREE VALUE: the weights. -/
def State.hartSummary (s : State) (p : BitVec 6) (m : Summary) : State :=
  if !s.isHart || m.module.toNat / 64 != s.hier.modn.toNat / 64 then s
  else
    let sums := Map.set none s.hier.summaries (p.toNat * 4096 + m.module.toNat) (some m)
    let s := { s with hier := { s.hier with summaries := sums } }
    let x := s.part p
    let n := if x.isLive then x.span.length else (sums.filter fun e => e.1 / 4096 == p.toNat).length
    let (ws, s) := s.drawBytes n
    if !s.mayIssue then s
    else
      let d := Decision.placement p ws
      ((s.keepDecision true s.hier.gepoch d).emit (.decision true s.hier.gepoch d)).obey s.hier.gepoch d

/-- SPAN_SUMMARY (07 R291): free frames, the mean ready list over the partition's cells, and the items that wait
in its work queues go to the group Hart; at the Hart a module's summary arrives. -/
def execSpanSummary (m : SpanMsg) (s : State) : Outcome :=
  let part := m.part
  let x := s.part part
  match m.arrives with
  | some m => if s.isHart then .next (s.hartSummary part m) else idle s
  | none =>
  if !x.isLive || x.span.length < 2 then idle s
  else
    let ready := (x.cells.map fun c => (s.cell c).ready.length).sum
    let waiting := (s.items.filter fun i => i.part == part && !i.taken && !i.ended && !i.abandoned).length
    let w (n : Nat) : Word := BitVec.ofNat 32 n
    .next ((((s.emit (.hart 0x10 (part.setWidth 32))).emit (.hart 0x11 (w (x.quota - s.framesHeld part)))).emit
      (.hart 0x12 (w (ready / max 1 x.cells.length)))).emit (.hart 0x13 (w waiting)))

/-- HART_HEARTBEAT (15 R636): a Hart sends it, and its lease starts anew when the standby acknowledges it; a standby
that it reaches acknowledges it. -/
def execHartHeartbeat (acknowledged : Bool) (s : State) : Outcome :=
  if s.isHart then
    let s := s.emit (.hart 0 0)
    .next (if acknowledged then { s with hier := { s.hier with lease := true, heartbeat := true } } else s)
  else if s.hier.role = 3 then .next (s.emit (.hart 1 0))
  else idle s

/-- HART_LEASE_END (15 R637). -/
def execHartLeaseEnd (s : State) : Outcome :=
  if s.isHart && s.hier.lease then .next { s with hier := { s.hier with lease := false } } else idle s

/-- The role that a standby takes over: the system Hart's when the Hart it stands by reported that role, else a group
Hart's (DEDUCED, assumption 54). -/
def State.standsFor (s : State) : BitVec 2 :=
  let sys := (List.range 8).any fun p => match (s.fab p).peer with
    | some m => s.hier.standbyOf == some m.module && m.role == 2
    | none => false
  if sys then 2 else 1

/-- STANDBY_TAKEOVER (15 R638): the standby adopts the next epoch of its scope and sends every decision it holds. -/
def execStandbyTakeover (s : State) : Outcome :=
  if s.hier.role ≠ 3 then idle s
  else
    let role := s.standsFor
    let sys : Bool := role == 2
    let h := { s.hier with
      role := role, standbyOf := none, lease := false, heartbeat := false, gepoch := s.hier.gepoch + 1
      sepoch := if sys then s.hier.sepoch + 1 else s.hier.sepoch }
    let epoch (group : Bool) : Word := if group then h.gepoch else h.sepoch
    let ds := h.decisions.map fun x => (x.1, epoch x.1, x.2.2)
    let s := ({ s with hier := { h with decisions := ds } }).logRole role false h.modn
    let s := s.emit (.hart 2 h.gepoch)
    let s := if sys then s.emit (.hart 3 h.sepoch) else s
    .next (s.each ds fun s x => s.emit (.decision x.1 x.2.1 x.2.2))

/-- MODULE_DEAD_DECLARE (15 R640, 11 R478): a group Hart declares a module of its group dead. -/
def execModuleDeadDeclare (module : BitVec 12) (s : State) : Outcome :=
  if !s.mayIssue || module.toNat / 64 != s.hier.modn.toNat / 64 || module == s.hier.modn
      || s.hier.deadMods.contains module then idle s
  else
    let s := (s.keepDecision true s.hier.gepoch (.dead module)).emit (.decision true s.hier.gepoch (.dead module))
    .next (s.moduleDead module)

/-! ### System time (15 R642, R645 to R647; 14 R625) -/

/-- The fabric port towards the Hart: the lowest-numbered admitted one (DESIGN CHOICE, assumption 55). -/
def State.upstreamPort (s : State) : Option Nat := (List.range 8).find? fun p => (s.fab p).up && (s.fab p).state == 2

/-- LINK_DELAY_MEASURE (15 R642): the offset of the upstream neighbour's time. -/
def execLinkDelayMeasure (port : BitVec 3) (offset : BitVec 64) (s : State) : Outcome :=
  if s.upstreamPort = some port.toNat ∧ s.hier.role ≠ 2 then .next (s.takeOffset offset) else idle s

/-- The module takes external time: the system Hart, or a standby that the inputs are cabled to (15 R645). -/
def State.takesTime (s : State) : Bool := s.hier.role == 2 || s.hier.role == 3

/-- The calendar clock's source changes (14 R617, R625): a time record. -/
def State.setSource (s : State) (src : Byte) (step : Int) : State :=
  if s.ben.calSource = src then s
  else
    ({ s with ben := { s.ben with calSource := src } }).log 8 noPart
      ([1, 0, 0, 0, 0, 0, 0, 0] ++ natLe 8 (BitVec.ofInt 64 step).toNat)

/-- PTP_MESSAGE (15 R645, R646; 14 R625): a selected master disciplines the calendar clock and gives the offset where no
PPS edge gives the phase. The UTC offset is `time.set`'s alone. -/
def execPtpMessage (masterSelected : Bool) (offset : BitVec 64) (_utcOffset : BitVec 16) (s : State) : Outcome :=
  if !s.takesTime || !bit (s.reg (clcBase 0 + 0xE40)) 9 then idle s
  else if !masterSelected then
    .next (({ s with hier := { s.hier with ptpMaster := false } }).setSource (if s.ben.calSource = 2 then 0 else s.ben.calSource) 0)
  else
    let ref := (s.now + offset).toNat
    let step : Int := Int.ofNat ref - Int.ofNat (s.ben.tai.toNat * 1000000000 + s.ben.taiNs.toNat)
    let s := { s with hier := { s.hier with ptpMaster := true, holdover := false } }
    let s := { s with ben := { s.ben with
      tai := BitVec.ofNat 64 (ref / 1000000000), taiNs := BitVec.ofNat 32 (ref % 1000000000), calValid := true } }
    let s := s.setSource 2 step
    let pps := bit (s.reg (clcBase 0 + 0xE40)) 8 && s.hier.lastPps != 0 && decide ((s.now - s.hier.lastPps).toNat < 2000000000)
    .next (if pps then s else s.takeOffset offset)

/-- Offsets that lie within a distance of one another, in ns. -/
def within1us (os : List (BitVec 64)) : Bool := os.all fun a => os.all fun b => decide ((a.toInt - b.toInt).natAbs ≤ 1000)

/-- PPS_EDGE (15 R646, 16 R678): a module that does not take external time only counts the edges outside its window
(DEDUCED, assumption 55: while PPS_EN is 1). Elsewhere an edge is accepted within 100 µs of the window's centre; after 8 rejected edges that agree the window is
re-centred on them, and time slews to them. -/
def execPpsEdge (offset : BitVec 64) (s : State) : Outcome :=
  let rejected : Bool := decide (100000 < (offset.toInt - s.hier.ppsCentre.toInt).natAbs)
  if !bit (s.reg (clcBase 0 + 0xE40)) 8 then idle s
  else if !s.takesTime then if rejected then .next (s.assertSrc (platSource 12)) else idle s
  else
    let h := s.hier
    if !rejected then
      let centre := if offset.toInt.natAbs ≤ 100000 then 0 else offset
      .next (({ s with hier := { h with ppsCentre := centre, ppsOffsets := [], lastPps := s.now, holdover := false } }).takeOffset
        offset)
    else
      let os := (h.ppsOffsets ++ [offset]).drop ((h.ppsOffsets.length + 1) - 8)
      let agreed := os.length == 8 && within1us os
      let h := { h with ppsOffsets := if agreed then [] else os, ppsCentre := if agreed then offset else h.ppsCentre }
      let s := ({ s with hier := h }).assertSrc (platSource 12)
      .next (if agreed then s.takeOffset offset else s)

/-- HOLDOVER_ENTRY (15 R646): no edge for 2 s and no 1588 master. -/
def execHoldoverEntry (s : State) : Outcome :=
  if s.hier.role = 2 ∧ !s.hier.holdover ∧ !s.hier.ptpMaster ∧ 2000000000 ≤ (s.now - s.hier.lastPps).toNat then
    .next (({ s with hier := { s.hier with holdover := true } }).log 8 noPart
      ([2, 0, 0, 0, 0, 0, 0, 0] ++ natLe 8 0))
  else idle s

/-- PPS_OUT_PULSE (15 R647): at each whole second of system time. -/
def execPpsOutPulse (s : State) : Outcome :=
  if s.now.toNat % 1000000000 = 0 then .next (s.emit .pps) else idle s

/-! ### Performance counters (15 R650, R651) -/

/-- PMC_WRAP (15 R650): a counter that stands at its highest value counts its next event. -/
def execPmcWrap (cell : CellId) (n : BitVec 4) (s : State) : Outcome :=
  let ctrl := s.reg (pmcCell cell + 0xC0)
  let on := bit ctrl 0 && !bit ctrl 1 && s.regField (pmcCell cell + 4 * n.toNat) 7 0 != 0
  if on && s.reg64 (pmcCell cell + 0x40 + 8 * n.toNat) == 2 ^ 48 - 1 then .next (s.pmcWrapped cell n.toNat) else idle s

/-- The dump of a cluster (15 R651). -/
def State.dumpCluster (s : State) (g : Nat) : State :=
  let b := pmcBase g
  let sel := min 24 (s.regField (b + 0x2000) 4 0)
  if sel < 10 ∨ s.now.toNat % (2 ^ sel * 1000) ≠ 0 then s
  else
    let s := s.each (List.range 256) fun s i =>
      let x := i / 16
      let n := i % 16
      s.setReg64 (b + 0x1000 + 0x100 * x + 8 * n) (s.reg64 (b + 0x100 * x + 0x40 + 8 * n))
    (s.setReg (b + 0x2004) (s.reg (b + 0x2004) + 1)).setReg64 (b + 0x2008) s.now.toNat

/-- PMC_DUMP (15 R651). -/
def execPmcDump (s : State) : Outcome := .next (s.each (List.range 16) State.dumpCluster)

end Sys2Proof.Machine
end

