-- ==== Sys2Proof/Machine/Debug.lean ====
section
/-! DEFINITION. Debug access (15 R654 to R662): the authorisation, the operations of the debug transport, and the
TAP. -/

namespace Sys2Proof.Machine

/-! ### The authorisation (15 R654, R655) -/

/-- Bits of SCOPE (15 R655). -/
def Dbg.grants (d : Dbg) (i : Nat) : Bool := d.isOpen && d.scope.getLsbD i

/-- The partition that a SCOPE names; none for all. -/
def Dbg.only (d : Dbg) : Option (BitVec 8) := if d.scope >>> 8 = 0xFF then none else some ((d.scope >>> 8).setWidth 8)

/-- A debug record (14 R617): 0 open, 2 refused; closing is `closeDebug`'s. -/
def State.logDebug (s : State) (event : Byte) (scope key : Nat) : State :=
  s.log 11 noPart ([event, 0] ++ natLe 2 scope ++ natLe 2 key)

/-- `debug.challenge` (15 R654): a nonce, good for one unlock within 60 s. -/
def execDebugChallenge (m : BitVec 5) (s : State) : Outcome :=
  onCommand m 0x0601 s fun s r =>
    let (n, s) := s.drawBytes 32
    let s := { s with dbg := { s.dbg with nonce := some (n, BitVec.ofNat 16 (bytesAt r 0 2), s.now) } }
    s.okay m n

/-- The signature of an unlock is good (15 R654). -/
def unlockOk (nonce : List Byte) (scope keyId seconds : Nat) (sig : List Byte) : Bool :=
  match Config.debugKey keyId with
  | none => false
  | some key =>
    let msg := nonce ++ serialText ++ natLe 2 scope ++ natLe 2 keyId ++ natLe 4 seconds
    decide (keyId < 2) && Ecdsa.verify Ecdsa.p384 (beNat ((key.drop 1).take 48)) (beNat ((key.drop 49).take 48))
      (Digest.sha384 msg) sig

/-- An authorisation begins; it replaces the one that was active. -/
def State.openDebug (s : State) (scope : BitVec 16) (keyId : Nat) (seconds : Nat) : State :=
  let s := s.closeDebug
  let s := { s with dbg := { s.dbg with
    isOpen := true, scope := scope, keyId := BitVec.ofNat 16 keyId
    expiry := s.now + BitVec.ofNat 64 (seconds * 1000000000) } }
  let s := if scope.getLsbD 3 then s.setRegField tstBase 0 0 1 else s
  s.logDebug 0 scope.toNat keyId

/-- `debug.unlock` (15 R654, R655). -/
def execDebugUnlock (m : BitVec 5) (s : State) : Outcome :=
  onCommand m 0x0602 s fun s r =>
    let scope := bytesAt r 0 2
    let keyId := bytesAt r 2 2
    let seconds := bytesAt r 4 4
    let ok : Bool := match s.dbg.nonce with
      | none => false
      | some (n, sc, t) =>
        sc.toNat == scope && decide ((s.now - t).toNat ≤ 60000000000) && unlockOk n scope keyId seconds (r.drop 8)
    let s := { s with dbg := { s.dbg with nonce := none } }
    if ok then (s.openDebug (BitVec.ofNat 16 scope) keyId seconds).okay m []
    else (s.logDebug 2 scope keyId).fails m stAuth

/-- `debug.lock` (15 R655). -/
def execDebugLock (m : BitVec 5) (s : State) : Outcome :=
  onCommand m 0x0603 s fun s _ => s.closeDebug.okay m []

/-- DEBUG_AUTH_EXPIRY (15 R655): DURATION_S is over. -/
def execDebugAuthExpiry (s : State) : Outcome :=
  if s.dbg.isOpen && decide (s.dbg.expiry ≤ s.now) then .next s.closeDebug else idle s

/-! ### Requests and responses (15 R656) -/

/-- Operation codes (15 R657). -/
abbrev opHalt : Nat := 0x01
abbrev opResume : Nat := 0x02
abbrev opStep : Nat := 0x03
abbrev opBreak : Nat := 0x04
abbrev opTbreak : Nat := 0x05
abbrev opWatch : Nat := 0x06
abbrev opRegrd : Nat := 0x07
abbrev opRegwr : Nat := 0x08
abbrev opMemrd : Nat := 0x09
abbrev opMemwr : Nat := 0x0A
abbrev opTrace : Nat := 0x0B
abbrev opTrcrd : Nat := 0x0C
abbrev opStatus : Nat := 0x0D

/-- What an operation answers: STATUS, DATA with its tag, and INFO. -/
structure DbgAns where
  status : Nat
  value : TWord
  info : Nat
  deriving DecidableEq, Repr

/-- An answer without data. -/
def dbgAns (status : Nat) : DbgAns := { status := status, value := ⟨0, 0⟩, info := 0 }

/-- The 16-byte response (15 R656). -/
def responseOf (op : Nat) (tag : BitVec 16) (a : DbgAns) : List Byte :=
  [BitVec.ofNat 8 op, BitVec.ofNat 8 a.status] ++ natLe 2 tag.toNat ++ wordBytes a.value.data ++ [a.value.tag.setWidth 8, 0, 0, 0]
    ++ natLe 4 a.info

/-- A response leaves over the transport of its request; those of the TAP wait for Capture-DR. -/
def State.debugReply (s : State) (tap : Bool) (bytes : List Byte) : State :=
  if tap then { s with dbg := { s.dbg with responses := s.dbg.responses ++ [bytes] } } else s.emit (.debug bytes)

/-- The request is malformed: a reserved field is not 0, or UNIT, a size or an address is out of range. -/
def dbgMalformed (q : DbgReq) (op : Nat) : Bool :=
  let size := field q.data 4 0
  q.targetLow != 0
    || (op == opBreak && decide (7 < q.unit.toNat)) || ((op == opTbreak || op == opWatch) && decide (3 < q.unit.toNat))
    || (op == opWatch && field q.data 6 5 != 0 && (decide (22 < size) || q.addr.toNat % 2 ^ size != 0))
    || ((op == opRegrd || op == opRegwr) && decide (41 < q.unit.toNat))
    || ((op == opMemrd || op == opMemwr) && q.sid == 0 && q.addr.toNat % 4 != 0)
    || (decide (op = 0) || decide (opStatus < op))

/-- The grant that an operation needs (15 R655). -/
def dbgGrant (q : DbgReq) (op : Nat) : Nat :=
  if op = opMemrd ∨ op = opMemwr then if q.sid ≠ 0 then 1 else 2 else 0

/-- The context that a request names, when it is allocated. -/
def State.dbgFrame (s : State) (q : DbgReq) : Option (BitVec 20) :=
  let ctx : Word := q.addr.setWidth 32
  let f := frameOf ctx
  if (s.frame f).ctx = ctx ∧ (s.frame f).state ≠ stFree then some f else none

/-- The partition of a machine byte address of this module, or of a window address. -/
def State.partOfAddr (s : State) (a : BitVec 64) (p : BitVec 6) : Bool :=
  if a.getLsbD 63 then s.devGranted p (a.toNat % 2 ^ 24)
  else match s.leafOf (a.toNat % 2 ^ 40 / 2 ^ 21) with
    | some (q, _, _) => q == p
    | none => false

/-- The target lies within the scoped partition (15 R657). -/
def State.inScope (s : State) (q : DbgReq) (op : Nat) : Bool :=
  match s.dbg.only with
  | none => true
  | some w =>
    let p : BitVec 6 := w.setWidth 6
    decide (w.toNat < 64) &&
      if op = opBreak ∨ op = opWatch then s.partOfSid q.sid == some p
      else if op = opTbreak ∨ op = opTrace then
        match s.dbgFrame q with | some f => (s.frame f).part == p | none => false
      else if op = opMemrd ∨ op = opMemwr then
        if q.sid ≠ 0 then s.partOfSid q.sid == some p else s.partOfAddr q.addr p
      else if op = opTrcrd then (s.part p).cells.any fun c => clusterOf c == clusterOf q.cell
      else s.ownerOf q.cell == some p

/-! ### Halting and stepping (15 R657 to R659) -/

/-- A halt is requested of one slot: it takes effect at the slot's next boundary, in HANDLER after ERET. -/
def State.askHalt (s : State) (c : CellId) (k : SlotId) : State :=
  let t := s.slot c k
  if t.halted.isSome then s
  else if t.state = .idle then s.modSlot c k fun t => { t with halted := some (1, s.now), stepping := 0 }
  else (s.modSlot c k fun t => { t with dueDbg := some (pointDue 1 0 { sid := 0, addr := 0, spec := 0 }), stepping := 0 }).sampled c k

/-- The slots that a request targets. -/
def dbgSlots (q : DbgReq) : List SlotId := if q.flags.getLsbD 0 then allSlots else [q.slot]

/-- HALT (15 R657, R659): halting one twin splits the pair. -/
def State.dbgHalt (s : State) (q : DbgReq) : DbgAns × State :=
  let s := if s.twinned q.cell then s.splitPair q.cell else s
  (dbgAns 0, s.each (dbgSlots q) fun s k => s.askHalt q.cell k)

/-- RESUME (15 R657): a halt that is still due goes too. -/
def State.dbgResume (s : State) (q : DbgReq) : DbgAns × State :=
  (dbgAns 0, s.each (dbgSlots q) fun s k =>
    ((s.unhalt q.cell k).modSlot q.cell k fun t =>
      { t with stepping := 0
               dueDbg := match t.dueDbg with
                 | some w => if haltsOnly w then none else some w
                 | none => none }).sampled q.cell k)

/-- STEP (15 R657): one instruction of a halted slot, or one activity of a halted cell. -/
def State.dbgStep (s : State) (q : DbgReq) : DbgAns × State :=
  let t := s.slot q.cell q.slot
  if t.halted.isNone then (dbgAns 2, s)
  else if q.flags.getLsbD 1 then
    let s := if t.state = .idle then s else s.unhalt q.cell q.slot
    (dbgAns 0, s.modSlot q.cell q.slot fun t => { t with stepping := 2 })
  else if t.state = .idle then (dbgAns 2, s)
  else (dbgAns 0, (s.unhalt q.cell q.slot).modSlot q.cell q.slot fun t => { t with stepping := 1 })

/-- FLAGS[0] of a point: its event enters the partition's handler (15 R658). -/
def dbgToHandler (q : DbgReq) : Word := if q.flags.getLsbD 0 then 0x40000000 else 0

/-- BREAK (15 R657). -/
def State.dbgBreak (s : State) (q : DbgReq) : DbgAns × State :=
  let x : Option DbgPoint := if q.data = 0 then none else some { sid := q.sid, addr := q.addr.setWidth 32, spec := (dbgToHandler q) }
  (dbgAns 0, { s with dbg := { s.dbg with breaks := Map.set none s.dbg.breaks q.unit.toNat x } })

/-- TBREAK (15 R657). -/
def State.dbgTbreak (s : State) (q : DbgReq) : DbgAns × State :=
  let x : Option DbgPoint :=
    if q.flags.getLsbD 7 then some { sid := q.sid, addr := q.addr.setWidth 32, spec := (dbgToHandler q) ||| (q.data &&& 0xFFFF) }
    else none
  (dbgAns 0, { s with dbg := { s.dbg with tbreaks := Map.set none s.dbg.tbreaks q.unit.toNat x } })

/-- WATCH (15 R657). -/
def State.dbgWatch (s : State) (q : DbgReq) : DbgAns × State :=
  let x : Option DbgPoint :=
    if field q.data 6 5 = 0 then none
    else some { sid := q.sid, addr := q.addr.setWidth 32, spec := (dbgToHandler q) ||| (q.data &&& 0x7F) }
  (dbgAns 0, { s with dbg := { s.dbg with watches := Map.set none s.dbg.watches q.unit.toNat x } })

/-! ### Registers and memory (15 R657, R660) -/

/-- REGRD (15 R657). -/
def State.dbgRegrd (s : State) (q : DbgReq) : DbgAns × State :=
  let t := s.slot q.cell q.slot
  let n := q.unit.toNat
  if t.halted.isNone then (dbgAns 2, s)
  else if n < 32 then ({ dbgAns 0 with value := t.g (BitVec.ofNat 5 n) }, s)
  else
    match ({ t with sup := true } : Slot).readSr (n - 32) with
    | .ok v => ({ dbgAns 0 with value := TWord.int (if n = 41 then (if t.sup then 1 else 0) else v) }, s)
    | .error _ => (dbgAns 6, s)

/-- REGWR (15 R657). -/
def State.dbgRegwr (s : State) (q : DbgReq) : DbgAns × State :=
  let n := q.unit.toNat
  if (s.slot q.cell q.slot).halted.isNone then (dbgAns 2, s)
  else
    (dbgAns 0, s.modSlot q.cell q.slot fun t =>
      if n < 32 then t.setG (BitVec.ofNat 5 n) ⟨q.dtag, q.data⟩ else t.forceSr (n - 32) q.data)

/-- A word of the frame store in memory. FREE VALUE: a header word of a frame that its cell's header cache holds,
because memory may lag behind it (15 R660). -/
def State.frameStoreWord (s : State) (w : Nat) : TWord × State :=
  let f := BitVec.ofNat 20 (w / 256)
  let x := s.frame f
  let n := w % 256
  if 32 ≤ n then (Map.get TWord.empty x.slots (n - 32), s)
  else if (s.cell (s.cellOf f)).hdr.contains f then
    let (v, s) := s.draw
    (⟨(x.headerWord n).tag, v.setWidth 32⟩, s)
  else (x.headerWord n, s)

/-- A word of the context map (07 R299). -/
def State.contextMapWord (s : State) (n : Nat) : TWord :=
  let e := s.ctxEnt (BitVec.ofNat 20 n)
  ⟨Tag.sys, BitVec.ofNat 32 ((if e.valid then 2 ^ 31 else 0) + (if e.moving then 2 ^ 30 else 0) + e.cell.toNat * 2 ^ 16
    + e.version.toNat)⟩

/-- A word of memory as a physical access shows it: a word of a Cellar that nothing has written is SYS (02 R63, R64;
assumption 109). -/
def State.shownWord (s : State) (w : Nat) : TWord :=
  let v := s.peek w
  if v.tag ≠ Tag.empty ∨ !s.isOwn w then v
  else (s.parts.findSome? fun e => s.cellarWord (BitVec.ofNat 6 e.1) (localWord w * 4)).getD v

/-- A physical access of the debug transport at a machine byte address or a window address (15 R660). -/
def State.dbgPhysical (s : State) (q : DbgReq) (write : Bool) : DbgAns × State :=
  let a := q.addr.toNat % 2 ^ 24
  let w := q.addr.toNat / 4
  let local_ := localWord w * 4
  if q.addr.getLsbD 63 then
    if (regSpec a).isNone then (dbgAns 2, s)
    else if write then (dbgAns 0, s.windowWrite .debug a q.data)
    else
      let (v, s) := s.windowRead a
      ({ dbgAns 0 with value := TWord.int v }, s)
  else if 2 ^ 52 ≤ q.addr.toNat then (dbgAns 2, s)
  else if s.isOwn w && decide (local_ < 2 ^ 30) then
    if write then (dbgAns 2, s)
    else
      let (v, s) := s.frameStoreWord (localWord w)
      ({ dbgAns 0 with value := v }, s)
  else if s.isOwn w && decide (contextMapAt ≤ local_) && decide (local_ < contextMapAt + 2 ^ 22) then
    if write then (dbgAns 2, s) else ({ dbgAns 0 with value := s.contextMapWord ((local_ - contextMapAt) / 4) }, s)
  else if write then (dbgAns 0, s.poke w ⟨q.dtag, q.data⟩)
  else ({ dbgAns 0 with value := s.shownWord w }, s)

/-- A virtual access (15 R660): through both stages, with no right but V; a side-effect page faults. -/
def State.dbgVirtual (s : State) (q : DbgReq) (write : Bool) : DbgAns × State :=
  let va : Word := q.addr.setWidth 32
  let s := s.touch q.sid va
  let fault (c : Byte) : DbgAns := { dbgAns 3 with info := c.toNat }
  match s.blockLeaf q.sid va with
  | .error c => (fault c, s)
  | .ok (p, e, big) =>
    let pa := leafPa e big va
    match s.stage2 p pa with
    | none => (fault 0x0D, s)
    | some l =>
      let w := l.word pa
      if (tlbEntry q.sid p va e big l).se || l.dev then (fault 0x08, s)
      else if write then (dbgAns 0, s.poke w ⟨q.dtag, q.data⟩)
      else ({ dbgAns 0 with value := s.peek w }, s)

/-- MEMRD and MEMWR. -/
def State.dbgMemory (s : State) (q : DbgReq) (write : Bool) : DbgAns × State :=
  if q.sid ≠ 0 then s.dbgVirtual q write else s.dbgPhysical q write

/-! ### Trace and status (15 R653, R657) -/

/-- TRACE. -/
def State.dbgTrace (s : State) (q : DbgReq) : DbgAns × State :=
  match s.dbgFrame q with
  | none => (dbgAns 2, s)
  | some f => (dbgAns 0, s.modFrame f fun x => { x with tracing := q.flags.getLsbD 0 })

/-- TRCRD: an entry that is not held has no word (assumption 56). -/
def State.dbgTrcrd (s : State) (q : DbgReq) : DbgAns × State :=
  let g := clusterOf q.cell
  let ring := (s.cluster g).trace
  let a := q.addr.toNat
  let data := BitVec.ofNat 32 (bytesAt (ring.getD (a / 4 % 1024) []) (4 * (a % 4)) 4)
  let s := if q.flags.getLsbD 0 then s.modCluster g fun cl => { cl with trace := [] } else s
  if ring.length ≤ a / 4 % 1024 then ({ dbgAns 2 with info := ring.length }, s)
  else ({ status := 0, value := TWord.int data, info := ring.length }, s)

/-- The number of a slot's state: its row in the table of 05 R209 (DESIGN CHOICE, assumption 56). -/
def stateNumber (x : SlotState) : Nat :=
  match x with
  | .idle => 0
  | .entry => 1
  | .run => 2
  | .wait => 3
  | .parked => 4
  | .handler => 5
  | .commit => 6

/-- STATUS. -/
def State.dbgStatus (s : State) (q : DbgReq) : DbgAns × State :=
  let t := s.slot q.cell q.slot
  ({ status := 0, value := TWord.int (BitVec.ofNat 32 (stateNumber t.shown))
     info := match t.halted with | some (r, _) => r.toNat | none => 0 }, s)

/-! ### The operations -/

/-- Perform an operation that the checks let through. -/
def State.debugDo (s : State) (op : Nat) (q : DbgReq) : DbgAns × State :=
  if op = opHalt then s.dbgHalt q
  else if op = opResume then s.dbgResume q
  else if op = opStep then s.dbgStep q
  else if op = opBreak then s.dbgBreak q
  else if op = opTbreak then s.dbgTbreak q
  else if op = opWatch then s.dbgWatch q
  else if op = opRegrd then s.dbgRegrd q
  else if op = opRegwr then s.dbgRegwr q
  else if op = opMemrd then s.dbgMemory q false
  else if op = opMemwr then s.dbgMemory q true
  else if op = opTrace then s.dbgTrace q
  else if op = opTrcrd then s.dbgTrcrd q
  else s.dbgStatus q

/-- A request over the debug transport (15 R655 to R657): authorised, well formed, within the scope, then performed; its
response follows. -/
def State.debugOp (s : State) (op : Nat) (q : DbgReq) (bad : Bool) : State :=
  let answer (s : State) (a : DbgAns) : State := s.debugReply q.tap (responseOf op q.tag a)
  if !s.dbg.grants (if q.tap then 4 else 5) || !s.dbg.grants (dbgGrant q op) then answer s (dbgAns 1)
  else if bad || (dbgMalformed q op) then answer s (dbgAns 6)
  else if !s.inScope q op then answer s (dbgAns 2)
  else
    let (a, s) := s.debugDo op q
    answer s a

/-- HALT (15 R657). -/
def execHalt (q : DbgReq) (s : State) : Outcome := .next (s.debugOp opHalt q false)
/-- RESUME (15 R657). -/
def execResume (q : DbgReq) (s : State) : Outcome := .next (s.debugOp opResume q false)
/-- STEP (15 R657). -/
def execStep (q : DbgReq) (s : State) : Outcome := .next (s.debugOp opStep q false)
/-- BREAK (15 R657, R658). -/
def execBreakpoint (q : DbgReq) (s : State) : Outcome := .next (s.debugOp opBreak q false)
/-- TBREAK (15 R657, R658). -/
def execTbreak (q : DbgReq) (s : State) : Outcome := .next (s.debugOp opTbreak q false)
/-- WATCH (15 R657, R658). -/
def execWatch (q : DbgReq) (s : State) : Outcome := .next (s.debugOp opWatch q false)
/-- REGRD (15 R657). -/
def execRegrd (q : DbgReq) (s : State) : Outcome := .next (s.debugOp opRegrd q false)
/-- REGWR (15 R657). -/
def execRegwr (q : DbgReq) (s : State) : Outcome := .next (s.debugOp opRegwr q false)
/-- MEMRD (15 R657, R660). -/
def execMemrd (q : DbgReq) (s : State) : Outcome := .next (s.debugOp opMemrd q false)
/-- MEMWR (15 R657, R660). -/
def execMemwr (q : DbgReq) (s : State) : Outcome := .next (s.debugOp opMemwr q false)
/-- TRACE (15 R653, R657). -/
def execTrace (q : DbgReq) (s : State) : Outcome := .next (s.debugOp opTrace q false)
/-- TRCRD (15 R653, R657). -/
def execTrcrd (q : DbgReq) (s : State) : Outcome := .next (s.debugOp opTrcrd q false)
/-- STATUS (15 R657). -/
def execStatus (q : DbgReq) (s : State) : Outcome := .next (s.debugOp opStatus q false)

/-! ### The TAP (15 R661) -/

/-- The TAP's instruction register. -/
def State.setIr (s : State) (code : Byte) : State := { s with dbg := { s.dbg with ir := code } }

/-- EXTEST, CLAMP and HIGHZ act: Benus holds the module in reset, under an authorisation with bit 2 of SCOPE. -/
def State.tapDrives (s : State) : Bool := s.plat.standbyOnly && s.dbg.grants 2

/-- The bits of a number, least significant first. -/
def bitsLe (n v : Nat) : List Bool := (List.range n).map v.testBit

/-- EXTEST (15 R661): the pins are captured and the boundary register drives them. -/
def execExtest (pins : List Bool) (s : State) : Outcome :=
  let s := s.setIr 0x00
  .next (if s.tapDrives then
    { (s.emit (.tdo s.dbg.boundary)) with dbg := { s.dbg with boundary := pins } } else s)

/-- IDCODE (15 R661). -/
def execIdcode (s : State) : Outcome := .next ((s.setIr 0x01).emit (.tdo (bitsLe 32 0x2B9D0A6D)))

/-- SAMPLE/PRELOAD (15 R661). -/
def execSamplePreload (pins : List Bool) (s : State) : Outcome :=
  let s := s.setIr 0x02
  .next { (s.emit (.tdo s.dbg.boundary)) with dbg := { s.dbg with boundary := pins } }

/-- CLAMP (15 R661): the pins hold what the boundary register has. -/
def execClamp (s : State) : Outcome :=
  let s := s.setIr 0x04
  .next (if s.tapDrives then s.emit (.tdo s.dbg.boundary) else s)

/-- HIGHZ (15 R661): the pins drive nothing. -/
def execHighz (s : State) : Outcome :=
  let s := s.setIr 0x05
  .next (if s.tapDrives then s.emit (.tdo []) else s)

/-- BYPASS (15 R661): one bit of delay. -/
def execBypass (tdi : Bool) (s : State) : Outcome :=
  let s := s.setIr 0xFF
  .next { (s.emit (.tdo [s.dbg.bypassBit])) with dbg := { s.dbg with bypassBit := tdi } }

/-- The request of 24 shifted bytes (15 R656): its operation, its fields, and whether bytes 22 and 23 break it. -/
def tapRequest (w : BitVec 192) : Nat × DbgReq × Bool :=
  let b (o n : Nat) : Nat := w.toNat / 2 ^ (8 * o) % 2 ^ (8 * n)
  let target := b 6 2
  (b 0 1,
    { tap := true, flags := BitVec.ofNat 8 (b 1 1), tag := BitVec.ofNat 16 (b 2 2), sid := BitVec.ofNat 16 (b 4 2)
      cell := BitVec.ofNat 8 (target / 256), slot := BitVec.ofNat 3 (target / 32), targetLow := BitVec.ofNat 5 target
      addr := BitVec.ofNat 64 (b 8 8), data := BitVec.ofNat 32 (b 16 4), dtag := BitVec.ofNat 4 (b 20 1)
      unit := BitVec.ofNat 8 (b 21 1) },
    b 22 2 != 0)

/-- DBGPKT (15 R661): Capture-DR loads the oldest waiting response, and Update-DR submits the shifted request. -/
def execDbgpkt (shifted : Option (BitVec 192)) (s : State) : Outcome :=
  let s := s.setIr 0x20
  let first := s.dbg.responses.headD []
  let s := (s.emit (.tdo (bitsLe 192 (leNat first))))
  let s := { s with dbg := { s.dbg with responses := s.dbg.responses.drop 1 } }
  match shifted with
  | none => .next s
  | some w =>
    let (op, q, bad) := tapRequest w
    .next (s.debugOp op q bad)

end Sys2Proof.Machine
end

