-- ==== Sys2Proof/Machine/Platform.lean ====
section
/-! DEFINITION. The platform (16): event inputs, STATUS outputs, power feeds and the brown-out flush, internal rails
and their sequencer, protection, fitted modules, and the loss of a fabric link (15 R644). -/

namespace Sys2Proof.Machine

/-! ### Event inputs (16 R671 to R676, R707 to R709) -/

/-- An event input, and changing it. -/
def State.evt (s : State) (n : Nat) : EvtIn := Map.get evtIn0 s.plat.evts n
def State.modEvt (s : State) (n : Nat) (f : EvtIn → EvtIn) : State :=
  { s with plat := { s.plat with evts := Map.set evtIn0 s.plat.evts n (f (s.evt n)) } }

/-- FCL_EVT_CFG_n and FCL_EVT_CNT_n. -/
def evtCfgAt (n : Nat) : Nat := fclBase + 0x90 + 4 * n
def evtCntAt (n : Nat) : Nat := fclBase + 0xA0 + 4 * n

/-- The series of 13 R559, in ns. -/
def longSeriesNs (v : Nat) : Nat :=
  if v ≤ 18 then seriesNs v
  else [2, 5, 10, 20, 60, 120, 300, 600, 1200, 1800, 3600].getD (min v 29 - 19) 3600 * 1000000000

/-- The debounce time of an input (16 R672), and the time after which it is stuck, if it is ever (R675). -/
def State.debounceNs (s : State) (n : Nat) : Nat := seriesNs (min 12 (s.regField (evtCfgAt n) 28 24))
def State.stuckNs (s : State) (n : Nat) : Option Nat :=
  let v := s.regField (evtCfgAt n) 23 19
  if v < 30 then some (longSeriesNs v) else none

/-- The input sends tokens: EN and PART_EN are set, and its partition is created (16 R673, R676). -/
def State.evtTokens (s : State) (n : Nat) : Bool :=
  let c := s.reg (evtCfgAt n)
  bit c 31 && bit c 7 && (s.part (c.setWidth 6)).isLive

/-- The value of an input's token (16 R673). -/
def EvtIn.value (x : EvtIn) (n : Nat) : TWord :=
  ⟨Tag.user1, BitVec.ofNat 32 (x.coalesced.toNat * 65536 + (if x.level then 128 else 0) + (if x.stuckDue then 64 else 0)
    + (if x.rearmDue then 32 else 0) + n)⟩

/-- Send the token of an input, where it sends any; the spacing of 10 us begins (16 R673, R674, R676). -/
def State.sendEvt (s : State) (n : Nat) : State :=
  let x := s.evt n
  let p : BitVec 6 := (s.reg (evtCfgAt n)).setWidth 6
  let sends := s.evtTokens n
  let s := s.modEvt n fun y => { y with coalesced := 0, stuckDue := false, rearmDue := false, spacing := y.spacing || sends }
  if sends then s.eventToken .collector p (s.eventStmt p) (x.value n) else s

/-- A change of level matches EDGE (16 R709). EDGE 3 is reserved and matches none (DEDUCED, assumption 57). -/
def State.edgeMatches (s : State) (n : Nat) (level : Bool) : Bool :=
  match s.regField (evtCfgAt n) 30 29 with
  | 0 => level
  | 1 => !level
  | 2 => true
  | _ => false

/-- An event of an enabled input is counted; within the spacing it is folded into the next token (16 R673, R674). -/
def State.evtEvent (s : State) (n : Nat) : State :=
  let s := s.bumpField (evtCntAt n) 31 16
  if !s.evtTokens n then s
  else if (s.evt n).spacing then
    (s.bumpField (evtCntAt n) 15 0).modEvt n fun x =>
      { x with coalesced := if x.coalesced = 0xFFFF then x.coalesced else x.coalesced + 1 }
  else s.sendEvt n

/-- EVT_IN_CHANGE (16 R671, R672): the level outside changes, and debouncing begins. -/
def execEvtInChange (input : BitVec 2) (asserted : Bool) (s : State) : Outcome :=
  if (s.evt input.toNat).raw = asserted then idle s
  else .next (s.modEvt input.toNat fun x => { x with raw := asserted, since := s.now })

/-- EVT_IN_ACCEPT (16 R672, R673, R675): the new level has held for the debounce time. A stuck input re-arms when it is
accepted as deasserted, and that change counts again. A token that the spacing holds back goes at its end (DEDUCED,
assumption 57). -/
def execEvtInAccept (input : BitVec 2) (s : State) : Outcome :=
  let n := input.toNat
  let x := s.evt n
  if x.raw = x.level ∨ (s.now - x.since).toNat < s.debounceNs n then idle s
  else
    let rearm := x.stuck && !x.raw
    let s := s.modEvt n fun y =>
      { y with
        level := x.raw, risen := if x.raw then s.now else y.risen, stuck := y.stuck && x.raw
        rearmDue := y.rearmDue || rearm }
    let counts := bit (s.reg (evtCfgAt n)) 31 && s.edgeMatches n x.raw
    let s := if counts then s.evtEvent n else s
    .next (if (s.evt n).rearmDue && !(s.evt n).spacing then s.sendEvt n else s)

/-- EVT_COALESCE_END (16 R674): 10 us after the last token, a token with the count follows if any event waits. -/
def execEvtCoalesceEnd (input : BitVec 2) (s : State) : Outcome :=
  let n := input.toNat
  if !(s.evt n).spacing then idle s
  else
    let s := s.modEvt n fun x => { x with spacing := false }
    let x := s.evt n
    .next (if x.coalesced ≠ 0 ∨ x.stuckDue ∨ x.rearmDue then s.sendEvt n else s)

/-- EVT_STUCK (16 R675): asserted for longer than the stuck time, the input is marked and masked. -/
def execEvtStuck (input : BitVec 2) (s : State) : Outcome :=
  let n := input.toNat
  let x := s.evt n
  match s.stuckNs n with
  | none => idle s
  | some t =>
    if !x.level || x.stuck || decide ((s.now - x.risen).toNat ≤ t) then idle s
    else
      let s := (s.modEvt n fun y => { y with stuck := true, stuckDue := true }).assertSrc (platSource 11)
      .next (if (s.evt n).spacing then s else s.sendEvt n)

/-! ### STATUS outputs (16 R668 to R670) -/

/-- The state an output is driven to: ALIVE_A, ALIVE_B, HEALTH. HEALTH is on while the module is powered and no sensor
is in alarm (16 R669). -/
def State.drives (s : State) (n : BitVec 2) : Bool :=
  match n.toNat with
  | 0 => s.col.aliveA
  | 1 => s.col.aliveB
  | 2 => s.plat.rails.getLsbD 0 && s.plat.flushed.isNone && !s.ben.sensors.any fun e => e.2.state == 2
  | _ => false

/-- An output is on: it is driven on and no short keeps it off (16 R670). -/
def State.outputOn (s : State) (n : BitVec 2) : Bool := s.drives n && !s.plat.shortOut.getLsbD n.toNat

/-- OUTPUT_SHORT (16 R670). An output at its limit carries current, so it is no longer open (assumption 58). -/
def execOutputShort (output : BitVec 2) (s : State) : Outcome :=
  if !s.outputOn output then idle s
  else
    let b : BitVec 3 := 1 <<< output.toNat
    .next (({ s with plat := { s.plat with
      shortOut := s.plat.shortOut ||| b, openOut := s.plat.openOut &&& ~~~b } }).assertSrc (platSource 10))

/-- OUTPUT_SHORT_RETRY (16 R670): the off period ends. -/
def execOutputShortRetry (output : BitVec 2) (s : State) : Outcome :=
  .next { s with plat := { s.plat with shortOut := s.plat.shortOut &&& ~~~((1 : BitVec 3) <<< output.toNat) } }

/-- OUTPUT_OPEN (16 R670). -/
def execOutputOpen (output : BitVec 2) (s : State) : Outcome :=
  if !s.outputOn output then idle s
  else .next (({ s with plat := { s.plat with
    openOut := s.plat.openOut ||| 1 <<< output.toNat } }).assertSrc (platSource 10))

/-! ### Feeds (16 R684 to R688) and the flush (R689 to R692) -/

/-- The state of a feed: 0 in use, 1 lost, 2 disconnected. -/
def State.feed (s : State) (f : Nat) : BitVec 2 := Map.get 0 s.plat.feeds f
def State.setFeed (s : State) (f : Nat) (v : BitVec 2) : State :=
  { s with plat := { s.plat with feeds := Map.set 0 s.plat.feeds f v } }

/-- A power record (14 R617): byte 1 is 0 for FEED_A and 1 for FEED_B (DEDUCED, assumption 58). -/
def State.logPower (s : State) (event : Byte) (feed : BitVec 1) : State := s.log 9 noPart [event, feed.setWidth 8]

/-- A feed stops carrying load; the other takes the whole of it. -/
def State.dropFeed (s : State) (feed : BitVec 1) (v : BitVec 2) : State :=
  if s.feed feed.toNat = 0 then (s.setFeed feed.toNat v).logPower 0 feed else s.setFeed feed.toNat v

/-- FEED_LOSS (16 R684, R686). -/
def execFeedLoss (feed : BitVec 1) (s : State) : Outcome :=
  if s.feed feed.toNat = 0 then .next (s.dropFeed feed 1) else idle s

/-- FEED_OVERVOLTAGE (16 R687): the feed is disconnected, and reported as lost. -/
def execFeedOvervoltage (feed : BitVec 1) (s : State) : Outcome := .next (s.dropFeed feed 2)

/-- FEED_RETURN (16 R686, R687). -/
def execFeedReturn (feed : BitVec 1) (s : State) : Outcome :=
  if s.feed feed.toNat = 0 then idle s else .next ((s.setFeed feed.toNat 0).logPower 1 feed)

/-- How long the supercapacitor keeps the calendar clock, in ns: at least 72 hours (14 R626; assumption 59). -/
def capHoldNs : Nat := (259200 + Config.capExtra) * 1000000000

/-- The calendar clock has stopped when the supercapacitor alone kept it for longer than it can (14 R626). -/
def State.checkClock (s : State) : State :=
  let stopped : Bool := match s.plat.capSince with
    | some t => decide (capHoldNs < (s.now - t).toNat)
    | none => false
  { s with plat := { s.plat with clockStopped := s.plat.clockStopped || stopped } }

/-- The standby rail falls, or returns: the clock's supply changes. -/
def State.standbyGone (s : State) : State :=
  { s with plat := { s.plat with capSince := if s.ben.backup then none else some s.now } }
def State.standbyBack (s : State) : State :=
  let s := s.checkClock
  { s with plat := { s.plat with capSince := none } }

/-- BOTH_FEEDS_LOST (16 R689 to R691): the flush runs up to `flushReaches`. The cells run until the rails fall, which
RESTART_AFTER_FLUSH finds done. -/
def execBothFeedsLost (flushReaches : BitVec 3) (s : State) : Outcome :=
  if s.plat.flushed.isSome then idle s
  else
    let s := s.each [0, 1] fun s f => if s.feed f = 0 then s.setFeed f 1 else s
    let s := s.flushTo flushReaches.toNat
    .next ({ s with plat := { s.plat with flushed := some flushReaches } }).standbyGone

/-- RESTART_AFTER_FLUSH (16 R692): the rails have fallen, and a feed has been within range for 1 s. The start itself is
MODULE_START's; a flush that did not reach step 5 leaves a power record of event 3. FREE VALUE: that record's FEED. -/
def execRestartAfterFlush (s : State) : Outcome :=
  match s.plat.flushed with
  | none => idle s
  | some k =>
    if s.feed 0 ≠ 0 ∧ s.feed 1 ≠ 0 then idle s
    else
      let s := (s.closeDebug.afterReset true).standbyBack
      let s := { s with plat := { s.plat with flushed := none } }
      let (v, s) := s.draw
      .next (if k < 5 then s.logPower 3 (v.setWidth 1) else s)

/-! ### Rails (16 R693 to R695) -/

/-- The rails before a rail in the power-up order, and that rail's bit: 0 standby, 1 analogue, 2 core, 3 I/O with
memory I/O. -/
def railsBelow (rail : BitVec 3) : BitVec 4 := BitVec.ofNat 4 (2 ^ rail.toNat - 1)
def railBit (rail : BitVec 3) : BitVec 4 := BitVec.ofNat 4 (2 ^ rail.toNat)

/-- The rails from one on fall: what they supply is reset, and Benus runs on on the standby rail. -/
def State.railsFall (s : State) (left : BitVec 4) : State :=
  let ben := s.closeDebug.ben
  let s := s.closeDebug.afterReset false
  { s with
      plat := { s.plat with rails := left }
      ben := { ben with ready := false, recovered := false, exchanging := false, patch := none } }

/-- The standby rail falls too: Benus is reset. -/
def State.powerDown (s : State) : State := (s.closeDebug.afterReset true).standbyGone

/-- The module stays on the standby rail, with Benus reachable through SVC and the MGT ports (16 R694, R701). -/
def State.holdStandby (s : State) : State := { s with plat := { s.plat with standbyOnly := true } }

/-- RAIL_START (16 R694): every rail before it is good. -/
def execRailStart (rail : BitVec 3) (s : State) : Outcome :=
  let p := s.plat
  if p.standbyOnly || p.seqHold || p.flushed.isSome || decide (3 < rail.toNat) || p.rails != railsBelow rail then idle s
  else
    let s := if rail = 0 then s.standbyBack else s
    .next { s with plat := { s.plat with rails := p.rails ||| railBit rail } }

/-- RAIL_SEQUENCING_FAULT (16 R694): the rail started last is not good within 5 ms. Every started rail but standby,
which the sequencer and Benus run on, powers down (DEDUCED, assumption 60); a second fault leaves the module on the
standby rail. -/
def execRailSequencingFault (rail : BitVec 3) (s : State) : Outcome :=
  if decide (3 < rail.toNat) || s.ben.ready || s.plat.rails != railsBelow rail ||| railBit rail then idle s
  else
    let tries := s.plat.seqTries + 1
    let s := if rail = 0 then s.powerDown else s.railsFall 1
    let s := { s with plat := { s.plat with seqTries := tries, seqHold := true } }
    let s := s.assertSrc (platSource 4)
    .next (if 2 ≤ tries then s.holdStandby else s)

/-- SEQUENCE_RETRY (16 R694): once, after 1 s. -/
def execSequenceRetry (s : State) : Outcome :=
  if s.plat.seqHold && !s.plat.standbyOnly then .next { s with plat := { s.plat with seqHold := false } } else idle s

/-- RAIL_OUT_OF_RANGE (16 R695): a running rail other than standby, and every rail after it, powers down; the module
restarts. -/
def execRailOutOfRange (rail : BitVec 3) (s : State) : Outcome :=
  if rail = 0 ∨ 3 < rail.toNat ∨ !s.plat.rails.getLsbD rail.toNat then idle s
  else .next ((s.railsFall (s.plat.rails &&& railsBelow rail)).assertSrc (platSource 3))

/-- STANDBY_RAIL_LOSS (16 R695): Benus is reset, and the sequencer follows the rail down. -/
def execStandbyRailLoss (s : State) : Outcome :=
  if s.plat.rails.getLsbD 0 then .next s.powerDown else idle s

/-! ### Protection (16 R701), clocks (R698), fitted modules (R682) -/

/-- The module protects itself: the flush, then the standby rail until `mod.reset`, which is refused while the cause of
bit `i` persists. -/
def State.protectSelf (s : State) (i : Nat) : State :=
  let s := (s.flush.railsFall 1).holdStandby
  { s with plat := { s.plat with protect := s.plat.protect ||| 1 <<< i } }

/-- OVERTEMPERATURE_PROTECT (16 R701). -/
def execOvertemperatureProtect (cluster : BitVec 4) (s : State) : Outcome := .next (s.protectSelf cluster.toNat)

/-- NO_FLOW_PROTECT (16 R701). -/
def execNoFlowProtect (s : State) : Outcome := .next (s.protectSelf 16)

/-- DROOP_CONTROL (16 R698, 01 R22): the cell clock stays within 1.2 to 2.6 GHz. -/
def execDroopControl (cluster : BitVec 4) (mhz : BitVec 16) (s : State) : Outcome :=
  if 1200 ≤ mhz.toNat ∧ mhz.toNat ≤ 2600 then .next (s.modCluster cluster fun c => { c with cellMhz := mhz }) else idle s

/-- FITTED_MODULE_INSERT (16 R682): a module that needs more than 14 W in a QSFP-DD cage or 16 W in an OSFP cage is
refused, and the refusal is reported outside (assumption 61). -/
def execFittedModuleInsert (fabric : Bool) (cage : BitVec 3) (watts : BitVec 8) (s : State) : Outcome :=
  let at_ := cage.toNat + if fabric then 8 else 0
  if (if fabric then 16 else 14) < watts.toNat then
    .next (s.emit (.notify 0x57 (BitVec.ofNat 32 (at_ * 256 + watts.toNat))))
  else .next { s with plat := { s.plat with cages := Map.set 0 s.plat.cages at_ watts } }

/-- EXTERNAL_BACKUP_CHANGE (14 R626, 16 R677): CAL_BKP enters or leaves its range. -/
def execExternalBackupChange (present : Bool) (s : State) : Outcome :=
  let s := s.checkClock
  let s := { s with ben := { s.ben with backup := present } }
  .next (if s.plat.rails.getLsbD 0 && s.plat.flushed.isNone then s else s.standbyGone)

/-! ### Loss of a fabric link (15 R629 to R632, R644) -/

/-- The link of a connected port is lost (15 R644): its session ends, and a module without a path to the system Hart
runs free. -/
def State.fabricLost (s : State) (p : Nat) : State :=
    let s := s.modFab p fun _ => fabPort0
    let s := if (s.port (fabLink p)).link = linkUp then s.endSession (fabLink p)
      else s.modPort (fabLink p) fun y => { y with link := linkDown }
    let s := if s.upstreamPort.isNone ∧ s.hier.role ≠ 2 then { s with hier := { s.hier with locked := false } } else s
    s.settleRole

end Sys2Proof.Machine
end

