-- ==== Sys2Proof/Machine/Start.lean ====
section
/-! DEFINITION. Start (01 R27, R28): what each step of it does; the restart of Benus (14 R580 to R582, R624); the log
store and the Hart's log (14 R615, R618); the calendar value (14 R626); sensors (14 R612 to R614, 16 R697, R700). -/

namespace Sys2Proof.Machine

/-! ### Benus (14 R580 to R582) -/

/-- The mailboxes whose commands Benus has in hand. -/
def State.runningBoxes (s : State) : List (BitVec 5) :=
  ((List.range 32).map (BitVec.ofNat 5)).filter fun m => (s.mbx m).state == mbRunning

/-- Benus is up again: a command of the journal goes on, marked as completed after a restart; one that ran and was not
journalled is answered INTERRUPTED; TLS sessions have ended; a request that waits still waits (14 R581, R582). -/
def State.benusUp (s : State) : State :=
  let s := { s with ben := { s.ben with running := true, tls := [] } }
  s.each s.runningBoxes fun s m =>
    if s.ben.journal.contains m then s.modMbx m fun b => { b with restarted := true } else s.fails m stInterrupted

/-- Three failed starts of a firmware slot on trial: the boot stage switches back, and an update record is logged
(14 R624). -/
def State.trialFailed (s : State) : State :=
  let x := s.fwKind 1
  if !x.trial then s
  else if x.trialFails + 1 < 3 then s.modFwKind 1 fun y => { y with trialFails := y.trialFails + 1 }
  else
    let s := s.modFwKind 1 fun y => { y with active := !y.active, trial := false, trialFails := 0 }
    s.logUpdate 1 ((s.fwKind 1).version 1 (s.fwKind 1).active) stOk 0

/-- BENUS_RESTART (14 R582, R624): Benus alone restarts, while the module runs or stays on the standby rail.
`startFails`: the active slot does not start, and the boot stage tries again. -/
def execBenusRestart (startFails : Bool) (s : State) : Outcome :=
  if s.ben.running || !(s.ben.ready || s.plat.standbyOnly) then idle s
  else if startFails then .next s.trialFailed
  else .next (s.modFwKind 1 fun x => { x with trialFails := 0 }).benusUp

/-- BENUS_LOCKSTEP_MISMATCH (14 R580): source 1,504 is asserted, and Benus stops until BENUS_RESTART. -/
def execBenusLockstepMismatch (s : State) : Outcome :=
  if s.ben.running then .next (({ s with ben := { s.ben with running := false } }).assertSrc (platSource 0)) else idle s

/-! ### The steps of a start (01 R27) -/

/-- Step 1: Benus starts. At the module's first start mailbox 0 is assigned (14 R594) and the root wrapping key is
generated (R627); a calendar clock that stopped starts from the stored value (R626). FREE VALUE: the key, and the step
of the time record. -/
def State.startBenus (s : State) : State :=
  let assigned := s.ben.mbx.any fun e => e.2.transport.isSome
  let s := if s.ben.rootKey = [] ∧ !assigned then s.setMbx 0 firstMailbox else s
  let s := if s.ben.rootKey = [] then
      let (k, s) := s.drawBytes 48
      { s with ben := { s.ben with rootKey := k } }
    else s
  let s := s.standbyBack
  let s := if !s.plat.clockStopped then s
    else
      let (step, s) := s.drawBytes 8
      let s := { s with
        plat := { s.plat with clockStopped := false }
        ben := { s.ben with tai := s.ben.calStored, taiNs := 0, calValid := false, calSource := 0 } }
      s.log 8 noPart ([3, 0, 0, 0, 0, 0, 0, 0] ++ step)
  if s.ben.running then s else s.benusUp

/-- Step 2: the rails are up (16 R694), and the noise source and the DRBG run (12 R510). -/
def State.startRails (s : State) : State :=
  ({ s with plat := { s.plat with rails := 15, seqTries := 0 } }).setRegField esStat 31 31 1

/-- The registers that Benus writes at start and then locks: those that hold a LOCK bit (00 R16, 14 R609, 16 R707). -/
def lockRegs : List Nat :=
  ((List.range 16).map fun g =>
    [0x800, 0xA00, 0xB00, 0xC00, 0xD00, 0xE40, 0xF00].map (clcBase g + ·)
      ++ [trnBase g, cchBase g, dirBase g, pmcBase g + 0x2000]).flatten
    ++ (List.range 8).map chnBase ++ [fclBase + 0x80]

/-- Benus writes the stored configuration, places its tables (assumption 7), draws the salts and the LFSR states, and
sets every LOCK (14 R609; 02 R88; 09 R377). FREE VALUE: the salts, and the LFSR states, which are not 0. -/
def State.startConfig (s : State) : State :=
  let s := s.each s.ben.config fun s e =>
    match e.2, regSpec e.1 with
    | some v, some r => s.busWrite e.1 (v &&& ~~~(if e.1 = fclBase + 0x80 then lockBit else r.w1s))
    | _, _ => s
  let s := s.each (List.range 16) fun s g =>
    let (salt, s) := s.draw
    let (seed, s) := s.draw
    let lfsr := seed.toNat % 65535 + 1
    let s := s.setRegField (clcBase g + 0x800) 12 0 (salt.toNat % 2 ^ 13)
    let s := s.setRegField (cchBase g + 8) 15 0 lfsr
    ((s.setReg64 (trnBase g + 8) spaceTableAt).setReg64 (trnBase g + 0x10) stage2RootsAt).setReg64
      (clcBase g + 0x808) cellarTableAt
  s.each lockRegs fun s a => s.setRegField a 31 31 1

/-- Step 3, a cluster: the active microcode image goes into bank 0, and every cell that is not failed holds it
(06 R271). -/
def State.loadCluster (s : State) (g : Nat) : State :=
  let x := s.fwKind 2
  let s := s.setReg (clcBase g + 0xC08) (BitVec.ofNat 32 (x.version 2 x.active))
  let s := s.modCluster (BitVec.ofNat 4 g) fun c =>
    { c with newBank := false, bank0 := x.ucImage x.active }
  s.each (List.range 18) fun s p =>
    let ok := !Map.get false s.col.failMark (g * 32 + p)
    let at_ := clcBase g + 0xC40 + 4 * p
    (s.setRegField at_ 0 0 (if ok then 1 else 0)).setRegField at_ 2 2 0

/-- The spare map of a cluster at start: logical cell n is bound to physical cell n, or, where that is failed, to the
free spare with the lowest number; with none the cell is lost (13 R543, R546; DEDUCED, assumption 62). -/
def State.startSpares (s : State) (g : Nat) : State :=
  let failed (s : State) (p : Nat) : Bool := Map.get false s.col.failMark (g * 32 + p)
  let s := s.each (List.range 18) fun s p => if failed s p then s.setRegField (clcBase g + 0xF04) p p 1 else s
  s.each (cellsOf (BitVec.ofNat 4 g)) fun s c =>
    if !failed s (cellIndex c) then s
    else
      match s.freeSpare (BitVec.ofNat 4 g) with
      | some p => s.setRegField (clcCell c 0xF40) 4 0 p
      | none =>
        let s := s.setRegField (clcCell c 0xF40) 9 8 2
        { s with col := { s.col with lostCells := s.col.lostCells ++ [c] } }

/-- Step 3: a failed physical cell that passes the self-test of this start is marked failed no longer (13 R543), and one
whose read-back differs twice is (06 R271). -/
def State.startCells (s : State) (t : SelfTest) : State :=
  let s := s.each t.passed fun s (g, p) =>
    { s with col := { s.col with failMark := Map.set false s.col.failMark (g.toNat * 32 + p.toNat) false } }
  let s := s.each t.differ fun s (g, p) => s.markFailed g p.toNat
  (s.each (List.range 16) State.loadCluster).each (List.range 16) State.startSpares

/-- Step 5: ledger recovery of one entry (11 R473). An inbound entry in MIRRORING, which the rule does not name, was not
acknowledged either and is freed as one in OPEN (DESIGN CHOICE, assumption 65). -/
def State.recoverEntry (s : State) (i : Nat) : State :=
  let e := s.entry i
  if e.kind.getLsbD 0 then
    if e.state = ldOpen ∨ e.state = ldMirroring then s.freeEntry i
    else if e.state = ldAccepted then
      let some_ := s.ledger.any fun x => x.2.itemTn == e.tn && !x.2.kind.getLsbD 0 && x.2.state != ldFree
      s.closeEntry i (if some_ then ocPartial else ocUnprocessed)
    else s
  else if e.state = ldOpen ∨ e.state = ldMirroring then s.doubtEntry i
  else s

/-- Step 5: every entry, then the TN counter: at least 65,536 above the highest TN issued, and 65,536 at the first start
(11 R464). FREE VALUE: how far above. -/
def State.startLedger (s : State) : State :=
  let s := s.each (s.ledger.map Prod.fst) State.recoverEntry
  let s := { s with ben := { s.ben with recovered := true } }
  if s.tn = 0 then { s with tn := 65536 }
  else
    let (v, s) := s.draw
    { s with tn := s.tn + 65536 + (v.setWidth 32).setWidth 64 }

/-- Step 6: identity goes out on every connected port, and system time is stepped once to the upstream time; the system
Hart takes its calendar clock's (15 R630, R641; assumption 55). -/
def State.startFabric (s : State) (upstream : Option (BitVec 64)) : State :=
  let s := s.each (List.range 8) fun s p =>
    if (s.fab p).up then s.emit (.ident (BitVec.ofNat 3 p) (s.ownIdent (BitVec.ofNat 3 p))) else s
  match upstream with
  | some t => { s with now := t }
  | none => if s.hier.role = 2 then { s with now := s.taiNanos } else s

/-- Step 7: the partitions that Benus recorded are created again, by steps 2 to 5 of 14 R605. One that fails stays
recorded only (assumption 48). -/
def State.startParts (s : State) : State :=
  s.each (s.parts.filter fun e => e.2.record != [] && !e.2.isLive) fun s e =>
    match s.makePart (BitVec.ofNat 6 e.1) e.2.record with
    | .ok (_, s') => s'
    | .error _ => s

/-- Step 8: the ports accept transactions; each channel processor pair has its standby (11 R491). -/
def State.startPorts (s : State) : State :=
  let s := s.each (List.range 8) fun s n => s.modPort (BitVec.ofNat 4 n) fun p => { p with standbyOk := true }
  { s with ben := { s.ben with ready := true } }

/-- The image in an active slot passes its checks (01 R27 steps 1 and 3); the shipped one was verified when it was
made. -/
def State.slotVerified (s : State) (kind : Nat) : Bool :=
  let x := s.fwKind kind
  let below := x.image x.active
  let running := if below = [] then shippedVersion kind else imageVersion below
  x.top x.active = [] || (s.imageFault kind (x.top x.active) running (imageBody below)).isNone

/-- The identity exchange has run on every connected fabric port (01 R27 step 6). -/
def State.exchanged (s : State) : Bool := (List.range 8).all fun p => !(s.fab p).up || (s.fab p).peer.isSome

/-- Steps 7 and 8, once the identity exchange has run. -/
def State.finishStart (s : State) : State :=
  if s.ben.exchanging && s.exchanged then
    ({ s with ben := { s.ben with exchanging := false } }).startParts.startPorts
  else s

/-- IDENT (15 R631 to R633, R639; 01 R27): a start that waits for it goes on. -/
def execIdent (port : BitVec 3) (m : Ident) (s : State) : Outcome :=
  if !(s.fab port.toNat).up then idle s else .next (s.identArrives port.toNat m).finishStart

/-- FABRIC_LINK_LOSS (15 R644; 01 R27): the port is connected no longer. -/
def execFabricLinkLoss (port : BitVec 3) (s : State) : Outcome :=
  if !(s.fab port.toNat).up then idle s else .next (s.fabricLost port.toNat).finishStart

/-- MODULE_START (01 R27, R28): the eight steps in order, after a reset and while nothing holds the module back. A Benus
slot that fails its check does not start (14 R624), and the start stops before its step 3 when the microcode or the
channel firmware does; before its step 7 it waits for the identity exchange. -/
def execModuleStart (selfTest : SelfTest) (upstream : Option (BitVec 64)) (s : State) : Outcome :=
  if s.ben.ready || s.ben.exchanging || s.plat.standbyOnly || s.plat.seqHold || s.plat.flushed.isSome then idle s
  else if !s.slotVerified 1 then .next s.trialFailed
  else
    let s := s.startBenus.startRails
    if !s.slotVerified 2 || !s.slotVerified 3 then .next s
    else
      let s := (s.startCells selfTest).startConfig
      let s := ({ s with mem := [] }).startLedger.startFabric upstream
      .next ({ s with ben := { s.ben with exchanging := true } }).finishStart

/-! ### The log (14 R615, R618) and the calendar value (14 R626) -/

/-- LOG_FLASH_WRITE (14 R615). -/
def execLogFlashWrite (s : State) : Outcome := if s.ben.running then .next s.toLogStore else idle s

/-- LOG_FORWARD (14 R618): at a Hart a record of another module arrives; elsewhere the next record goes to the group
Hart, while it can be reached. -/
def execLogForward (arrives : Option LogRec) (s : State) : Outcome :=
  if !s.ben.running then idle s
  else
    match arrives with
    | some r =>
      if s.isHart then .next { s with ben := { s.ben with hartLog := s.ben.hartLog ++ [r] } } else idle s
    | none =>
      if s.isHart || s.upstreamPort.isNone then idle s
      else
        match (s.ben.flash ++ s.ben.ram).find? fun r => decide (s.ben.forwarded < r.lseq) with
        | none => idle s
        | some r => .next (({ s with ben := { s.ben with forwarded := r.lseq } }).emit (.log r))

/-- CALENDAR_STORE (14 R626). -/
def execCalendarStore (s : State) : Outcome :=
  if s.ben.running then .next { s with ben := { s.ben with calStored := s.ben.tai } } else idle s

/-! ### Sensors (14 R612 to R614; 16 R697, R700) -/

/-- STATE 2 where `alarm` holds, 1 where `warn` does, else 0. -/
def level (warn alarm : Bool) : BitVec 3 := if alarm then 2 else if warn then 1 else 0

/-- Above a warning and an alarm limit, or below them. -/
def above (v w a : Int) : BitVec 3 := level (decide (w < v)) (decide (a < v))
def below (v w a : Int) : BitVec 3 := level (decide (v < w)) (decide (v < a))

/-- Outside of a warning and an alarm distance from a nominal value. -/
def offBy (v nominal warn alarm : Int) : BitVec 3 :=
  level (decide (warn < (v - nominal).natAbs)) (decide (alarm < (v - nominal).natAbs))

/-- The nominal voltage of a rail sensor, in mV (14 R612, 16 R693). -/
def railNominal (id : Nat) : Int := [3300, 900, 1800, 1100, 1800, 3300].getD (id - 0x30) 0

/-- The STATE of a sensor that works (16 R697, R700). A core domain's set point is an open value (assumption 45). -/
def State.sensorState (s : State) (id : Nat) : BitVec 3 :=
  let val (i : Nat) : Int := (s.sensor i).value.toInt
  let v := val id
  if id < 0x10 then above v 950 1050
  else if id < 0x14 then above v 850 950
  else if id < 0x16 then above v 750 850
  else if id < 0x18 then
    if val 0x1A = (if id = 0x16 then 1 else -1) then
      level (decide (v < 150) || decide (450 < v)) (decide (v < 100) || decide (500 < v))
    else 0
  else if id = 0x18 then above v 850 900
  else if id = 0x19 then below v 200 150
  else if id = 0x1A then level (decide (v = -1)) (decide (v = 0))
  else if id = 0x20 ∨ id = 0x21 then
    let dc := bit (s.sensor (id + 6)).value 1
    let n := v.natAbs
    let lost := decide (n < if dc then 1000 else 750) || s.feed (id - 0x20) != 0
    level (decide (n < if dc then 1200 else 850) || decide ((if dc then 3700 else 2650) < n)) lost
  else if 0x30 ≤ id ∧ id ≤ 0x35 then offBy (100 * v) (100 * railNominal id) (3 * railNominal id) (5 * railNominal id)
  else if 0x40 ≤ id ∧ id ≤ 0x50 then offBy v (Config.coreSetPoint (id - 0x40)) 15 30
  else if id = 0x80 then below v 2600 2300
  else 0

/-- The source that an alarm of a sensor asserts, by its bit of group 47 (14 R614). -/
def alarmSource (id : Nat) : Option Nat :=
  if id < 0x18 then some 5
  else if id = 0x18 then some 8
  else if id = 0x19 then some 6
  else if id = 0x1A then some 7
  else if id = 0x20 ∨ id = 0x22 ∨ id = 0x24 ∨ id = 0x26 then some 1
  else if id = 0x21 ∨ id = 0x23 ∨ id = 0x25 ∨ id = 0x27 then some 2
  else if (0x30 ≤ id ∧ id ≤ 0x35) ∨ (0x40 ≤ id ∧ id ≤ 0x50) then some 3
  else none

def State.setSensor (s : State) (id : Nat) (x : Sensor) : State :=
  { s with ben := { s.ben with sensors := Map.set sensor0 s.ben.sensors id x } }

/-- A reading's value with its minimum and maximum since the reset. The mean cell clock is the clock that droop control
set (16 R698). -/
def State.takeReading (s : State) (r : Reading) : State :=
  let id := r.id.toNat
  let x := s.sensor id
  let v := if 0x90 ≤ id then ((s.cluster (BitVec.ofNat 4 (id - 0x90))).cellMhz).setWidth 32 else r.value
  if r.failed then s.setSensor id { x with value := v }
  else s.setSensor id
    { x with
      value := v, seen := true
      low := if !x.seen ∨ v.toInt < x.low.toInt then v else x.low
      high := if !x.seen ∨ x.high.toInt < v.toInt then v else x.high }

/-- The STATE of a sensor after a sample: a change is logged, and an alarm asserts its source (14 R614). -/
def State.judge (s : State) (r : Reading) (unit : Nat) : State :=
  let id := r.id.toNat
  let x := s.sensor id
  let st : BitVec 3 := if r.failed then 3 else s.sensorState id
  if st = x.state then s
  else
    let y := { x with state := st }
    let s := (s.setSensor id y).log 6 noPart (sensorBytes id unit y)
    match alarmSource id with
    | some b => if st = 2 then s.assertSrc (platSource b) else s
    | none => s

/-- The cause of a protection is over: a die at 115 °C or below, a flow that is not 0 (16 R701). -/
def State.endCause (s : State) (r : Reading) : State :=
  let clear (i : Nat) : State := { s with plat := { s.plat with protect := s.plat.protect &&& ~~~((1 : BitVec 17) <<< i) } }
  let id := r.id.toNat
  if r.failed then s
  else if id < 0x10 ∧ r.value.toInt ≤ 1150 then clear id
  else if id = 0x19 ∧ r.value ≠ 0 then clear 16
  else s

/-- SENSOR_SAMPLE (14 R612 to R614): all readings of a sample are taken, then judged. -/
def execSensorSample (readings : List Reading) (s : State) : Outcome :=
  if !s.ben.running then idle s
  else
    let known := readings.filterMap fun r => (sensorUnit r.id.toNat).map fun u => (r, u)
    let s := s.each known fun s e => (s.takeReading e.1).endCause e.1
    .next (s.each known fun s e => s.judge e.1 e.2)

end Sys2Proof.Machine
end

