-- ==== Sys2Proof/Machine/Dispatch.lean ====
section
/-! DEFINITION. One arm per command: each calls its meaning. -/

namespace Sys2Proof.Machine

def exec (i : Instr) (s : State) : Host.Outcome State Fault Refusal :=
  match i with
  | .moduleStart selfTest upstream => Sys2Proof.Machine.execModuleStart selfTest upstream s
  | .tokenAccept cell t snd srcCluster how => Sys2Proof.Machine.execTokenAccept cell t snd srcCluster how s
  | .queueRefill cell ecc => Sys2Proof.Machine.execQueueRefill cell ecc s
  | .matchTok cell ecc => Sys2Proof.Machine.execMatchTok cell ecc s
  | .sideBufferRelease cell ecc => Sys2Proof.Machine.execSideBufferRelease cell ecc s
  | .refill cell ecc => Sys2Proof.Machine.execRefill cell ecc s
  | .returnedTokenReceive snd => Sys2Proof.Machine.execReturnedTokenReceive snd s
  | .tokenResend snd => Sys2Proof.Machine.execTokenResend snd s
  | .heldReleaseRetry cell frame => Sys2Proof.Machine.execHeldReleaseRetry cell frame s
  | .retransmissionRequest snd => Sys2Proof.Machine.execRetransmissionRequest snd s
  | .ackReceive snd => Sys2Proof.Machine.execAckReceive snd s
  | .stallDetect cell frame => Sys2Proof.Machine.execStallDetect cell frame s
  | .stallScanDone cell frame => Sys2Proof.Machine.execStallScanDone cell frame s
  | .ringRecheck writer part => Sys2Proof.Machine.execRingRecheck writer part s
  | .windowAdaptSample cell => Sys2Proof.Machine.execWindowAdaptSample cell s
  | .ifetchReissue cell req => Sys2Proof.Machine.execIfetchReissue cell req s
  | .frameHeaderFill cell frame => Sys2Proof.Machine.execFrameHeaderFill cell frame s
  | .slotAssign cell check => Sys2Proof.Machine.execSlotAssign cell check s
  | .firingCommit cell slot check => Sys2Proof.Machine.execFiringCommit cell slot check s
  | .loadDataReturn cell slot reg ecc => Sys2Proof.Machine.execLoadDataReturn cell slot reg ecc s
  | .iterativeComplete cell slot => Sys2Proof.Machine.execIterativeComplete cell slot s
  | .timeSliceExpiry cell slot check => Sys2Proof.Machine.execTimeSliceExpiry cell slot check s
  | .controlStoreScrub cluster phys address bad => Sys2Proof.Machine.execControlStoreScrub cluster phys address bad s
  | .storeDrain cell => Sys2Proof.Machine.execStoreDrain cell s
  | .storeAck cell entry => Sys2Proof.Machine.execStoreAck cell entry s
  | .sideEffectStoreAck cell entry => Sys2Proof.Machine.execSideEffectStoreAck cell entry s
  | .storeLost cell entry => Sys2Proof.Machine.execStoreLost cell entry s
  | .cellDrainComplete cluster phys => Sys2Proof.Machine.execCellDrainComplete cluster phys s
  | .drainTimeout cluster phys => Sys2Proof.Machine.execDrainTimeout cluster phys s
  | .placementSample => Sys2Proof.Machine.execPlacementSample s
  | .spanSummary m => Sys2Proof.Machine.execSpanSummary m s
  | .placementDirective part epoch weights => Sys2Proof.Machine.execPlacementDirective part epoch weights s
  | .directiveAbsent => Sys2Proof.Machine.execDirectiveAbsent s
  | .migrationWindowEnd cell => Sys2Proof.Machine.execMigrationWindowEnd cell s
  | .header frame => Sys2Proof.Machine.execHeader frame s
  | .migrationScanDone frame => Sys2Proof.Machine.execMigrationScanDone frame s
  | .headerConfirm frame => Sys2Proof.Machine.execHeaderConfirm frame s
  | .mapInvalidate cluster frame => Sys2Proof.Machine.execMapInvalidate cluster frame s
  | .mapMark cluster frame => Sys2Proof.Machine.execMapMark cluster frame s
  | .endFwd frame => Sys2Proof.Machine.execEndFwd frame s
  | .contextMapFill cluster frame => Sys2Proof.Machine.execContextMapFill cluster frame s
  | .pageSampleWindow home => Sys2Proof.Machine.execPageSampleWindow home s
  | .pageMoveBlockCopy move uncorrectable => Sys2Proof.Machine.execPageMoveBlockCopy move uncorrectable s
  | .pageMoveTlbAck move => Sys2Proof.Machine.execPageMoveTlbAck move s
  | .itemIntake port tn => Sys2Proof.Machine.execItemIntake port tn s
  | .workgetTimeout cell slot => Sys2Proof.Machine.execWorkgetTimeout cell slot s
  | .releaseStoreFree cell slot => Sys2Proof.Machine.execReleaseStoreFree cell slot s
  | .itemLimitExpiry flow => Sys2Proof.Machine.execItemLimitExpiry flow s
  | .walkTableRead cell slot ecc => Sys2Proof.Machine.execWalkTableRead cell slot ecc s
  | .tornReread cell slot => Sys2Proof.Machine.execTornReread cell slot s
  | .stage2Answer cell slot maps => Sys2Proof.Machine.execStage2Answer cell slot maps s
  | .stage2Timeout cell slot => Sys2Proof.Machine.execStage2Timeout cell slot s
  | .tlbInvalidateAck cell slot => Sys2Proof.Machine.execTlbInvalidateAck cell slot s
  | .sectorBeat cluster sector => Sys2Proof.Machine.execSectorBeat cluster sector s
  | .sectorInstall cluster sector => Sys2Proof.Machine.execSectorInstall cluster sector s
  | .porchWritebackSend cluster => Sys2Proof.Machine.execPorchWritebackSend cluster s
  | .pantryCopyDone cluster pair => Sys2Proof.Machine.execPantryCopyDone cluster pair s
  | .pantryWritebackDone cluster pair => Sys2Proof.Machine.execPantryWritebackDone cluster pair s
  | .rdS home agent sector ecc => Sys2Proof.Machine.execRdS home agent sector ecc s
  | .rdX home agent sector ecc => Sys2Proof.Machine.execRdX home agent sector ecc s
  | .upg home agent sector => Sys2Proof.Machine.execUpg home agent sector s
  | .zeroX home agent sector => Sys2Proof.Machine.execZeroX home agent sector s
  | .hop home agent word op => Sys2Proof.Machine.execHop home agent word op s
  | .wb home agent block sectors => Sys2Proof.Machine.execWb home agent block sectors s
  | .prbS agent sector => Sys2Proof.Machine.execPrbS agent sector s
  | .prbI agent sector => Sys2Proof.Machine.execPrbI agent sector s
  | .prbF agent sector target => Sys2Proof.Machine.execPrbF agent sector target s
  | .dataS agent sector data => Sys2Proof.Machine.execDataS agent sector data s
  | .dataX agent sector data => Sys2Proof.Machine.execDataX agent sector data s
  | .grantX agent sector => Sys2Proof.Machine.execGrantX agent sector s
  | .retry agent sector => Sys2Proof.Machine.execRetry agent sector s
  | .requestReissue agent sector => Sys2Proof.Machine.execRequestReissue agent sector s
  | .prbRsp home agent sector answer => Sys2Proof.Machine.execPrbRsp home agent sector answer s
  | .done home agent sector => Sys2Proof.Machine.execDone home agent sector s
  | .wbAck agent block => Sys2Proof.Machine.execWbAck agent block s
  | .hopAck agent word op result ok => Sys2Proof.Machine.execHopAck agent word op result ok s
  | .reservationHoldEnd cell slot => Sys2Proof.Machine.execReservationHoldEnd cell slot s
  | .coherenceHeartbeat home whose => Sys2Proof.Machine.execCoherenceHeartbeat home whose s
  | .deadAgentDetect home whose => Sys2Proof.Machine.execDeadAgentDetect home whose s
  | .deadAgentNotice home agent => Sys2Proof.Machine.execDeadAgentNotice home agent s
  | .ill iss w => Sys2Proof.Machine.execIll iss w s
  | .add iss f => Sys2Proof.Machine.execAdd iss f s
  | .sub iss f => Sys2Proof.Machine.execSub iss f s
  | .and iss f => Sys2Proof.Machine.execAnd iss f s
  | .or iss f => Sys2Proof.Machine.execOr iss f s
  | .xor iss f => Sys2Proof.Machine.execXor iss f s
  | .andn iss x => Sys2Proof.Machine.execAndn iss x s
  | .min iss f => Sys2Proof.Machine.execMin iss f s
  | .max iss f => Sys2Proof.Machine.execMax iss f s
  | .shl iss x => Sys2Proof.Machine.execShl iss x s
  | .shr iss x => Sys2Proof.Machine.execShr iss x s
  | .sar iss x => Sys2Proof.Machine.execSar iss x s
  | .rol iss x => Sys2Proof.Machine.execRol iss x s
  | .rot iss x => Sys2Proof.Machine.execRot iss x s
  | .clz iss x => Sys2Proof.Machine.execClz iss x s
  | .ctz iss x => Sys2Proof.Machine.execCtz iss x s
  | .popc iss x => Sys2Proof.Machine.execPopc iss x s
  | .mul iss x => Sys2Proof.Machine.execMul iss x s
  | .mulh iss x => Sys2Proof.Machine.execMulh iss x s
  | .mulhu iss x => Sys2Proof.Machine.execMulhu iss x s
  | .div iss x => Sys2Proof.Machine.execDiv iss x s
  | .divu iss x => Sys2Proof.Machine.execDivu iss x s
  | .rem iss x => Sys2Proof.Machine.execRem iss x s
  | .remu iss x => Sys2Proof.Machine.execRemu iss x s
  | .eq iss f => Sys2Proof.Machine.execEq iss f s
  | .ne iss x => Sys2Proof.Machine.execNe iss x s
  | .lt iss f => Sys2Proof.Machine.execLt iss f s
  | .le iss x => Sys2Proof.Machine.execLe iss x s
  | .ltu iss f => Sys2Proof.Machine.execLtu iss f s
  | .leu iss x => Sys2Proof.Machine.execLeu iss x s
  | .li iss x => Sys2Proof.Machine.execLi iss x s
  | .mov iss f => Sys2Proof.Machine.execMov iss f s
  | .sel iss x => Sys2Proof.Machine.execSel iss x s
  | .self iss f => Sys2Proof.Machine.execSelf iss f s
  | .iter iss f => Sys2Proof.Machine.execIter iss f s
  | .tagof iss f => Sys2Proof.Machine.execTagof iss f s
  | .ttest iss x => Sys2Proof.Machine.execTtest iss x s
  | .retag iss x => Sys2Proof.Machine.execRetag iss x s
  | .faddS iss x => Sys2Proof.Machine.execFaddS iss x s
  | .fsubS iss x => Sys2Proof.Machine.execFsubS iss x s
  | .fmulS iss x => Sys2Proof.Machine.execFmulS iss x s
  | .fmaS iss x => Sys2Proof.Machine.execFmaS iss x s
  | .fdivS iss x => Sys2Proof.Machine.execFdivS iss x s
  | .fsqrtS iss x => Sys2Proof.Machine.execFsqrtS iss x s
  | .fminS iss x => Sys2Proof.Machine.execFminS iss x s
  | .fmaxS iss x => Sys2Proof.Machine.execFmaxS iss x s
  | .faddD iss x => Sys2Proof.Machine.execFaddD iss x s
  | .fsubD iss x => Sys2Proof.Machine.execFsubD iss x s
  | .fmulD iss x => Sys2Proof.Machine.execFmulD iss x s
  | .fmaD iss x => Sys2Proof.Machine.execFmaD iss x s
  | .fdivD iss x => Sys2Proof.Machine.execFdivD iss x s
  | .fsqrtD iss x => Sys2Proof.Machine.execFsqrtD iss x s
  | .fminD iss x => Sys2Proof.Machine.execFminD iss x s
  | .fmaxD iss x => Sys2Proof.Machine.execFmaxD iss x s
  | .feqS iss x => Sys2Proof.Machine.execFeqS iss x s
  | .fltS iss x => Sys2Proof.Machine.execFltS iss x s
  | .fleS iss x => Sys2Proof.Machine.execFleS iss x s
  | .funS iss x => Sys2Proof.Machine.execFunS iss x s
  | .feqD iss x => Sys2Proof.Machine.execFeqD iss x s
  | .fltD iss x => Sys2Proof.Machine.execFltD iss x s
  | .fleD iss x => Sys2Proof.Machine.execFleD iss x s
  | .funD iss x => Sys2Proof.Machine.execFunD iss x s
  | .cvtSI iss x => Sys2Proof.Machine.execCvtSI iss x s
  | .cvtIS iss x => Sys2Proof.Machine.execCvtIS iss x s
  | .cvtDI iss x => Sys2Proof.Machine.execCvtDI iss x s
  | .cvtID iss x => Sys2Proof.Machine.execCvtID iss x s
  | .cvtSD iss x => Sys2Proof.Machine.execCvtSD iss x s
  | .cvtDS iss x => Sys2Proof.Machine.execCvtDS iss x s
  | .fclassS iss x => Sys2Proof.Machine.execFclassS iss x s
  | .fclassD iss x => Sys2Proof.Machine.execFclassD iss x s
  | .b iss x => Sys2Proof.Machine.execB iss x s
  | .bz iss x => Sys2Proof.Machine.execBz iss x s
  | .bnz iss x => Sys2Proof.Machine.execBnz iss x s
  | .jr iss x => Sys2Proof.Machine.execJr iss x s
  | .endStrand iss f => Sys2Proof.Machine.execEndStrand iss f s
  | .send iss x => Sys2Proof.Machine.execSend iss x s
  | .sendE iss x => Sys2Proof.Machine.execSendE iss x s
  | .switch iss x => Sys2Proof.Machine.execSwitch iss x s
  | .switchE iss x => Sys2Proof.Machine.execSwitchE iss x s
  | .sendx iss x => Sys2Proof.Machine.execSendx iss x s
  | .sendxE iss x => Sys2Proof.Machine.execSendxE iss x s
  | .alloc iss x => Sys2Proof.Machine.execAlloc iss x s
  | .allocK iss x => Sys2Proof.Machine.execAllocK iss x s
  | .allocX iss x => Sys2Proof.Machine.execAllocX iss x s
  | .allocXK iss x => Sys2Proof.Machine.execAllocXK iss x s
  | .free iss x => Sys2Proof.Machine.execFree iss x s
  | .ld iss x => Sys2Proof.Machine.execLd iss x s
  | .ldb iss x => Sys2Proof.Machine.execLdb iss x s
  | .ldbu iss x => Sys2Proof.Machine.execLdbu iss x s
  | .ldh iss x => Sys2Proof.Machine.execLdh iss x s
  | .ldhu iss x => Sys2Proof.Machine.execLdhu iss x s
  | .ldx iss x => Sys2Proof.Machine.execLdx iss x s
  | .lds iss f => Sys2Proof.Machine.execLds iss f s
  | .st iss x => Sys2Proof.Machine.execSt iss x s
  | .stb iss x => Sys2Proof.Machine.execStb iss x s
  | .sth iss x => Sys2Proof.Machine.execSth iss x s
  | .stx iss x => Sys2Proof.Machine.execStx iss x s
  | .sts iss f => Sys2Proof.Machine.execSts iss f s
  | .ldp iss x => Sys2Proof.Machine.execLdp iss x s
  | .ifetch iss x => Sys2Proof.Machine.execIfetch iss x s
  | .istore iss x => Sys2Proof.Machine.execIstore iss x s
  | .iclear iss x => Sys2Proof.Machine.execIclear iss x s
  | .loadr iss x => Sys2Proof.Machine.execLoadr iss x s
  | .storec iss x => Sys2Proof.Machine.execStorec iss x s
  | .fence iss x => Sys2Proof.Machine.execFence iss x s
  | .fenceLL iss x => Sys2Proof.Machine.execFenceLL iss x s
  | .fenceLS iss x => Sys2Proof.Machine.execFenceLS iss x s
  | .fenceSL iss x => Sys2Proof.Machine.execFenceSL iss x s
  | .fenceSS iss x => Sys2Proof.Machine.execFenceSS iss x s
  | .ifence iss x => Sys2Proof.Machine.execIfence iss x s
  | .workget iss x => Sys2Proof.Machine.execWorkget iss x s
  | .flcommit iss x => Sys2Proof.Machine.execFlcommit iss x s
  | .fldone iss x => Sys2Proof.Machine.execFldone iss x s
  | .winset iss x => Sys2Proof.Machine.execWinset iss x s
  | .iretire iss x => Sys2Proof.Machine.execIretire iss x s
  | .agree iss x => Sys2Proof.Machine.execAgree iss x s
  | .rdtime iss x => Sys2Proof.Machine.execRdtime iss x s
  | .esubmit iss x => Sys2Proof.Machine.execEsubmit iss x s
  | .lcommit iss x => Sys2Proof.Machine.execLcommit iss x s
  | .svc iss x => Sys2Proof.Machine.execSvc iss x s
  | .rdsr iss x => Sys2Proof.Machine.execRdsr iss x s
  | .wrsr iss x => Sys2Proof.Machine.execWrsr iss x s
  | .eret iss x => Sys2Proof.Machine.execEret iss x s
  | .cstart iss x => Sys2Proof.Machine.execCstart iss x s
  | .mbxSend iss x => Sys2Proof.Machine.execMbxSend iss x s
  | .mbxPoll iss x => Sys2Proof.Machine.execMbxPoll iss x s
  | .tlbiVa iss x => Sys2Proof.Machine.execTlbiVa iss x s
  | .tlbiSid iss x => Sys2Proof.Machine.execTlbiSid iss x s
  | .tlbiPart iss x => Sys2Proof.Machine.execTlbiPart iss x s
  | .cmaintClean iss x => Sys2Proof.Machine.execCmaintClean iss x s
  | .cmaintFlush iss x => Sys2Proof.Machine.execCmaintFlush iss x s
  | .cmaintZero iss x => Sys2Proof.Machine.execCmaintZero iss x s
  | .cmaintPrefetch iss x => Sys2Proof.Machine.execCmaintPrefetch iss x s
  | .nop iss p => Sys2Proof.Machine.execNop iss p s
  | .not iss p => Sys2Proof.Machine.execNot iss p s
  | .neg iss p => Sys2Proof.Machine.execNeg iss p s
  | .addi iss p => Sys2Proof.Machine.execAddi iss p s
  | .li5 iss p => Sys2Proof.Machine.execLi5 iss p s
  | .shli iss p => Sys2Proof.Machine.execShli iss p s
  | .shri iss p => Sys2Proof.Machine.execShri iss p s
  | .sari iss p => Sys2Proof.Machine.execSari iss p s
  | .eqi iss p => Sys2Proof.Machine.execEqi iss p s
  | .zxb iss p => Sys2Proof.Machine.execZxb iss p s
  | .zxh iss p => Sys2Proof.Machine.execZxh iss p s
  | .andi iss p => Sys2Proof.Machine.execAndi iss p s
  | .readOrder port sub => Sys2Proof.Machine.execReadOrder port sub s
  | .readStreamOrder port sub => Sys2Proof.Machine.execReadStreamOrder port sub s
  | .writeOrder port sub => Sys2Proof.Machine.execWriteOrder port sub s
  | .senseOrder port sub => Sys2Proof.Machine.execSenseOrder port sub s
  | .controlOrder port sub => Sys2Proof.Machine.execControlOrder port sub s
  | .jumpOrder port sub => Sys2Proof.Machine.execJumpOrder port sub s
  | .waitEventOrder port sub signalled => Sys2Proof.Machine.execWaitEventOrder port sub signalled s
  | .programEnd port sub => Sys2Proof.Machine.execProgramEnd port sub s
  | .data port f => Sys2Proof.Machine.execData port f s
  | .ack port f => Sys2Proof.Machine.execAck port f s
  | .e2eAck port f => Sys2Proof.Machine.execE2eAck port f s
  | .req port f => Sys2Proof.Machine.execReq port f s
  | .query port f => Sys2Proof.Machine.execQuery port f s
  | .answer port f => Sys2Proof.Machine.execAnswer port f s
  | .abort port f => Sys2Proof.Machine.execAbort port f s
  | .credit port f => Sys2Proof.Machine.execCredit port f s
  | .flowpause port f => Sys2Proof.Machine.execFlowpause port f s
  | .hello port f => Sys2Proof.Machine.execHello port f s
  | .resolve port f => Sys2Proof.Machine.execResolve port f s
  | .reservedTypeFrame port type f => Sys2Proof.Machine.execReservedTypeFrame port type f s
  | .linkAckTimer port => Sys2Proof.Machine.execLinkAckTimer port s
  | .retransmissionTimeout port => Sys2Proof.Machine.execRetransmissionTimeout port s
  | .pcsLock port => Sys2Proof.Machine.execPcsLock port s
  | .pcsLockLoss port => Sys2Proof.Machine.execPcsLockLoss port s
  | .helloResend port => Sys2Proof.Machine.execHelloResend port s
  | .helloTimeout port => Sys2Proof.Machine.execHelloTimeout port s
  | .creditRepeat port lch => Sys2Proof.Machine.execCreditRepeat port lch s
  | .flowpauseRepeat port flow => Sys2Proof.Machine.execFlowpauseRepeat port flow s
  | .mirrorCopyAck m => Sys2Proof.Machine.execMirrorCopyAck m s
  | .cpMismatch port side => Sys2Proof.Machine.execCpMismatch port side s
  | .switchOverDone port => Sys2Proof.Machine.execSwitchOverDone port s
  | .cpSelfTestDone port pass => Sys2Proof.Machine.execCpSelfTestDone port pass s
  | .engineDispatch cls engine => Sys2Proof.Machine.execEngineDispatch cls engine s
  | .engineComplete cls engine => Sys2Proof.Machine.execEngineComplete cls engine s
  | .compress engine => Sys2Proof.Machine.execCompress engine s
  | .decompress engine => Sys2Proof.Machine.execDecompress engine s
  | .gcmEncrypt engine => Sys2Proof.Machine.execGcmEncrypt engine s
  | .gcmDecrypt engine => Sys2Proof.Machine.execGcmDecrypt engine s
  | .xtsEncrypt engine => Sys2Proof.Machine.execXtsEncrypt engine s
  | .xtsDecrypt engine => Sys2Proof.Machine.execXtsDecrypt engine s
  | .ctr engine => Sys2Proof.Machine.execCtr engine s
  | .sha256 engine => Sys2Proof.Machine.execSha256 engine s
  | .sha384 engine => Sys2Proof.Machine.execSha384 engine s
  | .sha3_256 engine => Sys2Proof.Machine.execSha3_256 engine s
  | .hmacSha256 engine => Sys2Proof.Machine.execHmacSha256 engine s
  | .hmacSha384 engine => Sys2Proof.Machine.execHmacSha384 engine s
  | .signP256 engine => Sys2Proof.Machine.execSignP256 engine s
  | .signP384 engine => Sys2Proof.Machine.execSignP384 engine s
  | .verifyP256 engine => Sys2Proof.Machine.execVerifyP256 engine s
  | .verifyP384 engine => Sys2Proof.Machine.execVerifyP384 engine s
  | .random engine => Sys2Proof.Machine.execRandom engine s
  | .keygen engine => Sys2Proof.Machine.execKeygen engine s
  | .keyimport engine => Sys2Proof.Machine.execKeyimport engine s
  | .keyexport engine => Sys2Proof.Machine.execKeyexport engine s
  | .keydestroy engine => Sys2Proof.Machine.execKeydestroy engine s
  | .pubkey engine => Sys2Proof.Machine.execPubkey engine s
  | .drbgReseed => Sys2Proof.Machine.execDrbgReseed s
  | .entropyHealthFail => Sys2Proof.Machine.execEntropyHealthFail s
  | .entropyRecovery => Sys2Proof.Machine.execEntropyRecovery s
  | .spareResume cell bad => Sys2Proof.Machine.execSpareResume cell bad s
  | .twinDigest cell slot lead shadow => Sys2Proof.Machine.execTwinDigest cell slot lead shadow s
  | .twinTimeout cell slot => Sys2Proof.Machine.execTwinTimeout cell slot s
  | .twinSelfTestDone cell slot leadPass shadowPass => Sys2Proof.Machine.execTwinSelfTestDone cell slot leadPass shadowPass s
  | .faultSample rails => Sys2Proof.Machine.execFaultSample rails s
  | .wireFault source => Sys2Proof.Machine.execWireFault source s
  | .wireFaultClear source => Sys2Proof.Machine.execWireFaultClear source s
  | .faultWindowEnd source => Sys2Proof.Machine.execFaultWindowEnd source s
  | .recordLogged recno => Sys2Proof.Machine.execRecordLogged recno s
  | .stormIntervalEnd source => Sys2Proof.Machine.execStormIntervalEnd source s
  | .aliveToggle => Sys2Proof.Machine.execAliveToggle s
  | .watchdogFeedBenus => Sys2Proof.Machine.execWatchdogFeedBenus s
  | .watchdogFeedCollector => Sys2Proof.Machine.execWatchdogFeedCollector s
  | .aliveFeedMissing benus => Sys2Proof.Machine.execAliveFeedMissing benus s
  | .benusRestart startFails => Sys2Proof.Machine.execBenusRestart startFails s
  | .benusLockstepMismatch => Sys2Proof.Machine.execBenusLockstepMismatch s
  | .mbxDoorbell m t irqEn request => Sys2Proof.Machine.execMbxDoorbell m t irqEn request s
  | .mbxCancel m t irqEn tag => Sys2Proof.Machine.execMbxCancel m t irqEn tag s
  | .mgtRequest session request => Sys2Proof.Machine.execMgtRequest session request s
  | .svcRequest m request => Sys2Proof.Machine.execSvcRequest m request s
  | .tlsSessionOpen session fingerprint => Sys2Proof.Machine.execTlsSessionOpen session fingerprint s
  | .tlsIdleTimeout session => Sys2Proof.Machine.execTlsIdleTimeout session s
  | .commandStart m => Sys2Proof.Machine.execCommandStart m s
  | .modIdentity m => Sys2Proof.Machine.execModIdentity m s
  | .sensorRead m => Sys2Proof.Machine.execSensorRead m s
  | .logRead m => Sys2Proof.Machine.execLogRead m s
  | .ledgerStatus m => Sys2Proof.Machine.execLedgerStatus m s
  | .timeGet m => Sys2Proof.Machine.execTimeGet m s
  | .memTelemetry m => Sys2Proof.Machine.execMemTelemetry m s
  | .fwStatus m => Sys2Proof.Machine.execFwStatus m s
  | .partCreate m => Sys2Proof.Machine.execPartCreate m s
  | .partQuiesce m => Sys2Proof.Machine.execPartQuiesce m s
  | .partDestroy m => Sys2Proof.Machine.execPartDestroy m s
  | .partCellarSet m => Sys2Proof.Machine.execPartCellarSet m s
  | .partVectorSet m => Sys2Proof.Machine.execPartVectorSet m s
  | .partEventSet m => Sys2Proof.Machine.execPartEventSet m s
  | .spaceBind m => Sys2Proof.Machine.execSpaceBind m s
  | .spaceUnbind m => Sys2Proof.Machine.execSpaceUnbind m s
  | .cacheWaysSet m => Sys2Proof.Machine.execCacheWaysSet m s
  | .pantrySet m => Sys2Proof.Machine.execPantrySet m s
  | .pantryClear m => Sys2Proof.Machine.execPantryClear m s
  | .placePinSet m => Sys2Proof.Machine.execPlacePinSet m s
  | .workqSet m => Sys2Proof.Machine.execWorkqSet m s
  | .flowBind m => Sys2Proof.Machine.execFlowBind m s
  | .twinResync m => Sys2Proof.Machine.execTwinResync m s
  | .chanSubSet m => Sys2Proof.Machine.execChanSubSet m s
  | .chanPathSet m => Sys2Proof.Machine.execChanPathSet m s
  | .engineSliceSet m => Sys2Proof.Machine.execEngineSliceSet m s
  | .engineSliceQuiesce m => Sys2Proof.Machine.execEngineSliceQuiesce m s
  | .engineSliceResume m => Sys2Proof.Machine.execEngineSliceResume m s
  | .engineSliceReset m => Sys2Proof.Machine.execEngineSliceReset m s
  | .ledgerNoticeSet m => Sys2Proof.Machine.execLedgerNoticeSet m s
  | .ledgerQuotaSet m => Sys2Proof.Machine.execLedgerQuotaSet m s
  | .cpSwap m => Sys2Proof.Machine.execCpSwap m s
  | .faultReactSet m => Sys2Proof.Machine.execFaultReactSet m s
  | .faultRecordClose m => Sys2Proof.Machine.execFaultRecordClose m s
  | .faultAliveRearm m => Sys2Proof.Machine.execFaultAliveRearm m s
  | .timeSet m => Sys2Proof.Machine.execTimeSet m s
  | .fwStage m => Sys2Proof.Machine.execFwStage m s
  | .fwCommit m => Sys2Proof.Machine.execFwCommit m s
  | .fwConfirm m => Sys2Proof.Machine.execFwConfirm m s
  | .fwRevert m => Sys2Proof.Machine.execFwRevert m s
  | .debugChallenge m => Sys2Proof.Machine.execDebugChallenge m s
  | .debugUnlock m => Sys2Proof.Machine.execDebugUnlock m s
  | .debugLock m => Sys2Proof.Machine.execDebugLock m s
  | .mbxAssign m => Sys2Proof.Machine.execMbxAssign m s
  | .roleSet m => Sys2Proof.Machine.execRoleSet m s
  | .ledgerPair m => Sys2Proof.Machine.execLedgerPair m s
  | .modConfigSet m => Sys2Proof.Machine.execModConfigSet m s
  | .modReset m => Sys2Proof.Machine.execModReset m s
  | .modZeroize m => Sys2Proof.Machine.execModZeroize m s
  | .bootKeySet m => Sys2Proof.Machine.execBootKeySet m s
  | .sensorSample readings => Sys2Proof.Machine.execSensorSample readings s
  | .logFlashWrite => Sys2Proof.Machine.execLogFlashWrite s
  | .logForward arrives => Sys2Proof.Machine.execLogForward arrives s
  | .calendarStore => Sys2Proof.Machine.execCalendarStore s
  | .fabricLinkTrained port corrected => Sys2Proof.Machine.execFabricLinkTrained port corrected s
  | .identSend port => Sys2Proof.Machine.execIdentSend port s
  | .ident port m => Sys2Proof.Machine.execIdent port m s
  | .hartDecision group epoch d => Sys2Proof.Machine.execHartDecision group epoch d s
  | .hartHeartbeat acknowledged => Sys2Proof.Machine.execHartHeartbeat acknowledged s
  | .hartLeaseEnd => Sys2Proof.Machine.execHartLeaseEnd s
  | .standbyTakeover => Sys2Proof.Machine.execStandbyTakeover s
  | .moduleDeadDeclare module => Sys2Proof.Machine.execModuleDeadDeclare module s
  | .linkDelayMeasure port offset => Sys2Proof.Machine.execLinkDelayMeasure port offset s
  | .ptpMessage masterSelected offset utcOffset => Sys2Proof.Machine.execPtpMessage masterSelected offset utcOffset s
  | .ppsEdge offset => Sys2Proof.Machine.execPpsEdge offset s
  | .holdoverEntry => Sys2Proof.Machine.execHoldoverEntry s
  | .ppsOutPulse => Sys2Proof.Machine.execPpsOutPulse s
  | .pmcWrap cell n => Sys2Proof.Machine.execPmcWrap cell n s
  | .pmcDump => Sys2Proof.Machine.execPmcDump s
  | .debugAuthExpiry => Sys2Proof.Machine.execDebugAuthExpiry s
  | .halt q => Sys2Proof.Machine.execHalt q s
  | .resume q => Sys2Proof.Machine.execResume q s
  | .step q => Sys2Proof.Machine.execStep q s
  | .breakpoint q => Sys2Proof.Machine.execBreakpoint q s
  | .tbreak q => Sys2Proof.Machine.execTbreak q s
  | .watch q => Sys2Proof.Machine.execWatch q s
  | .regrd q => Sys2Proof.Machine.execRegrd q s
  | .regwr q => Sys2Proof.Machine.execRegwr q s
  | .memrd q => Sys2Proof.Machine.execMemrd q s
  | .memwr q => Sys2Proof.Machine.execMemwr q s
  | .trace q => Sys2Proof.Machine.execTrace q s
  | .trcrd q => Sys2Proof.Machine.execTrcrd q s
  | .status q => Sys2Proof.Machine.execStatus q s
  | .extest pins => Sys2Proof.Machine.execExtest pins s
  | .idcode => Sys2Proof.Machine.execIdcode s
  | .samplePreload pins => Sys2Proof.Machine.execSamplePreload pins s
  | .clamp => Sys2Proof.Machine.execClamp s
  | .highz => Sys2Proof.Machine.execHighz s
  | .dbgpkt shifted => Sys2Proof.Machine.execDbgpkt shifted s
  | .bypass tdi => Sys2Proof.Machine.execBypass tdi s
  | .evtInChange input asserted => Sys2Proof.Machine.execEvtInChange input asserted s
  | .evtInAccept input => Sys2Proof.Machine.execEvtInAccept input s
  | .evtCoalesceEnd input => Sys2Proof.Machine.execEvtCoalesceEnd input s
  | .evtStuck input => Sys2Proof.Machine.execEvtStuck input s
  | .outputShort output => Sys2Proof.Machine.execOutputShort output s
  | .outputShortRetry output => Sys2Proof.Machine.execOutputShortRetry output s
  | .outputOpen output => Sys2Proof.Machine.execOutputOpen output s
  | .feedLoss feed => Sys2Proof.Machine.execFeedLoss feed s
  | .feedOvervoltage feed => Sys2Proof.Machine.execFeedOvervoltage feed s
  | .feedReturn feed => Sys2Proof.Machine.execFeedReturn feed s
  | .bothFeedsLost flushReaches => Sys2Proof.Machine.execBothFeedsLost flushReaches s
  | .restartAfterFlush => Sys2Proof.Machine.execRestartAfterFlush s
  | .railStart rail => Sys2Proof.Machine.execRailStart rail s
  | .railSequencingFault rail => Sys2Proof.Machine.execRailSequencingFault rail s
  | .sequenceRetry => Sys2Proof.Machine.execSequenceRetry s
  | .railOutOfRange rail => Sys2Proof.Machine.execRailOutOfRange rail s
  | .standbyRailLoss => Sys2Proof.Machine.execStandbyRailLoss s
  | .overtemperatureProtect cluster => Sys2Proof.Machine.execOvertemperatureProtect cluster s
  | .noFlowProtect => Sys2Proof.Machine.execNoFlowProtect s
  | .lockWrite w address value => Sys2Proof.Machine.execLockWrite w address value s
  | .w1cWrite w address value => Sys2Proof.Machine.execW1cWrite w address value s
  | .reg64LoRead w address => Sys2Proof.Machine.execReg64LoRead w address s
  | .reg64HiWrite w address value => Sys2Proof.Machine.execReg64HiWrite w address value s
  | .evecWrite w address value => Sys2Proof.Machine.execEvecWrite w address value s
  | .lfsrWrite w address value => Sys2Proof.Machine.execLfsrWrite w address value s
  | .pmcFrozenRelease w address value => Sys2Proof.Machine.execPmcFrozenRelease w address value s
  | .tstInjWrite w value => Sys2Proof.Machine.execTstInjWrite w value s
  | .tstLfsrForce w cluster value => Sys2Proof.Machine.execTstLfsrForce w cluster value s
  | .tstLfsrStep w cluster value => Sys2Proof.Machine.execTstLfsrStep w cluster value s
  | .registerWrite w address value => Sys2Proof.Machine.execRegisterWrite w address value s
  | .pauseFrame port priorities on => Sys2Proof.Machine.execPauseFrame port priorities on s
  | .fabricLinkLoss port => Sys2Proof.Machine.execFabricLinkLoss port s
  | .externalBackupChange present => Sys2Proof.Machine.execExternalBackupChange present s
  | .droopControl cluster mhz => Sys2Proof.Machine.execDroopControl cluster mhz s
  | .fittedModuleInsert fabric cage watts => Sys2Proof.Machine.execFittedModuleInsert fabric cage watts s
  | .peerPlacement source part sid code hint => Sys2Proof.Machine.execPeerPlacement source part sid code hint s

end Sys2Proof.Machine
end

