-- ==== Sys2Proof/WellFormed.lean ====
section
/-! DEFINITION. Which commands are well-formed: the sizes and ranges of operands that their types do not hold. A
command that is not well-formed comes from nothing the manual describes. -/

namespace Sys2Proof

/-- The words of a sector: sixteen (09 R373). Every tag code exists (03 R93). -/
def sectorOk (ws : List TWord) : Bool := ws.length == 16

/-- A logical fault source (13 R555): 48 groups of 32. -/
def sourceOk (i : BitVec 11) : Bool := decide (i.toNat < 1536)

/-- A physical cell of a cluster (13 R543): 0 to 17. -/
def physOk (p : BitVec 5) : Bool := decide (p.toNat < 18)

/-- An engine class and an engine of it (12 R519): 16 Lenfaim, 16 AES, 4 hash, 2 public-key, 1 entropy engine. -/
def engineOk (cls : BitVec 3) (e : BitVec 4) : Bool :=
  match cls.toNat with
  | 0 | 1 => true
  | 2 => decide (e.toNat < 4)
  | 3 => decide (e.toNat < 2)
  | 4 => e == 0
  | _ => false

/-- The sectors of a written-back block: each at most once, each whole (10 R422). -/
def wbOk (ss : List (BitVec 2 × List TWord)) : Bool :=
  (ss.map Prod.fst).eraseDups.length == ss.length && ss.all fun x => sectorOk x.2

/-- A request as a transport carries it: a header of 16 bytes and a payload of at most 2,032 (14 R584). -/
def requestOk (bs : List Byte) : Bool := decide (16 ≤ bs.length) && decide (bs.length ≤ 2048)

/-- A Coaskair frame carries at most 8,192 bytes (11 R480). -/
def frameOk (f : CFrame) : Bool := decide (f.payload.length ≤ 8192)

/-- Whether a command's operands have the sizes and ranges that the manual gives them. A command that the list does not
name has operands whose types hold all there is. -/
def Instr.wf (c : Instr) : Bool :=
  match c with
  | .moduleStart t _ => (t.passed ++ t.differ).all fun x => physOk x.2
  | .controlStoreScrub _ p _ _ | .cellDrainComplete _ p | .drainTimeout _ p => physOk p
  | .wb _ _ _ ss => wbOk ss
  | .dataS _ _ d | .dataX _ _ d => sectorOk d
  | .prbRsp _ _ _ (.dirty d) => sectorOk d
  | .data _ f | .ack _ f | .e2eAck _ f | .req _ f | .query _ f | .answer _ f | .abort _ f | .credit _ f | .flowpause _ f
  | .hello _ f | .resolve _ f => frameOk f
  | .reservedTypeFrame _ t f => frameOk f && decide (11 ≤ t.toNat)
  | .engineDispatch k e | .engineComplete k e => engineOk k e
  | .sha256 e | .sha384 e | .sha3_256 e | .hmacSha256 e | .hmacSha384 e => engineOk 2 e
  | .signP256 e | .signP384 e | .verifyP256 e | .verifyP384 e => engineOk 3 e
  | .random e | .keygen e | .keyimport e | .keyexport e | .keydestroy e | .pubkey e => engineOk 4 e
  | .faultSample rails => rails.all fun x => sourceOk x.1
  | .wireFault i | .wireFaultClear i | .faultWindowEnd i | .stormIntervalEnd i => sourceOk i
  | .mbxDoorbell _ _ _ r | .mgtRequest _ r | .svcRequest _ r => requestOk r
  | .outputShort n | .outputShortRetry n | .outputOpen n => decide (n.toNat < 3)
  | .railStart r | .railSequencingFault r | .railOutOfRange r => decide (r.toNat < 4)
  | _ => true

end Sys2Proof
end

