-- ==== Sys2Proof/Safety.lean ====
section
/-! DEFINITION. What counts as a safe run, and the terms in which statements speak of commands that complete: an
instruction that issues, and what it may change. -/

namespace Sys2Proof.Machine

/-- A step that completes: it answers a next state of which `post` holds. -/
def Completes (o : Outcome) (post : State → Prop) : Prop := ∃ t, o = .next t ∧ post t

/-- A state in which memory has its one canonical form. -/
def State.memOk (s : State) : Prop := Memory.wf s.mem = true

/-- A run is safe while every step answers a next state. -/
def Safe : Nat → State → Prop
  | 0, _ => True
  | n + 1, s => ∃ t, step s = .next t ∧ Safe n t

/-! ### Instructions -/

/-- The strand of slot `i.slot` issues an instruction of `len` words, all of its registers `uses` being there: it may
issue, no event is due, no breakpoint stands at its address, the checks found nothing, and its words are fetched, tagged
INT; `f` is the state after the fetch. The cell's performance counters are off (15 R648), so that no token of theirs is
sent beside. -/
structure Issues (s : State) (i : Iss) (len : Nat) (uses : List Reg) (f : State) : Prop where
  can : s.canIssue i.cell i.slot = true
  noEvent : s.sample i.cell i.slot = none
  noBreak : s.codeBreak i.cell (s.slot i.cell i.slot) = none
  check : i.check = .ok
  fetched : s.fetch i.cell i.slot (s.slot i.cell i.slot).pc len = (.ok, f)
  tag : i.fetchTag = Tag.int
  free : uses.any (s.slot i.cell i.slot).busy = false
  countersOff : f.reg (pmcCell i.cell + 0xC0) = 0

/-- The slot of the strand that issues `i`. -/
def State.me (f : State) (i : Iss) : Slot := f.slot i.cell i.slot

/-- What the end of an instruction makes of its slot: the marks of its breakpoint and of its waits are cleared, and a step
halts (15 R659). -/
def Slot.ended (now : BitVec 64) (t : Slot) : Slot :=
  let t := { t with passed := none, watched := none, porchWaited := false, agreed := false, wait := t.wait.over }
  if t.stepping = 1 then { t with stepping := 0, halted := some (2, now) } else t

/-- `t` differs from `f` in the slot of the strand that issued `i` alone, and in that this slot now owns the cell's
issue and its fetch buffer (05 R211, R212): memory, frames, caches, homes, registers, ports, partitions and every other slot are as they were. -/
def State.onlySlot (f t : State) (i : Iss) : Prop :=
  t = { f with slots := t.slots, cells := t.cells } ∧
    (∀ c k, c ≠ i.cell ∨ k ≠ i.slot → t.slot c k = f.slot c k) ∧
    ∀ c, t.cell c = if c = i.cell then (f.cell c).issued i.slot (t.me i).pc else f.cell c

/-- The instruction `i` is over: its slot is `a`, and nothing else has changed. -/
def Ran (f : State) (i : Iss) (a : Slot) (t : State) : Prop := t.me i = a.ended f.now ∧ f.onlySlot t i

/-- The value a register reads after `v` was written to it: g0 discards it (03 R104). -/
def written (d : Reg) (v : TWord) : TWord := if d = 0 then TWord.zero else v

/-- What each register reads after the writes of `ws`, in their order, where it read `g` before. -/
def after : List (Reg × TWord) → (Reg → TWord) → Reg → TWord
  | [], g, r => g r
  | w :: ws, g, r => after ws (fun q => if q = w.1 then written w.1 w.2 else g q) r

/-- `t` is `f` after an instruction of `len` words wrote `ws`: the next instruction follows, every register not named is
as it was, and so is all the rest of the machine. -/
def Wrote (f : State) (i : Iss) (len : Nat) (ws : List (Reg × TWord)) (t : State) : Prop :=
  (∀ r, (t.me i).g r = after ws (f.me i).g r) ∧
    Ran f i { (f.me i) with pc := (f.me i).pc + BitVec.ofNat 32 len, regs := (t.me i).regs } t

/-- What an operation that computed `v` writes: PFX.TAG gives it its tag, but for a POISON (03 R94, R113). -/
def taggedAs (x : LongOp) (v : TWord) : TWord :=
  match preTag x.pre with
  | none => v
  | some g => if v.tag = Tag.poison then v else ⟨g, v.data⟩

/-- The tag of a PFX.TAG before `x` may be given to `v` (03 R97, R120, R127). -/
def TagAllowed (x : LongOp) (sup : Bool) (v : TWord) : Prop :=
  match preTag x.pre with
  | none => True
  | some g => g ≠ Tag.empty ∧ g ≠ Tag.defer ∧
      (v.tag = Tag.poison ∨ (g = Tag.sys → sup = true) ∧ (g = Tag.bool → v.data.toNat ≤ 1))

/-- The strand takes the event `e` at the boundary before this instruction, which performed nothing (03 R121). -/
def Raises (o : Outcome) (f : State) (i : Iss) (e : Ev) : Prop := o = .next (f.raise i.cell i.slot e)

/-- What a commit-first operation leaves (03 R151, 13 R536): registers as after `Wrote`, and the result recorded in the
shadow. -/
def Recorded (f : State) (i : Iss) (len : Nat) (ws : List (Reg × TWord)) (t : State) : Prop :=
  (∀ r, (t.me i).g r = after ws (f.me i).g r) ∧
    (t.me i).shadow.regs = (t.me i).regs ∧ (t.me i).shadow.pc = (f.me i).pc + BitVec.ofNat 32 len ∧
    Ran f i { (f.me i) with
      pc := (f.me i).pc + BitVec.ofNat 32 len
      regs := (t.me i).regs
      shadow := (t.me i).shadow } t

/-- The access of kind `a` to word address `va` translates, is permitted and meets no watchpoint: `e` is its page, `w` the
machine word, and `u` the state after the look-up. -/
structure Reaches (f : State) (i : Iss) (va : Word) (a : Access) (e : TlbEnt) (w : Nat) (u : State) : Prop where
  translated : f.xlate i.cell i.slot va a = (.ok e w, u)
  noWatch : u.watchHit i.cell (u.me i) va (a.kind == 1) = none
  countersOff : u.reg (pmcCell i.cell + 0xC0) = 0

/-- Both words of a split access translate and are permitted, in one of the user window and the ordinary space, and neither
meets a watchpoint. -/
structure ReachesTwo (f : State) (i : Iss) (va : Word) (a : Access) (e1 : TlbEnt) (w1 : Nat) (e2 : TlbEnt) (w2 : Nat)
    (u : State) : Prop where
  translated : ∃ y, f.xlate i.cell i.slot va a = (.ok e1 w1, y) ∧ y.xlate i.cell i.slot (va + 1) a = (.ok e2 w2, u)
  oneSpace : (f.me i).windowed va a = (f.me i).windowed (va + 1) a
  noWatch : u.watchHit i.cell (u.me i) va (a.kind == 1) = none ∧ u.watchHit i.cell (u.me i) (va + 1) (a.kind == 1) = none
  countersOff : u.reg (pmcCell i.cell + 0xC0) = 0

/-- The word is a page's with C, the cell's cache holds its line, and the strand has no store of its own waiting. -/
structure Cached (u : State) (i : Iss) (e : TlbEnt) (w : Nat) : Prop where
  ordinary : e.se = false
  cacheable : e.c = true
  line : (u.cell i.cell).hasLine (sectorOf w) = true
  noStore : u.ownStores i.cell i.slot = []

/-- The strand's stores `es` (kind, word, bytes, value) have joined the end of its cell's store buffer, not sealed and not
performed, and the next instruction follows; nothing else has changed. -/
def Buffered (f : State) (i : Iss) (len : Nat) (es : List (StKind × Nat × BitVec 4 × TWord)) (t : State) : Prop :=
  (∃ new : List StEnt, new.map (fun e => (e.kind, e.addr, e.mask, e.val)) = es ∧
    (∀ e ∈ new, e.slot = i.slot ∧ e.isSealed = false ∧ e.performed = false) ∧
    t.cell i.cell = ({ (f.cell i.cell) with stbuf := (f.cell i.cell).stbuf ++ new } : CellSt).issued i.slot (t.me i).pc) ∧
  t.me i = Slot.ended f.now { (f.me i) with pc := (f.me i).pc + BitVec.ofNat 32 len } ∧
  t = { f with
    slots := t.slots
    cells := t.cells
    ids := t.ids } ∧
  (∀ c, c ≠ i.cell → t.cell c = f.cell c) ∧ ∀ c k, c ≠ i.cell ∨ k ≠ i.slot → t.slot c k = f.slot c k

/-- Room in the store buffer for `n` more stores of any strand (03 R150). -/
def State.storeRoom (f : State) (c : CellId) (n : Nat) : Prop := ((f.cell c).stbuf.filter fun e => e.shared).length + n ≤ 8

/-- The strand waits for `w`, and nothing else has changed. -/
def WaitsFor (f : State) (i : Iss) (w : Wait) (t : State) : Prop :=
  t = f.setSlot i.cell i.slot { (f.me i) with wait := w }

/-! ### Tokens -/

/-- A token sent to a cell reaches TK and finds what R206 and R207 ask for (05): it comes from its sender's copy, or from
another module; its router brings it to the cell, whose queues have room; no earlier token of its sender is still on
its way (03 R134); and the cell's counters are off. -/
structure ReachesTk (s : State) (cell : CellId) (t : Token) (snd : Sender) (k : BitVec 4) : Prop where
  sent : s.copyMatches t snd = true
  source : sourceOk snd.who k = true
  here : ctxModule t.ctx = s.hier.modn
  routed : s.routesTo snd k (frameOf t.ctx) cell = true
  awake : (s.cell cell).stopped = false
  room : (s.cell cell).dataQueued < 960 ∧ (s.cell cell).ovf = [] ∧ (s.cell cell).queued.length < 1024
  order : s.overtakes snd cell = false
  countersOff : s.reg (pmcCell cell + 0xC0) = 0

/-- The frame is ready for a token of its SID: its header is at the cell, it does not leave it, and it is neither FREE,
FAILED nor over. -/
structure TakesTokens (s : State) (cell : CellId) (t : Token) : Prop where
  header : frameOf t.ctx ∈ (s.cell cell).hdr
  stays : (s.cell cell).movedEntry (frameOf t.ctx) = none
  kept : (s.frame (frameOf t.ctx)).refuses t = none ∧ (s.frame (frameOf t.ctx)).state ≠ stFailed

/-- MT of a cell may take a token: the cell is not stopped, its side buffer has room, the token's frame lives there, and
the counters are off. -/
structure MayMatch (s : State) (cell : CellId) (t : Token) : Prop where
  awake : (s.cell cell).stopped = false
  sideRoom : (s.cell cell).side.length < 4
  stays : (s.cell cell).movedEntry (frameOf t.ctx) = none
  alive : (s.frame (frameOf t.ctx)).state ≠ stFailed ∧ (s.frame (frameOf t.ctx)).state ≠ stFree
  readyRoom : (s.cell cell).ready.length < 128
  countersOff : s.reg (pmcCell cell + 0xC0) = 0

/-- The set of a cell's matching store. -/
def State.msAt (s : State) (c : CellId) (k : Nat) : MsSet := Map.get ms0 (s.cell c).ms k

/-- The message `c` has come: it has left the wire, once. -/
def State.came (s : State) (c : Instr) : State := { s with wire := s.wire.erase c }

/-! ### Events of a strand -/

/-- `u` is after the strand of the slot entered the handler of the event `e` (05 R227, R230): the event registers, supervisor
mode, the vector of the cell; its general registers are as in `s`. -/
def Handles (s : State) (c : CellId) (k : SlotId) (e : Ev) (epc : Word) (u : State) : Prop :=
  let t := u.slot c k
  t.state = .handler ∧ t.ecause = e.cause ∧ t.einfo = e.info ∧ t.epc = epc ∧ (∀ a, e.addr = some a → t.eaddr = a) ∧
    t.sup = true ∧ t.pc = Map.get 0 (s.cell c).vectors e.cause.toNat ∧ t.wait = .none ∧ t.walk = none ∧ t.resv = none ∧
    ∀ r, t.g r = (s.slot c k).g r

/-- The slot runs, with no event due, the shipped microcode in its cell and its cell's counters off. -/
structure Calm (s : State) (c : CellId) (k : SlotId) : Prop where
  runs : (s.slot c k).state = .run
  awake : (s.slot c k).halted = none
  noEvent : (s.slot c k).dueMc = none ∧ (s.slot c k).dueDbg = none ∧ (s.slot c k).dueTs = false
  shipped : (s.cellImage c).isShipped = true
  countersOff : s.reg (pmcCell c + 0xC0) = 0

/-- A register that a write reaches by its access types alone (00 R14): no 64-bit pair, no LFSR, no vector register and none
of the perturbation block. -/
def plainReg (a : Nat) : Prop :=
  ¬(tstBase ≤ a ∧ a < tstBase + 0x1000) ∧ isLfsr a = false ∧ isEvec a = false ∧ isLo a = false ∧ isHi a = false

/-! ### Homes (10 R419 to R430) -/

/-- The request `c`, of an agent of this module and for a sector of it, has come to home `h`, where nothing blocks its block
and nothing else waits for it; no request of its stream comes before it (10 R449), neither a Pantry nor a page move has
the block, and the home samples another request. -/
structure AtHome (s : State) (h : BitVec 4) (c : Instr) : Prop where
  onWire : c ∈ s.wire
  own : s.isOwn (reqSector c * 16) = true ∧ s.isOwnAgent (reqAgent c) = true
  alive : s.agentDead h (reqAgent c) = false
  free : (s.home h).blocked (reqSector c / 4) = false ∧ ∀ q ∈ (s.home h).queue, reqSector q / 4 ≠ reqSector c / 4
  noSample : (s.home h).sampleCnt + 1 ≠ 0
  inOrder : s.inStream c h = true
  plain : (∀ e ∈ (s.home h).pantryMap, e.1 ≠ bigBlock (reqSector c * 16)) ∧
    s.redirect (reqSector c * 16) = reqSector c * 16
  goodMemory : s.failedChannels h = 0

/-- The directory of home `h` has an entry of a block, in way `k`. -/
def State.entryAt (s : State) (h : BitVec 4) (blk k : Nat) (e : DirEnt) : Prop :=
  (s.home h).findEnt h blk = some k ∧ (s.home h).ent k = e

/-- A home has taken a request and left everything but its home, its wire and its counters as it was. -/
def HomeOnly (s u : State) (h : BitVec 4) : Prop :=
  u = { s with
    homes := u.homes
    wire := u.wire
    regs := u.regs } ∧ ∀ x, x ≠ h → u.home x = s.home x

/-- The home's transaction for a block: the request that it serves, the agents whose answer it awaits, and whether its grant
has left. -/
def State.opened (s : State) (h : BitVec 4) (blk : Nat) (c : Instr) (aw : List (Agent × Nat)) (granted : Bool) : Prop :=
  ∃ t, (s.home h).transOf blk = some t ∧ t.req = c ∧ t.evict = false ∧ t.awaits = aw ∧ t.granted = granted

/-! ### Mailbox commands (14 R584 to R597) -/

/-- Mailbox `m` runs the command `code` with the payload `r`; it is the console's, and keeps its owner. -/
structure Runs (s : State) (m : BitVec 5) (code : Nat) (r : List Byte) : Prop where
  benus : s.ben.running = true
  runs : (s.mbx m).state = mbRunning
  cmd : (s.mbx m).cmd = code
  payload : (s.mbx m).payload = r
  stays : (s.mbx m).newOwner = []
  console : (s.mbx m).transport = some .svc

/-- `u` is `y` after the response of mailbox `m` (14 R585, R586, R617): the mailbox is DONE with it, it has left over the
console, the request waits no longer, and a command that changes module state has its audit record; nothing else has
changed. -/
def Answered (y u : State) (m : BitVec 5) (status detail : Nat) (payload : List Byte) : Prop :=
  let b := y.mbx m
  let resp := responseBytes b.request status detail payload
  u.mbx m = { b with
      state := mbDone
      response := resp
      restarted := false
      progress := 0 } ∧
    (∀ n, n ≠ m → u.mbx n = y.mbx n) ∧ m ∉ u.ben.order ∧ m ∉ u.ben.journal ∧
    (b.cmd / 256 = 0 → u.ben.lseq = y.ben.lseq ∧ u.ben.ram = y.ben.ram) ∧
    (b.cmd / 256 ≠ 0 → ∃ e ∈ u.ben.ram, e.typ = 5 ∧ e.lseq = y.ben.lseq + 1) ∧
    u = { y with
      out := y.out ++ [.response m resp]
      ben := { y.ben with
        mbx := u.ben.mbx
        order := u.ben.order
        journal := u.ben.journal
        ram := u.ben.ram
        lseq := u.ben.lseq
        lostRecs := u.ben.lostRecs } }

/-- The outcome is `y`, answered. -/
def Answers (o : Outcome) (y : State) (m : BitVec 5) (status detail : Nat) (payload : List Byte) : Prop :=
  Completes o fun u => Answered y u m status detail payload

/-! ### Links (11 R480 to R489) -/

/-- A frame of type `typ` comes on port `n` in the session: it is well formed and, where it has an FSEQ, it is the next one;
it acknowledges nothing that was not acknowledged before, and no acknowledgement is due. -/
structure Comes (s : State) (n typ : BitVec 4) (f : CFrame) : Prop where
  up : (s.port n).link = linkUp
  stays : (s.port n).switching = false
  form : f.crcOk = true ∧ f.ver = 1 ∧ f.payload.length ≤ (s.port n).maxPay.toNat ∧ (s.port n).maxPay.toNat ≤ ownMaxPay
  len : ∀ k, fixedLen typ = some k → f.payload.length = k
  session : f.session = (s.port n).session
  plain : f.cmp = false ∧ f.enc = false
  acks : (s.port n).unacked = []
  next : hasFseq typ = true → f.fseq = (s.port n).ackseq ∧ (s.port n).sinceAck < 15

/-- The port has taken the frame: ACKSEQ has moved past it, and it is counted. -/
def State.took (s : State) (n typ : BitVec 4) : State :=
  (if hasFseq typ then s.modPort n fun p => { p with
      ackseq := p.ackseq + 1
      sinceAck := p.sinceAck + 1 }
    else s).chnBump n 0x24

/-- A frame may leave port `n` at once. -/
structure MaySend (s : State) (n : BitVec 4) : Prop where
  up : (s.port n).link = linkUp
  stays : (s.port n).switching = false
  notPaused : (s.port n).pausedPrios.getLsbD 0 = false
  turn : (s.port n).txq = []
  room : (s.port n).unacked.length < (s.port n).window.toNat

/-- One frame of type `typ` of which `p` holds has left port `n`, with the port's ACKSEQ and SESSION, and its next FSEQ where
it has one of its own; nothing else left. -/
def SendsFrame (y u : State) (n typ : BitVec 4) (p : CFrame → Prop) : Prop :=
  ∃ f : CFrame, u.out = y.out ++ [.frame n typ f] ∧ p f ∧ f.ackseq = (y.port n).ackseq ∧
    f.session = (y.port n).session ∧ f.fseq = (if hasFseq typ then (y.port n).fseq else (y.port n).lastFseq) ∧
    (hasFseq typ = true → (u.port n).fseq = (y.port n).fseq + 1)

/-! ### Engines (12 R515 to R523) -/

/-- Command `c`, of operation `op`, runs on engine `e` of class `k` and has no result yet; it is alone in its slice. -/
structure Works (s : State) (k : BitVec 3) (e : BitVec 4) (op : Nat) (c : ECmd) : Prop where
  on : s.running k e = some c
  noResult : c.status = none
  op : descOp c.words = op
  alone : (s.slice k c.slice).queue = [c]

/-- The command has come to its result, and nothing else of `y` has changed. -/
def Finished (y u : State) (k : BitVec 3) (c : ECmd) (status : Byte) (len : Nat) (detail : Word) : Prop :=
  u.slice k c.slice = { (y.slice k c.slice) with queue := [{ c with
      status := some status
      outLen := len
      detail := detail }] } ∧
    (∀ j n, j ≠ k ∨ n ≠ c.slice → u.slice j n = y.slice j n) ∧ u = { y with classes := u.classes }

/-- The words `ws` are written at DST, where they can be, and the command ends with the status. -/
def Writes (o : Outcome) (s : State) (k : BitVec 3) (e : BitVec 4) (c : ECmd) (ws : List TWord) (status : Byte) (len : Nat)
    (detail : Word) : Prop :=
  ∀ y, s.putOut (engineUnit k e.toNat) c.sid (descDst c.words) ws 0 = (none, y) → y.classes = s.classes →
    Completes o fun u => Finished y u k c status len detail

/-- The output `bs` goes to DST where it fits, and the command ends with OK; where it does not fit nothing is written. -/
def Delivers (o : Outcome) (s : State) (k : BitVec 3) (e : BitVec 4) (c : ECmd) (bs : List Byte) : Prop :=
  (descCap c.words < bs.length → Completes o fun u => Finished s u k c 6 0 0) ∧
    (bs.length ≤ descCap c.words →
      Writes o s k e c (s.outWords c.sid (descDst c.words) (wordsOf bs.length) bs) 0 bs.length 0)

/-! ### Memory in the module's own hands -/

/-- The `n` bytes of own memory at `a` lie in plain memory: in no Pantry, in no page move, and in no cluster's cache. -/
def State.plainMem (s : State) (a n : Nat) : Prop := ∀ k, k < n →
  let w := s.ownWord (a + k)
  s.isOwn w = true ∧ s.redirect w = w ∧ s.pantryOf w = none ∧
    ∀ g : BitVec 4, (s.cluster g).dirtyData (sectorOf w) = none ∧ (s.cluster g).holds (sectorOf w) = false

end Sys2Proof.Machine
end

