-- ==== Sys2Proof/Certificates/Slice0/Obligations.lean ====
section
/-! DEFINITION. The statements about the machine, for the provers. -/

open Sys2Proof Sys2Proof.Machine

/-! ### The queue, reset and memory -/

/-- Step with a command at the front of the queue is exec of that command on the state whose queue is the rest. -/
def Obligations.FrontCommandRuns : Prop :=
  ∀ (c : Instr) (rest : List Instr) (s : State), s.pending = c :: rest → step s = exec c { s with pending := rest }

/-- An empty queue: one nanosecond passes on system time and on the calendar, whose second is 10^9 of them, and nothing
else changes. This is the model's choice (DESIGN CHOICE, assumption 5): the table has no row for a tick. -/
def Obligations.EmptyQueueTicks : Prop :=
  ∀ s : State, s.pending = [] → Completes (step s) fun t =>
    t.now = s.now + 1 ∧
    (s.ben.taiNs + 1 = 1000000000 → t.ben.tai = s.ben.tai + 1 ∧ t.ben.taiNs = 0) ∧
    (s.ben.taiNs + 1 ≠ 1000000000 → t.ben.tai = s.ben.tai ∧ t.ben.taiNs = s.ben.taiNs + 1) ∧
    t = { s with
      now := t.now
      ben := { s.ben with
        tai := t.ben.tai
        taiNs := t.ben.taiNs } }

/-- Reset leaves every register at its reset value, memory EMPTY everywhere (01 R27), no command waiting, no strand, no
partition, no flow and no ledger entry, and nothing sent. Register values are those of the register tables. -/
def Obligations.ResetLeaves : Prop :=
  (∀ a : Nat, State.reset.reg a = regReset a) ∧ (∀ w : Nat, State.reset.dram w = TWord.empty) ∧
    State.reset.pending = [] ∧ (∀ c k, (State.reset.slot c k).state = .idle) ∧
    State.reset.parts = [] ∧ State.reset.flows = [] ∧ State.reset.ledger = [] ∧ State.reset.out = []

/-- Memory keeps its one canonical form whatever command runs: addresses rise strictly, and no entry equals what an
unlisted word reads as. -/
def Obligations.MemoryStaysCanonical : Prop := ∀ s t : State, s.memOk → step s = .next t → t.memOk

/-- The reset state has that form. -/
def Obligations.ResetMemoryCanonical : Prop := State.reset.memOk

/-! ### Integer, logic, compare, move and tag instructions (03 R94, R99, R122 to R127) -/

/-- The integer and logic operations on two INT operands, or on any operands but POISON in the untyped form: the result is
the operation on their data, tagged INT, or as PFX.TAG says; one POISON operand makes the result the first of them. -/
def Obligations.IntegerResults : Prop :=
  ∀ (s f : State) (i : Iss) (x : LongOp), x.legal .both true true = true → Issues s i x.len x.regs f →
    let t := f.me i
    let a := t.g x.a
    let b := x.opB t
    let two : List ((Iss → LongOp → Instr) × (Word → Word → Word)) :=
      [(fun i x => .add i (.long x), fun p q => p + q), (fun i x => .sub i (.long x), fun p q => p - q),
       (fun i x => .and i (.long x), fun p q => p &&& q), (fun i x => .or i (.long x), fun p q => p ||| q),
       (fun i x => .xor i (.long x), fun p q => p ^^^ q), (.andn, fun p q => p &&& ~~~q),
       (fun i x => .min i (.long x), fun p q => if p.toInt ≤ q.toInt then p else q),
       (fun i x => .max i (.long x), fun p q => if p.toInt ≤ q.toInt then q else p),
       (.shl, fun p q => p <<< (q.toNat % 32)), (.shr, fun p q => p >>> (q.toNat % 32)),
       (.sar, fun p q => p.sshiftRight (q.toNat % 32)), (.rol, fun p q => p.rotateLeft (q.toNat % 32)),
       (.rot, fun p q => p.rotateRight (q.toNat % 32))]
    let one : List ((Iss → LongOp → Instr) × (Word → Nat)) :=
      [(.clz, fun p => ((List.range 32).takeWhile fun n => !p.getMsbD n).length),
       (.ctz, fun p => ((List.range 32).takeWhile fun n => !p.getLsbD n).length),
       (.popc, fun p => ((List.range 32).filter fun n => p.getLsbD n).length)]
    (∀ r ∈ two, a.tag ≠ Tag.poison → b.tag ≠ Tag.poison → (x.u = true ∨ a.tag = Tag.int ∧ b.tag = Tag.int) →
      TagAllowed x t.sup (TWord.int (r.2 a.data b.data)) →
      Completes (exec (r.1 i x) s) (Wrote f i x.len [(x.d, taggedAs x (TWord.int (r.2 a.data b.data)))])) ∧
    (∀ r ∈ two, a.tag = Tag.poison ∨ b.tag = Tag.poison → TagAllowed x t.sup ⟨Tag.poison, 0⟩ →
      Completes (exec (r.1 i x) s) (Wrote f i x.len [(x.d, if a.tag = Tag.poison then a else b)])) ∧
    (∀ r ∈ one, a.tag ≠ Tag.poison → (x.u = true ∨ a.tag = Tag.int) →
      TagAllowed x t.sup (TWord.int (BitVec.ofNat 32 (r.2 a.data))) →
      Completes (exec (r.1 i x) s)
        (Wrote f i x.len [(x.d, taggedAs x (TWord.int (BitVec.ofNat 32 (r.2 a.data))))])) ∧
    (∀ r ∈ one, a.tag = Tag.poison → TagAllowed x t.sup a →
      Completes (exec (r.1 i x) s) (Wrote f i x.len [(x.d, a)]))

/-- ADD and SUB on typed operands: the five combinations of the table, and a tag event 0x01 for every other. AND, OR, XOR and
ANDN on typed operands: BOOL of two BOOLs, INT where both are INT or one of each, and a tag event 0x01 for other tags. ANDN is
A and not B. -/
def Obligations.TypedCombinations : Prop :=
  ∀ (s f : State) (i : Iss) (x : LongOp), x.legal .both true true = true → Issues s i x.len x.regs f →
    x.u = false → preTag x.pre = none →
    let t := f.me i
    let a := t.g x.a
    let b := x.opB t
    a.tag ≠ Tag.poison → b.tag ≠ Tag.poison →
    (∀ k : Tag, (a.tag = Tag.int ∧ b.tag = Tag.int ∧ k = Tag.int ∨ a.tag = Tag.ptr ∧ b.tag = Tag.int ∧ k = Tag.ptr ∨
        a.tag = Tag.int ∧ b.tag = Tag.ptr ∧ k = Tag.ptr) →
      Completes (exec (.add i (.long x)) s) (Wrote f i x.len [(x.d, ⟨k, a.data + b.data⟩)])) ∧
    (∀ k : Tag, (a.tag = Tag.int ∧ b.tag = Tag.int ∧ k = Tag.int ∨ a.tag = Tag.ptr ∧ b.tag = Tag.int ∧ k = Tag.ptr ∨
        a.tag = Tag.ptr ∧ b.tag = Tag.ptr ∧ k = Tag.int) →
      Completes (exec (.sub i (.long x)) s) (Wrote f i x.len [(x.d, ⟨k, a.data - b.data⟩)])) ∧
    (¬(a.tag = Tag.int ∧ b.tag = Tag.int ∨ a.tag = Tag.ptr ∧ b.tag = Tag.int ∨ a.tag = Tag.int ∧ b.tag = Tag.ptr) →
      Raises (exec (.add i (.long x)) s) f i (tagEv 0x01)) ∧
    (¬(a.tag = Tag.int ∧ b.tag = Tag.int ∨ a.tag = Tag.ptr ∧ b.tag = Tag.int ∨ a.tag = Tag.ptr ∧ b.tag = Tag.ptr) →
      Raises (exec (.sub i (.long x)) s) f i (tagEv 0x01)) ∧
    ∀ r ∈ ([(fun i x => .and i (.long x), fun p q => p &&& q), (fun i x => .or i (.long x), fun p q => p ||| q),
        (fun i x => .xor i (.long x), fun p q => p ^^^ q), (.andn, fun p q => p &&& ~~~q)] :
        List ((Iss → LongOp → Instr) × (Word → Word → Word))),
      (a.tag = Tag.bool → b.tag = Tag.bool →
        Completes (exec (r.1 i x) s) (Wrote f i x.len [(x.d, ⟨Tag.bool, r.2 a.data b.data⟩)])) ∧
      ((a.tag = Tag.int ∧ b.tag = Tag.int ∨ a.tag = Tag.int ∧ b.tag = Tag.bool ∨ a.tag = Tag.bool ∧ b.tag = Tag.int) →
        Completes (exec (r.1 i x) s) (Wrote f i x.len [(x.d, ⟨Tag.int, r.2 a.data b.data⟩)])) ∧
      (¬((a.tag = Tag.int ∨ a.tag = Tag.bool) ∧ (b.tag = Tag.int ∨ b.tag = Tag.bool)) →
        Raises (exec (r.1 i x) s) f i (tagEv 0x01))

/-- The six comparisons: BOOL 0 or 1 of two operands of one accepted tag, a tag event 0x01 for others, and INT 0 or 1 in
the untyped form. -/
def Obligations.Comparisons : Prop :=
  ∀ (s f : State) (i : Iss) (x : LongOp), x.legal .both true true = true → Issues s i x.len x.regs f →
    preTag x.pre = none →
    let t := f.me i
    let a := t.g x.a
    let b := x.opB t
    a.tag ≠ Tag.poison → b.tag ≠ Tag.poison →
    let equal : List Tag := [Tag.int, Tag.bool, Tag.ptr, Tag.ctx, Tag.code]
    let order : List Tag := [Tag.int, Tag.ptr]
    ∀ r ∈ ([(fun i x => .eq i (.long x), equal, fun p q => decide (p = q)), (.ne, equal, fun p q => decide (p ≠ q)),
        (fun i x => .lt i (.long x), order, fun p q => decide (p.toInt < q.toInt)),
        (.le, order, fun p q => decide (p.toInt ≤ q.toInt)),
        (fun i x => .ltu i (.long x), order, fun p q => decide (p.toNat < q.toNat)),
        (.leu, order, fun p q => decide (p.toNat ≤ q.toNat))] :
        List ((Iss → LongOp → Instr) × List Tag × (Word → Word → Bool))),
      (x.u = false → a.tag = b.tag → a.tag ∈ r.2.1 →
        Completes (exec (r.1 i x) s) (Wrote f i x.len [(x.d, TWord.bool (r.2.2 a.data b.data))])) ∧
      (x.u = false → ¬(a.tag = b.tag ∧ a.tag ∈ r.2.1) → Raises (exec (r.1 i x) s) f i (tagEv 0x01)) ∧
      (x.u = true →
        Completes (exec (r.1 i x) s) (Wrote f i x.len [(x.d, TWord.int (if r.2.2 a.data b.data then 1 else 0))]))

/-- LI, MOV, SEL, SELF and ITER. -/
def Obligations.Moves : Prop :=
  ∀ (s f : State) (i : Iss) (x : LongOp), preTag x.pre = none →
    let t := f.me i
    (x.legal .li false true = true → Issues s i x.len [x.d] f →
      Completes (exec (.li i x) s) (Wrote f i x.len [(x.d, TWord.int (match preImm x.pre, x.body with
        | some hi, .li _ _ n => hi ++ n
        | none, .li _ _ n => n.signExtend 32
        | _, .lr .. => 0))])) ∧
    (x.legal .both false true = true → Issues s i x.len x.regs f →
      Completes (exec (.mov i (.long x)) s) (Wrote f i x.len [(x.d, t.g x.a)]) ∧
      (t.g x.d = TWord.bool true → Completes (exec (.sel i x) s) (Wrote f i x.len [(x.d, t.g x.a)])) ∧
      (t.g x.d = TWord.bool false → Completes (exec (.sel i x) s) (Wrote f i x.len [(x.d, x.opB t)])) ∧
      ((t.g x.d).tag = Tag.poison → Raises (exec (.sel i x) s) f i (tagEv 0x05)) ∧
      ((t.g x.d).tag ≠ Tag.poison → (t.g x.d).tag ≠ Tag.bool → Raises (exec (.sel i x) s) f i (tagEv 0x01)) ∧
      Completes (exec (.self i (.long x)) s) (Wrote f i x.len [(x.d, ⟨Tag.ctx, t.act.ctx⟩)]) ∧
      Completes (exec (.iter i (.long x)) s) (Wrote f i x.len [(x.d, TWord.int (t.act.iter.setWidth 32))]))

/-- TAGOF, TTEST and RETAG: the tag as an INT, the test as a BOOL, and the data under another tag; a POISON stays POISON
under RETAG, a POISON second operand makes its result POISON, and the tags that may not be made raise their tag events. A
POISON under RETAG to EMPTY or DEFER raises the event: that is the model's choice (DESIGN CHOICE, assumption 119). -/
def Obligations.TagOperations : Prop :=
  ∀ (s f : State) (i : Iss) (x : LongOp), x.legal .both false true = true → preTag x.pre = none →
    Issues s i x.len x.regs f →
    let t := f.me i
    let a := t.g x.a
    let k : Tag := (x.opB t).data.setWidth 4
    Completes (exec (.tagof i (.long x)) s) (Wrote f i x.len [(x.d, TWord.int (a.tag.setWidth 32))]) ∧
    Completes (exec (.ttest i x) s) (Wrote f i x.len [(x.d, TWord.bool (decide (a.tag = k)))]) ∧
    ((x.opB t).tag = Tag.poison →
      Completes (exec (.retag i x) s) (Wrote f i x.len [(x.d, if a.tag = Tag.poison then a else x.opB t)])) ∧
    ((x.opB t).tag ≠ Tag.poison →
    (k = Tag.empty ∨ k = Tag.defer → Raises (exec (.retag i x) s) f i (tagEv 0x0E)) ∧
    (k ≠ Tag.empty → k ≠ Tag.defer → a.tag = Tag.poison →
      Completes (exec (.retag i x) s) (Wrote f i x.len [(x.d, a)])) ∧
    (k = Tag.sys → t.sup = false → a.tag ≠ Tag.poison → Raises (exec (.retag i x) s) f i (tagEv 0x04)) ∧
    (k = Tag.bool → 1 < a.data.toNat → a.tag ≠ Tag.poison → Raises (exec (.retag i x) s) f i (tagEv 0x0F)) ∧
    (k ≠ Tag.empty → k ≠ Tag.defer → a.tag ≠ Tag.poison → (k = Tag.sys → t.sup = true) →
      (k = Tag.bool → a.data.toNat ≤ 1) →
      Completes (exec (.retag i x) s) (Wrote f i x.len [(x.d, ⟨k, a.data⟩)])))

/-! ### Paired words, illegal encodings, multiply and divide (03 R111, R112, R117, R118; 04 R169 to R180) -/

/-- A paired word whose halves are any two of the short operations that write a register or nothing: both read before
either writes, and the word is one instruction. Rows give the operation's number, which of D and S it needs as INT, and
the value that it writes to D. -/
def Obligations.ShortWords : Prop :=
  let sx (r : Reg) : Word := r.signExtend 32
  let zx (r : Reg) : Word := r.setWidth 32
  let int (w : Word) : Option TWord := some (TWord.int w)
  let bool (b : Bool) : Option TWord := some (TWord.bool b)
  let rows : List ((Iss → PairOp → Instr) × Nat × Bool × Bool × (State → Iss → Reg → Reg → Option TWord)) :=
    [(.nop, 0, false, false, fun _ _ _ _ => none),
     (fun i p => .mov i (.short p), 1, false, false, fun f i _ x => some ((f.me i).g x)),
     (fun i p => .add i (.short p), 2, true, true, fun f i d x => int (((f.me i).g d).data + ((f.me i).g x).data)),
     (fun i p => .sub i (.short p), 3, true, true, fun f i d x => int (((f.me i).g d).data - ((f.me i).g x).data)),
     (fun i p => .and i (.short p), 4, true, true, fun f i d x => int (((f.me i).g d).data &&& ((f.me i).g x).data)),
     (fun i p => .or i (.short p), 5, true, true, fun f i d x => int (((f.me i).g d).data ||| ((f.me i).g x).data)),
     (fun i p => .xor i (.short p), 6, true, true, fun f i d x => int (((f.me i).g d).data ^^^ ((f.me i).g x).data)),
     (.not, 7, false, true, fun f i _ x => int (~~~((f.me i).g x).data)),
     (.neg, 8, false, true, fun f i _ x => int (0 - ((f.me i).g x).data)),
     (.addi, 9, true, false, fun f i d x => int (((f.me i).g d).data + sx x)),
     (.li5, 10, false, false, fun _ _ _ x => int (sx x)),
     (.shli, 11, true, false, fun f i d x => int (((f.me i).g d).data <<< x.toNat)),
     (.shri, 12, true, false, fun f i d x => int (((f.me i).g d).data >>> x.toNat)),
     (.sari, 13, true, false, fun f i d x => int (((f.me i).g d).data.sshiftRight x.toNat)),
     (fun i p => .eq i (.short p), 14, true, true,
       fun f i d x => bool (decide (((f.me i).g d).data = ((f.me i).g x).data))),
     (fun i p => .lt i (.short p), 15, true, true,
       fun f i d x => bool (decide (((f.me i).g d).data.toInt < ((f.me i).g x).data.toInt))),
     (fun i p => .ltu i (.short p), 16, true, true,
       fun f i d x => bool (decide (((f.me i).g d).data.toNat < ((f.me i).g x).data.toNat))),
     (.eqi, 17, true, false, fun f i d x => bool (decide (((f.me i).g d).data = sx x))),
     (fun i p => .lds i (.short p), 18, false, false,
       fun f i _ x => some (f.slotWord i.cell i.slot (frameOf (f.me i).act.ctx) (x.setWidth 8))),
     (fun i p => .tagof i (.short p), 20, false, false, fun f i _ x => int (((f.me i).g x).tag.setWidth 32)),
     (fun i p => .min i (.short p), 21, true, true, fun f i d x =>
       int (if ((f.me i).g d).data.toInt ≤ ((f.me i).g x).data.toInt then ((f.me i).g d).data else ((f.me i).g x).data)),
     (fun i p => .max i (.short p), 22, true, true, fun f i d x =>
       int (if ((f.me i).g d).data.toInt ≤ ((f.me i).g x).data.toInt then ((f.me i).g x).data else ((f.me i).g d).data)),
     (.zxb, 23, false, true, fun f i _ x => int (((f.me i).g x).data &&& 0xFF)),
     (.zxh, 24, false, true, fun f i _ x => int (((f.me i).g x).data &&& 0xFFFF)),
     (.andi, 26, true, false, fun f i d x => int (((f.me i).g d).data &&& zx x)),
     (fun i p => .self i (.short p), 27, false, false, fun f i _ _ => some ⟨Tag.ctx, (f.me i).act.ctx⟩),
     (fun i p => .iter i (.short p), 28, false, false, fun f i _ _ => int ((f.me i).act.iter.setWidth 32))]
  ∀ r ∈ rows, ∀ q ∈ rows, ∀ (s f : State) (i : Iss) (p : PairOp) (od ox : Reg),
    p.bit15 = false → p.other = (BitVec.ofNat 5 q.2.1 ++ od ++ ox : BitVec 15) →
    (r.2.1 = 0 → p.d = 0 ∧ p.s = 0) → (q.2.1 = 0 → od = 0 ∧ ox = 0) →
    (r.2.1 = 27 ∨ r.2.1 = 28 → p.s = 0) → (q.2.1 = 27 ∨ q.2.1 = 28 → ox = 0) →
    (r.2.1 ≠ 0 → q.2.1 ≠ 0 → p.d ≠ od) → Issues s i 1 [p.d, p.s, od, ox] f →
    (r.2.2.1 = true → ((f.me i).g p.d).tag = Tag.int) → (r.2.2.2.1 = true → ((f.me i).g p.s).tag = Tag.int) →
    (q.2.2.1 = true → ((f.me i).g od).tag = Tag.int) → (q.2.2.2.1 = true → ((f.me i).g ox).tag = Tag.int) →
    Completes (exec (r.1 i p) s) (Wrote f i 1
      (((r.2.2.2.2 f i p.d p.s).map fun v => (p.d, v)).toList ++ ((q.2.2.2.2 f i od ox).map fun v => (od, v)).toList))

/-- ILL: its effect is a tag event 0x02, and the strand is in its handler. The words it stands for are those that spell no
operation: every long word of a major or an FN that the table does not give, every word of major 0x00, a prefix word by itself,
and a paired word with a reserved SOP; for any other word the command does nothing, since that word is another command's. A
paired word of any short operation is illegal, and raises that event, where its bit 15 is 1, where the other half has a reserved
SOP, where both halves name one destination, where NOP or END has D or S other than 0 and where SELF or ITER has S other than
0, in either half. -/
def Obligations.IllegalWords : Prop :=
  let rows : List ((Iss → PairOp → Instr) × Nat) :=
    [(.nop, 0), (fun i p => .mov i (.short p), 1), (fun i p => .add i (.short p), 2), (fun i p => .sub i (.short p), 3),
     (fun i p => .and i (.short p), 4), (fun i p => .or i (.short p), 5), (fun i p => .xor i (.short p), 6), (.not, 7),
     (.neg, 8), (.addi, 9), (.li5, 10), (.shli, 11), (.shri, 12), (.sari, 13), (fun i p => .eq i (.short p), 14),
     (fun i p => .lt i (.short p), 15), (fun i p => .ltu i (.short p), 16), (.eqi, 17), (fun i p => .lds i (.short p), 18),
     (fun i p => .sts i (.short p), 19), (fun i p => .tagof i (.short p), 20), (fun i p => .min i (.short p), 21),
     (fun i p => .max i (.short p), 22), (.zxb, 23), (.zxh, 24), (fun i p => .endStrand i (.short p), 25), (.andi, 26),
     (fun i p => .self i (.short p), 27), (fun i p => .iter i (.short p), 28)]
  let majors : List (Nat × Nat) := [(0x01, 8), (0x02, 8), (0x03, 7), (0x04, 6), (0x05, 5), (0x06, 3), (0x08, 8), (0x09, 8),
    (0x0A, 8), (0x0B, 8), (0x10, 1), (0x11, 1), (0x12, 1), (0x13, 1), (0x14, 1), (0x1E, 4), (0x1F, 1), (0x20, 7), (0x21, 5),
    (0x24, 2), (0x25, 2), (0x26, 6), (0x28, 1), (0x29, 2), (0x2A, 2), (0x2B, 2), (0x2C, 1), (0x2D, 1), (0x30, 1), (0x31, 2),
    (0x32, 1), (0x33, 1), (0x34, 2), (0x35, 3), (0x36, 4)]
  let sendLayout : List Nat := [0x18, 0x19, 0x1A, 0x1B, 0x1C, 0x1D, 0x22, 0x23]
  (∀ (s f : State) (i : Iss) (w : Word), noOperation w = true → Issues s i 1 [] f →
    exec (.ill i w) s = .next (f.raise i.cell i.slot (tagEv 0x02)) ∧
    ((f.me i).state ≠ .handler → (f.cellImage i.cell).isShipped = true →
      Completes (exec (.ill i w) s) (Handles f i.cell i.slot (tagEv 0x02) (f.me i).pc))) ∧
  (∀ (s : State) (i : Iss) (w : Word), noOperation w = false → exec (.ill i w) s = .next s) ∧
  (∀ w : Word, w.msb = false →
    (noOperation w = false ↔ (wordMajor w).toNat ∈ sendLayout ∨
      ∃ r ∈ majors, (wordMajor w).toNat = r.1 ∧ (wordFn w).toNat < r.2)) ∧
  (∀ w : Word, w.msb = true → (noOperation w = true ↔ 29 ≤ halfSop true w ∨ 29 ≤ halfSop false w)) ∧
  ∀ r ∈ rows, ∀ (s f : State) (i : Iss) (p : PairOp) (osop od ox : Reg), p.other = (osop ++ od ++ ox : BitVec 15) →
    Issues s i 1 [p.d, p.s, od, ox] f →
    (p.bit15 = true ∨ 29 ≤ osop.toNat ∨
      osop.toNat ≠ 0 ∧ osop.toNat ≠ 25 ∧ r.2 ≠ 0 ∧ r.2 ≠ 25 ∧ (osop.toNat = 19 ↔ r.2 = 19) ∧ od = p.d ∨
      (osop.toNat = 0 ∨ osop.toNat = 25) ∧ (od ≠ 0 ∨ ox ≠ 0) ∨ (osop.toNat = 27 ∨ osop.toNat = 28) ∧ ox ≠ 0 ∨
      (r.2 = 0 ∨ r.2 = 25) ∧ (p.d ≠ 0 ∨ p.s ≠ 0) ∨ (r.2 = 27 ∨ r.2 = 28) ∧ p.s ≠ 0) →
    Raises (exec (r.1 i p) s) f i (tagEv 0x02)

/-- DIV rounds toward zero, REM has the dividend's sign and a magnitude below the divisor's; DIVU and REMU are unsigned; a
zero divisor and the one overflowing quotient have their own results. The results and cycle counts of the multiplier and the
divider at the extremes, and FADD at the limits of both formats, ties to even, flush-to-zero off. -/
def Obligations.ArithmeticAtLimits : Prop :=
  (∀ a b : Word,
      (b ≠ 0 → (a ≠ 0x80000000 ∨ b ≠ 0xFFFFFFFF) →
        a.toInt = (divS a b).toInt * b.toInt + (remS a b).toInt ∧ (remS a b).toInt.natAbs < b.toInt.natAbs ∧
        (remS a b ≠ 0 → (remS a b).toInt.sign = a.toInt.sign)) ∧
      (b ≠ 0 → a.toNat = (divU a b).toNat * b.toNat + (remU a b).toNat ∧ (remU a b).toNat < b.toNat) ∧
      divS a 0 = 0xFFFFFFFF ∧ divU a 0 = 0xFFFFFFFF ∧ remS a 0 = a ∧ remU a 0 = a ∧
      divS 0x80000000 0xFFFFFFFF = 0x80000000 ∧ remS 0x80000000 0xFFFFFFFF = 0) ∧
  (mulhS 0x80000000 0xFFFFFFFF = 0 ∧ (0x80000000 * 0xFFFFFFFF : Word) = 0x80000000 ∧ mulCycles 0xFFFFFFFF = 1 ∧
    mulhS 0x80000000 0x80000000 = 0x40000000 ∧ mulCycles 0x80000000 = 4 ∧
    mulhU 0xFFFFFFFF 0xFFFFFFFF = 0xFFFFFFFE ∧ mulhuCycles 0xFFFFFFFF = 4 ∧ (0xFFFFFFFF * 0xFFFFFFFF : Word) = 1 ∧
    mulhU 0x7FFFFFFF 2 = 0 ∧ mulhuCycles 2 = 1) ∧
  (∀ r ∈ ([(true, 7, 2, 3, 1, 2), (true, -7, 2, -3, -1, 2), (true, 7, -2, -3, 1, 2), (true, -7, -2, 3, -1, 2),
        (false, 5, 7, 0, 5, 1), (false, 0xFFFFFFFF, 1, 0xFFFFFFFF, 0, 17), (true, 0x80000000, 1, 0x80000000, 0, 17),
        (true, 0x80000000, 0xFFFFFFFF, 0x80000000, 0, 1), (true, 123, 0, 0xFFFFFFFF, 123, 1),
        (false, 0x80000000, 0, 0xFFFFFFFF, 0x80000000, 1)] : List (Bool × Word × Word × Word × Word × Nat)),
      (if r.1 then divS r.2.1 r.2.2.1 else divU r.2.1 r.2.2.1) = r.2.2.2.1 ∧
      (if r.1 then remS r.2.1 r.2.2.1 else remU r.2.1 r.2.2.1) = r.2.2.2.2.1 ∧
      divCycles r.1 r.2.1 r.2.2.1 = r.2.2.2.2.2) ∧
  ∀ f ∈ [binary32, binary64],
    let neg (b : Nat) : Nat := b + f.signBit
    let big := f.maxBits
    let inf := f.infBits
    let small := 2 ^ f.mbits
    let snan := f.infBits + 1
    ∀ r ∈ ([(0, 0, 0, 0), (0, neg 0, 0, 0), (neg 0, neg 0, neg 0, 0), (1, 1, 2, 0), (1, neg 1, 0, 0),
        (small, neg 1, small - 1, 0), (big, small, big, FFlags.x), (big, big, inf, FFlags.o ||| FFlags.x),
        (big, neg big, 0, 0), (inf, neg big, inf, 0), (inf, inf, inf, 0), (inf, neg inf, f.defaultNaN, FFlags.v),
        (f.defaultNaN, big, f.defaultNaN, 0), (big, snan, snan + f.quietBit, FFlags.v),
        (f.defaultNaN, snan, f.defaultNaN, FFlags.v)] : List (Nat × Nat × Nat × FFlags)),
      f.add ⟨0, false, false⟩ r.1 r.2.1 = ⟨r.2.2.1, r.2.2.2⟩

/-- An iterative integer operation with its unit free is in flight from its issue, its result, under the tag of a PFX.TAG,
still to come; one POISON operand makes the result the first of them. The strand's next instruction follows. Its completion
writes the result, gives back the abandon mark of this operation and lets the strands that wait for a unit issue again, and
nothing else. -/
def Obligations.IterativeOperations : Prop :=
  let rows : List ((Iss → LongOp → Instr) × Nat × (Word → Word → Word) × (Word → Word → Nat)) :=
    [(.mul, 0, fun a b => a * b, fun _ b => mulCycles b),
     (.mulh, 0, fun a b => BitVec.ofInt 32 (a.toInt * b.toInt / 2 ^ 32), fun _ b => mulCycles b),
     (.mulhu, 0, fun a b => BitVec.ofNat 32 (a.toNat * b.toNat / 2 ^ 32), fun _ b => mulhuCycles b),
     (.div, 1, divS, divCycles true), (.divu, 1, divU, divCycles false), (.rem, 1, remS, divCycles true),
     (.remu, 1, remU, divCycles false)]
  (∀ r ∈ rows, ∀ (s f : State) (i : Iss) (x : LongOp), x.legal .lr true true = true → Issues s i x.len x.regs f →
    let a := (f.me i).g x.a
    let b := (f.me i).g x.b
    let began (v : TWord) : State → Prop := Ran f i { (f.me i) with
      pc := (f.me i).pc + BitVec.ofNat 32 x.len
      iter := some { pc := (f.me i).pc, unit := r.2.1, writes := [(x.d, v)]
                     flags := 0, trap := none, cycles := r.2.2.2 a.data b.data } }
    (∀ j, j ≠ i.slot → (f.slot i.cell j).iter.map IterOp.unit ≠ some r.2.1) →
    (a.tag ≠ Tag.poison → b.tag ≠ Tag.poison → (x.u = true ∨ a.tag = Tag.int ∧ b.tag = Tag.int) →
      TagAllowed x (f.me i).sup (TWord.int (r.2.2.1 a.data b.data)) →
      Completes (exec (r.1 i x) s) (began (taggedAs x (TWord.int (r.2.2.1 a.data b.data))))) ∧
    (a.tag = Tag.poison ∨ b.tag = Tag.poison → TagAllowed x (f.me i).sup ⟨Tag.poison, 0⟩ →
      Completes (exec (r.1 i x) s) (began (if a.tag = Tag.poison then a else b)))) ∧
  ∀ (s : State) (c : CellId) (k : SlotId) (o : IterOp), (s.slot c k).iter = some o → o.trap = none →
    (s.slot c k).dueMc = none → (s.slot c k).dueDbg = none → (s.slot c k).dueTs = false →
    Completes (exec (.iterativeComplete c k) s) fun t =>
      (∀ r, (t.slot c k).g r = after o.writes (s.slot c k).g r) ∧
      t.slot c k = { (s.slot c k) with
        regs := (t.slot c k).regs
        fpf := (s.slot c k).fpf ||| o.flags
        iter := none
        abandoned := if (s.slot c k).abandoned = some o.pc then none else (s.slot c k).abandoned
        noSlice := if (s.slot c k).abandoned = some o.pc then false else (s.slot c k).noSlice
        wait := (s.slot c k).wait.hasOperand } ∧
      (∀ j, j ≠ k → t.slot c j = { (s.slot c j) with wait := (s.slot c j).wait.hasOperand }) ∧
      (∀ d j, d ≠ c → t.slot d j = s.slot d j) ∧ t = { s with slots := t.slots }

/-! ### Floating point (03 R128; 04 R185 to R205) -/

/-- The floating-point operations but divide and square root: the result of the exact arithmetic on the operands' bits,
rounded in the direction that RM selects, and the flags raised added to SSR_FPF, where no raised flag's trap is enabled; a
raised flag with its trap enabled is a floating-point trap, which changes neither. -/
def Obligations.FloatingResults : Prop :=
  let s2 (x : LongOp) : List (FK × Reg) := [(.s, x.a), (.s, x.b)]
  let d2 (x : LongOp) : List (FK × Reg) := [(.d, x.a), (.d, x.b)]
  let rows : List ((Iss → LongOp → Instr) × (LongOp → List (FK × Reg)) × FK × (FCtl → List Nat → FRes)) :=
    [(.faddS, s2, .s, fun c v => binary32.add c (v.getD 0 0) (v.getD 1 0)),
     (.fsubS, s2, .s, fun c v => binary32.sub c (v.getD 0 0) (v.getD 1 0)),
     (.fmulS, s2, .s, fun c v => binary32.mul c (v.getD 0 0) (v.getD 1 0)),
     (.fmaS, fun x => s2 x ++ [(.s, x.d)], .s, fun c v => binary32.fma c (v.getD 0 0) (v.getD 1 0) (v.getD 2 0)),
     (.fminS, s2, .s, fun _ v => binary32.minmax false (v.getD 0 0) (v.getD 1 0)),
     (.fmaxS, s2, .s, fun _ v => binary32.minmax true (v.getD 0 0) (v.getD 1 0)),
     (.faddD, d2, .d, fun c v => binary64.add c (v.getD 0 0) (v.getD 1 0)),
     (.fsubD, d2, .d, fun c v => binary64.sub c (v.getD 0 0) (v.getD 1 0)),
     (.fmulD, d2, .d, fun c v => binary64.mul c (v.getD 0 0) (v.getD 1 0)),
     (.fmaD, fun x => d2 x ++ [(.d, x.d)], .d, fun c v => binary64.fma c (v.getD 0 0) (v.getD 1 0) (v.getD 2 0)),
     (.fminD, d2, .d, fun _ v => binary64.minmax false (v.getD 0 0) (v.getD 1 0)),
     (.fmaxD, d2, .d, fun _ v => binary64.minmax true (v.getD 0 0) (v.getD 1 0)),
     (.feqS, s2, .bool, fun _ v => cmpRes (binary32.cmp true (fun a b => a == b) (v.getD 0 0) (v.getD 1 0))),
     (.fltS, s2, .bool, fun _ v => cmpRes (binary32.cmp false (fun a b => decide (a < b)) (v.getD 0 0) (v.getD 1 0))),
     (.fleS, s2, .bool, fun _ v => cmpRes (binary32.cmp false (fun a b => decide (a ≤ b)) (v.getD 0 0) (v.getD 1 0))),
     (.funS, s2, .bool, fun _ v => cmpRes (binary32.unordered (v.getD 0 0) (v.getD 1 0))),
     (.feqD, d2, .bool, fun _ v => cmpRes (binary64.cmp true (fun a b => a == b) (v.getD 0 0) (v.getD 1 0))),
     (.fltD, d2, .bool, fun _ v => cmpRes (binary64.cmp false (fun a b => decide (a < b)) (v.getD 0 0) (v.getD 1 0))),
     (.fleD, d2, .bool, fun _ v => cmpRes (binary64.cmp false (fun a b => decide (a ≤ b)) (v.getD 0 0) (v.getD 1 0))),
     (.funD, d2, .bool, fun _ v => cmpRes (binary64.unordered (v.getD 0 0) (v.getD 1 0))),
     (.cvtSI, fun x => [(.int, x.a)], .s, fun c v => binary32.ofInt c (BitVec.ofNat 32 (v.getD 0 0))),
     (.cvtIS, fun x => [(.s, x.a)], .int, fun c v => intRes (binary32.toInt c.rm (v.getD 0 0))),
     (.cvtDI, fun x => [(.int, x.a)], .d, fun c v => binary64.ofInt c (BitVec.ofNat 32 (v.getD 0 0))),
     (.cvtID, fun x => [(.d, x.a)], .int, fun c v => intRes (binary64.toInt c.rm (v.getD 0 0))),
     (.cvtSD, fun x => [(.d, x.a)], .s, fun c v => binary64.convert binary32 c (v.getD 0 0)),
     (.cvtDS, fun x => [(.s, x.a)], .d, fun c v => binary32.convert binary64 c (v.getD 0 0)),
     (.fclassS, fun x => [(.s, x.a)], .int, fun _ v => intRes (binary32.classMask (v.getD 0 0), 0)),
     (.fclassD, fun x => [(.d, x.a)], .int, fun _ v => intRes (binary64.classMask (v.getD 0 0), 0))]
  ∀ r ∈ rows, ∀ (s f : State) (i : Iss) (x : LongOp) (vs : List Nat), x.legal .lr false false = true →
    (∀ y ∈ r.2.1 x, y.1 = .d → y.2.toNat % 2 = 0) → (r.2.2.1 = .d → x.d.toNat % 2 = 0) →
    Issues s i x.len (((r.2.1 x).map fun y => fregs y.1 y.2).flatten ++ fregs r.2.2.1 x.d) f →
    (r.2.1 x).mapM (fun y => (f.me i).fval y.1 y.2) = some vs →
    let o := r.2.2.2 ((f.me i).fctl x.rm) vs
    ((f.me i).enables &&& o.flags = 0 →
      Completes (exec (r.1 i x) s) fun t =>
        (∀ g, (t.me i).g g = after (fresult r.2.2.1 x.d o.bits) (f.me i).g g) ∧
        Ran f i { (f.me i) with
          pc := (f.me i).pc + BitVec.ofNat 32 x.len
          regs := (t.me i).regs
          fpf := (f.me i).fpf ||| o.flags } t) ∧
    (∀ w, fpTrapInfo (f.me i).enables o.flags = some w → Raises (exec (r.1 i x) s) f i (fpEv w))

/-- Divide and square root are iterative: 12 cycles in binary32 and 24 in binary64, whatever the operands. -/
def Obligations.FloatingIterative : Prop :=
  let rows : List ((Iss → LongOp → Instr) × (LongOp → List (FK × Reg)) × FK × Nat × (FCtl → List Nat → FRes)) :=
    [(.fdivS, fun x => [(.s, x.a), (.s, x.b)], .s, 12, fun c v => binary32.div c (v.getD 0 0) (v.getD 1 0)),
     (.fsqrtS, fun x => [(.s, x.a)], .s, 12, fun c v => binary32.sqrt c (v.getD 0 0)),
     (.fdivD, fun x => [(.d, x.a), (.d, x.b)], .d, 24, fun c v => binary64.div c (v.getD 0 0) (v.getD 1 0)),
     (.fsqrtD, fun x => [(.d, x.a)], .d, 24, fun c v => binary64.sqrt c (v.getD 0 0))]
  ∀ r ∈ rows, ∀ (s f : State) (i : Iss) (x : LongOp) (vs : List Nat), x.legal .lr false false = true →
    (∀ y ∈ r.2.1 x, y.1 = .d → y.2.toNat % 2 = 0) → (r.2.2.1 = .d → x.d.toNat % 2 = 0) →
    Issues s i x.len (((r.2.1 x).map fun y => fregs y.1 y.2).flatten ++ fregs r.2.2.1 x.d) f →
    (r.2.1 x).mapM (fun y => (f.me i).fval y.1 y.2) = some vs →
    (∀ j, j ≠ i.slot → (f.slot i.cell j).iter.map IterOp.unit ≠ some 2) →
    let o := r.2.2.2.2 ((f.me i).fctl x.rm) vs
    Completes (exec (r.1 i x) s) (Ran f i { (f.me i) with
      pc := (f.me i).pc + BitVec.ofNat 32 x.len
      iter := some { pc := (f.me i).pc, unit := 2, writes := fresult r.2.2.1 x.d o.bits, flags := o.flags
                     trap := fpTrapInfo (f.me i).enables o.flags, cycles := r.2.2.2.1 } })

/-! ### Branches, sends, windows, time and the strand state registers (03 R106, R129 to R137, R143, R161, R167) -/

/-- B, BZ, BNZ, JR and END: the target is the address of the instruction's first word plus the immediate; BZ and BNZ take
INT or BOOL; JR takes CODE. The target of a branch that is not taken has been fetched (05 R216), which may end the
strand's reservation. -/
def Obligations.Branches : Prop :=
  ∀ (s f : State) (i : Iss) (x : LongOp),
    let t := f.me i
    let go (pc : Word) : State → Prop := Ran f i { t with pc := pc }
    let ahead := f.fetchAhead i.cell i.slot (t.pc + x.imm)
    let next : State → Prop := Ran ahead i { t with
      pc := t.pc + BitVec.ofNat 32 x.len
      resv := (ahead.me i).resv }
    (x.legal .li false false = true →
      (Issues s i x.len [] f → Completes (exec (.b i x) s) (go (t.pc + x.imm))) ∧
      (Issues s i x.len [x.d] f →
        ((t.g x.d).tag = Tag.int ∨ (t.g x.d).tag = Tag.bool →
          Completes (exec (.bz i x) s) (if (t.g x.d).data = 0 then go (t.pc + x.imm) else next) ∧
          Completes (exec (.bnz i x) s) (if (t.g x.d).data = 0 then next else go (t.pc + x.imm))) ∧
        (∀ r : Byte, ((t.g x.d).tag = Tag.poison ∧ r = 0x05 ∨
            (t.g x.d).tag ≠ Tag.poison ∧ (t.g x.d).tag ≠ Tag.int ∧ (t.g x.d).tag ≠ Tag.bool ∧ r = 0x01) →
          Raises (exec (.bz i x) s) f i (tagEv r) ∧ Raises (exec (.bnz i x) s) f i (tagEv r)))) ∧
    (x.legal .lr false false = true →
      (Issues s i x.len [x.a] f →
        ((t.g x.a).tag = Tag.code → Completes (exec (.jr i x) s) (go (t.g x.a).data)) ∧
        ((t.g x.a).tag = Tag.poison → Raises (exec (.jr i x) s) f i (tagEv 0x05)) ∧
        ((t.g x.a).tag ≠ Tag.poison → (t.g x.a).tag ≠ Tag.code → Raises (exec (.jr i x) s) f i (tagEv 0x01))) ∧
      (Issues s i x.len [] f → Completes (exec (.endStrand i (.long x)) s)
        (Ran f i { t with
          state := .commit
          pc := t.pc + BitVec.ofNat 32 x.len })))

/-- SEND, SWITCH and SENDX, and their forms that end the strand: the token they form joins the send list; SWITCH sends to
the own context, to STMT where its predicate is BOOL 1 and to STMT + 1 where it is BOOL 0; SENDX carries SSR_XSID. -/
def Obligations.Sends : Prop :=
  ∀ (s f : State) (i : Iss) (x : LsOp), x.legal = true → Issues s i x.len [x.v, x.c] f →
    let t := f.me i
    let v := t.g x.v
    let iter : BitVec 12 := if x.itm = 0 then t.act.iter else if x.itm = 1 then t.act.iter + 1
      else if x.itm = 2 then 0 else t.its
    let trace : BitVec 6 := if (f.frame (frameOf t.act.ctx)).tracing then flTrace else 0
    let sent (ends : Bool) (dest : Word) (stmt sid : BitVec 16) : State → Prop := Ran f i { t with
      items := t.items + 1
      sends := t.sends ++ [.token (mkToken dest stmt iter x.port trace sid v)]
      state := if ends then .commit else t.state
      pc := t.pc + BitVec.ofNat 32 x.len }
    v.tag ≠ Tag.empty → v.tag ≠ Tag.defer → (v.tag = Tag.sys → t.sup = true) → t.items < 64 →
    (∀ dest : Word, dest.toNat % 2 ^ 20 ≠ 0 →
      (x.c = 0 ∧ dest = t.act.ctx ∨ x.c ≠ 0 ∧ t.g x.c = ⟨Tag.ctx, dest⟩ →
        Completes (exec (.send i x) s) (sent false dest x.statement t.sid) ∧
        Completes (exec (.sendE i x) s) (sent true dest x.statement t.sid)) ∧
      (t.g x.c = ⟨Tag.ctx, dest⟩ → t.sup = true → (s.me i).sup = true →
        Completes (exec (.sendx i x) s) (sent false dest x.statement t.xsid) ∧
        Completes (exec (.sendxE i x) s) (sent true dest x.statement t.xsid))) ∧
    (t.act.ctx.toNat % 2 ^ 20 ≠ 0 → ∀ b : Bool, t.g x.c = TWord.bool b →
      let stmt := if b then x.statement else x.statement + 1
      Completes (exec (.switch i x) s) (sent false t.act.ctx stmt t.sid) ∧
      Completes (exec (.switchE i x) s) (sent true t.act.ctx stmt t.sid))

/-- WINSET and IRETIRE with an INT join what the commit does, in program order; a WINSET above 512 and an IRETIRE of an
iteration 512 to 1,023 after BASE raise 0x0F. RDTIME and AGREE read the system time by selectors 0 and 1; AGREE reads random
bits by selector 2 and the cell's counters by 16 to 31; every other selector raises 0x0F. An operand that is no INT raises
0x05 for a POISON, which is the model's choice (DESIGN CHOICE, assumption 120), and 0x01 for any other tag. -/
def Obligations.WindowsAndTime : Prop :=
  ∀ (s f : State) (i : Iss) (x : LongOp),
    let t := f.me i
    let wrong (r : Byte) : Prop := (t.g x.a).tag = Tag.poison ∧ r = 0x05 ∨
      (t.g x.a).tag ≠ Tag.poison ∧ (t.g x.a).tag ≠ Tag.int ∧ r = 0x01
    (x.legal .lr false false = true → Issues s i x.len [x.a] f →
      (∀ n : Word, t.g x.a = TWord.int n →
        (n.toNat ≤ 512 → Completes (exec (.winset i x) s) (Ran f i { t with
          wins := t.wins ++ [.winset (n.setWidth 10)]
          pc := t.pc + BitVec.ofNat 32 x.len })) ∧
        (512 < n.toNat → Raises (exec (.winset i x) s) f i (tagEv 0x0F)) ∧
        let d := (n.toNat + 4096 - (f.frame (frameOf t.act.ctx)).base.toNat) % 4096
        (d < 512 ∨ 1024 ≤ d → Completes (exec (.iretire i x) s) (Ran f i { t with
          wins := t.wins ++ [.retire (n.setWidth 12)]
          pc := t.pc + BitVec.ofNat 32 x.len })) ∧
        (512 ≤ d → d < 1024 → Raises (exec (.iretire i x) s) f i (tagEv 0x0F))) ∧
      ∀ r : Byte, wrong r → Raises (exec (.winset i x) s) f i (tagEv r) ∧ Raises (exec (.iretire i x) s) f i (tagEv r)) ∧
    (x.legal .both false false = true → Issues s i x.len [x.d, x.a] f → x.body.isLi = false → ∀ r : Byte, wrong r →
      Raises (exec (.rdtime i x) s) f i (tagEv r) ∧ Raises (exec (.agree i x) s) f i (tagEv r)) ∧
    ∀ n : Word, x.legal .both false false = true → Issues s i x.len [x.d, x.a] f →
      (if x.body.isLi then x.imm = n else t.g x.a = TWord.int n) →
      (∀ r ∈ ([.rdtime, .agree] : List (Iss → LongOp → Instr)),
        (n = 0 → Completes (exec (r i x) s) fun u =>
          (∀ g, (u.me i).g g = after [(x.d, TWord.int (f.now.setWidth 32))] t.g g) ∧
          Ran f i { t with
            pc := t.pc + BitVec.ofNat 32 x.len
            regs := (u.me i).regs
            timeHi := some ((f.now >>> 32).setWidth 32) } u) ∧
        (n = 1 → Completes (exec (r i x) s)
          (Wrote f i x.len [(x.d, TWord.int (t.timeHi.getD ((f.now >>> 32).setWidth 32)))]))) ∧
      (n = 2 → Completes (exec (.agree i x) s) fun u => ∃ bits : Word,
        Wrote { f with free := u.free } i x.len [(x.d, ⟨if f.drbgRuns then Tag.int else Tag.poison, bits⟩)] u) ∧
      (16 ≤ n.toNat → n.toNat ≤ 31 → Completes (exec (.agree i x) s)
        (Wrote f i x.len [(x.d, TWord.int (f.reg (pmcBase (clusterOf i.cell).toNat + cellIndex i.cell * 0x100 + 0x1000
          + 8 * (n.toNat - 16))))])) ∧
      (n ≠ 0 → n ≠ 1 → Raises (exec (.rdtime i x) s) f i (tagEv 0x0F)) ∧
      (n ≠ 0 → n ≠ 1 → n ≠ 2 → n.toNat < 16 ∨ 31 < n.toNat → Raises (exec (.agree i x) s) f i (tagEv 0x0F))

/-- RDSR and WRSR by the table of strand state registers: a supervisor reads and writes its own ones, and a user's access
to them is a tag event 0x03; the read-only ones and every other number raise 0x0F on a write. -/
def Obligations.StrandRegisters : Prop :=
  ∀ (s f : State) (i : Iss) (x : LongOp) (n : Word), x.legal .both false false = true →
    (if x.body.isLi then x.a = 0 else x.b = 0) → Issues s i x.len [x.d, x.a] f →
    (if x.body.isLi then x.imm = n else (f.me i).g x.a = TWord.int n) →
    let t := f.me i
    let reads : List (Nat × Bool × Word) := [(0, true, t.its.setWidth 32), (1, true, t.fpc.setWidth 32),
      (2, true, t.fpf.setWidth 32), (3, false, t.xsid.setWidth 32), (4, false, t.uaw), (5, false, t.ecause.setWidth 32),
      (6, false, t.einfo), (7, false, t.epc), (8, false, t.eaddr), (9, true, if t.sup then 1 else 0)]
    (∀ r ∈ reads, n.toNat = r.1 →
      (r.2.1 = true ∨ t.sup = true → Completes (exec (.rdsr i x) s) (Wrote f i x.len [(x.d, TWord.int r.2.2)])) ∧
      (r.2.1 = false → t.sup = false → Raises (exec (.rdsr i x) s) f i (tagEv 0x03))) ∧
    (10 ≤ n.toNat → Raises (exec (.rdsr i x) s) f i (tagEv 0x0F)) ∧
    (∀ v : Word, t.g x.d = TWord.int v →
      let next (u : Slot) : State → Prop := Ran f i { u with pc := t.pc + BitVec.ofNat 32 x.len }
      (n = 0 → Completes (exec (.wrsr i x) s) (next { t with its := v.setWidth 12 })) ∧
      (n = 1 → Completes (exec (.wrsr i x) s) (next { t with fpc := v.setWidth 8 })) ∧
      (n = 2 → Completes (exec (.wrsr i x) s) (next { t with fpf := v.setWidth 5 })) ∧
      (n = 3 → t.sup = true → f.sidBoundTo (v.setWidth 16) t.part = true →
        Completes (exec (.wrsr i x) s) (next { t with xsid := v.setWidth 16 })) ∧
      (n = 4 → t.sup = true → Completes (exec (.wrsr i x) s) (next { t with uaw := v })) ∧
      (3 ≤ n.toNat → n.toNat ≤ 8 → t.sup = false → Raises (exec (.wrsr i x) s) f i (tagEv 0x03)) ∧
      (5 ≤ n.toNat → n.toNat ≤ 8 → t.sup = true → Raises (exec (.wrsr i x) s) f i (tagEv 0x0F)) ∧
      (9 ≤ n.toNat → Raises (exec (.wrsr i x) s) f i (tagEv 0x0F)))

/-- Event entry, by the shipped microcode, of a strand that is in no handler: the cause, the information and the address of
the instruction are saved, the mode is supervisor, the reservation ends, the fetch buffer's sectors are discarded and the strand
takes the issue stage and goes on at its cell's vector for the cause; no general register changes. ERET from a handler resumes at SSR_EPC, passing over an SVC, or at the CODE address in A. -/
def Obligations.EventsAndReturn : Prop :=
  (∀ (f : State) (i : Iss) (e : Ev), (f.me i).state ≠ .handler → f.reg (pmcCell i.cell + 0xC0) = 0 →
    (f.cellImage i.cell).isShipped = true →
    let t := f.raise i.cell i.slot e
    t.me i = { (f.me i) with
      state := .handler
      ecause := e.cause
      einfo := e.info
      epc := (f.me i).pc
      eaddr := (t.me i).eaddr
      sup := true
      resv := none
      loads := (f.me i).loads.map fun l => { l with reserve := none }
      pc := Map.get 0 (f.cell i.cell).vectors e.cause.toNat
      wait := .none
      walk := none
      agreed := false
      afterSvc := e.skip } ∧
    (∀ a, e.addr = some a → (t.me i).eaddr = a) ∧ t.mem = f.mem ∧ t.frames = f.frames ∧
    t.cell i.cell = { (f.cell i.cell) with
      owner := some i.slot
      run := 0
      buf := (t.cell i.cell).buf } ∧
    (∀ sec, (t.cell i.cell).buffered i.slot sec = false) ∧ (∀ c, c ≠ i.cell → t.cell c = f.cell c) ∧
    (∀ c k, c ≠ i.cell ∨ k ≠ i.slot → t.slot c k = f.slot c k)) ∧
  (∀ (s f : State) (i : Iss) (d a : Reg) (n : BitVec 11), Issues s i 1 [] f →
    Raises (exec (.svc i ⟨[], .li d a n⟩) s) f i { cause := 1, info := n.setWidth 32, skip := 1 }) ∧
  ∀ (s f : State) (i : Iss) (x : LongOp) (pc : Word), x.legal .lr false false = true → Issues s i x.len [x.a] f →
    (s.me i).sup = true → (f.me i).state = .handler → (f.me i).dueMc = none → (f.me i).dueDbg = none →
    (f.me i).dueTs = false →
    (x.a = 0 ∧ pc = (f.me i).epc + BitVec.ofNat 32 (f.me i).afterSvc ∨ x.a ≠ 0 ∧ (f.me i).g x.a = ⟨Tag.code, pc⟩) →
    Completes (exec (.eret i x) s) (Ran f i { (f.me i) with
      state := .run
      pc := pc
      afterSvc := 0
      noSlice := (f.me i).abandoned == some pc || (f.me i).noSlice
      sup := !f.pageIsUser i.cell (f.me i) pc })

/-! ### Memory (03 R107, R147 to R160; 09 R399 to R402; 08 R357) -/

/-- LDS and STS of the strand's own frame: an index of 224 or more is a tag event 0x0F; a store waits in the store buffer,
where the strand itself sees it at once. -/
def Obligations.FrameSlots : Prop :=
  ∀ (s f : State) (i : Iss) (x : LongOp) (n : Word), x.legal .both false false = true → Issues s i x.len x.regs f →
    x.opB (f.me i) = TWord.int n →
    let fr := frameOf (f.me i).act.ctx
    let v := (f.me i).g x.d
    (n.toNat < 224 → f.storesOf i.cell i.slot = [] →
      Completes (exec (.lds i (.long x)) s)
        (Wrote f i x.len [(x.d, Map.get TWord.empty (f.frame fr).slots n.toNat)])) ∧
    (224 ≤ n.toNat → Raises (exec (.lds i (.long x)) s) f i (tagEv 0x0F)) ∧
    (n.toNat < 224 → v.tag ≠ Tag.empty → v.tag ≠ Tag.defer → (v.tag = Tag.sys → (f.me i).sup = true) →
      f.storeRoom i.cell 1 →
      Completes (exec (.sts i (.long x)) s) fun t =>
        Buffered f i x.len [(.slot fr (n.setWidth 8), 0, 0, v)] t ∧
        t.slotWord i.cell i.slot fr (n.setWidth 8) = v) ∧
    (n.toNat < 224 → v.tag = Tag.empty ∨ v.tag = Tag.defer → Raises (exec (.sts i (.long x)) s) f i (tagEv 0x07)) ∧
    (n.toNat < 224 → v.tag = Tag.sys → (f.me i).sup = false → Raises (exec (.sts i (.long x)) s) f i (tagEv 0x04)) ∧
    (224 ≤ n.toNat → Raises (exec (.sts i (.long x)) s) f i (tagEv 0x0F))

/-- Loads of words that the cell's cache holds: LD, and LDX at a multiple of 4, give the word with its tag (EMPTY with
data 0 for an EMPTY or a DEFER word); the sub-word loads extend the named bytes of an INT word, give EMPTY for an EMPTY or DEFER word and raise 0x0A
for any other; a split load takes its bytes from two INT words. -/
def Obligations.CachedLoads : Prop :=
  ∀ (s f u : State) (i : Iss) (x : LongOp) (a o : Word) (e : TlbEnt) (w : Nat), x.legal .both false false = true →
    Issues s i x.len x.regs f → (f.me i).g x.a = ⟨Tag.ptr, a⟩ → x.opB (f.me i) = TWord.int o →
    (f.me i).loadsBound = true →
    let v := u.lineWord i.cell w
    let byte := o.toNat % 4
    let va : Word := a + o.sshiftRight 2
    (Reaches f i (a + o) accLoad e w u → Cached u i e w →
      Completes (exec (.ld i x) s) (Wrote u i x.len [(x.d, if v.tag = Tag.empty ∨ v.tag = Tag.defer then TWord.empty else v)])) ∧
    (Reaches f i va accSubLoad e w u → Cached u i e w → byte = 0 →
      Completes (exec (.ldx i x) s) (Wrote u i x.len [(x.d, if v.tag = Tag.empty ∨ v.tag = Tag.defer then TWord.empty else v)])) ∧
    (Reaches f i va accSubLoad e w u → Cached u i e w →
      ∀ r ∈ ([(.ldb, 1, fun y => (y.setWidth 8 : BitVec 8).signExtend 32),
          (.ldbu, 1, fun y => (y.setWidth 8 : BitVec 8).setWidth 32),
          (.ldh, 2, fun y => (y.setWidth 16 : BitVec 16).signExtend 32),
          (.ldhu, 2, fun y => (y.setWidth 16 : BitVec 16).setWidth 32)] :
          List ((Iss → LongOp → Instr) × Nat × (Word → Word))), byte + r.2.1 ≤ 4 →
        (v.tag = Tag.int → Completes (exec (r.1 i x) s)
          (Wrote u i x.len [(x.d, TWord.int (r.2.2 (v.data >>> (8 * byte))))])) ∧
        (v.tag = Tag.empty ∨ v.tag = Tag.defer → Completes (exec (r.1 i x) s) (Wrote u i x.len [(x.d, TWord.empty)])) ∧
        (v.tag ≠ Tag.int → v.tag ≠ Tag.empty → v.tag ≠ Tag.defer → Raises (exec (r.1 i x) s) u i (tagEv 0x0A))) ∧
    (∀ (e2 : TlbEnt) (w2 : Nat), ReachesTwo f i va accSubLoad e w e2 w2 u → Cached u i e w → Cached u i e2 w2 →
      let both : BitVec 64 := (u.lineWord i.cell w2).data ++ v.data
      v.tag = Tag.int → (u.lineWord i.cell w2).tag = Tag.int →
      (byte ≠ 0 → Completes (exec (.ldx i x) s)
        (Wrote u i x.len [(x.d, TWord.int ((both >>> (8 * byte)).setWidth 32))])) ∧
      (byte = 3 → Completes (exec (.ldhu i x) s)
        (Wrote u i x.len [(x.d, TWord.int (((both >>> 24).setWidth 16 : BitVec 16).setWidth 32))])) ∧
      (byte = 3 → Completes (exec (.ldh i x) s)
        (Wrote u i x.len [(x.d, TWord.int (((both >>> 24).setWidth 16 : BitVec 16).signExtend 32))])))

/-- Stores to ordinary pages wait in the store buffer: the word with its tag, or the named bytes of an INT, which the word
must be able to take; a split store makes one entry of each word. A DEFER word raises 0x09, and a sub-word store to a word
of another tag 0x0A. -/
def Obligations.Stores : Prop :=
  ∀ (s f u : State) (i : Iss) (x : LongOp) (a o : Word) (e : TlbEnt) (w : Nat), x.legal .both false false = true →
    Issues s i x.len x.regs f → (f.me i).g x.a = ⟨Tag.ptr, a⟩ → x.opB (f.me i) = TWord.int o → e.se = false →
    let v := (f.me i).g x.d
    let byte := o.toNat % 4
    let va : Word := a + o.sshiftRight 2
    let old := (withOwn (f.ownStores i.cell i.slot) w (u.peek w)).tag
    v.tag ≠ Tag.empty → v.tag ≠ Tag.defer → (v.tag = Tag.sys → (f.me i).sup = true) →
    (Reaches f i (a + o) accStore e w u →
      (old ≠ Tag.defer → u.storeRoom i.cell 1 →
        Completes (exec (.st i x) s) (Buffered u i x.len [(.word, w, 15, v)])) ∧
      (old = Tag.defer → Raises (exec (.st i x) s) u i (tagEv 0x09))) ∧
    (Reaches f i va accSubStore e w u → byte = 0 → old ≠ Tag.defer → u.storeRoom i.cell 1 →
      Completes (exec (.stx i x) s) (Buffered u i x.len [(.word, w, 15, v)])) ∧
    (Reaches f i va accSubStore e w u → v.tag = Tag.int →
      ∀ r ∈ ([(.stb, 1), (.sth, 2)] : List ((Iss → LongOp → Instr) × Nat)), byte + r.2 ≤ 4 →
        (old = Tag.int ∨ old = Tag.empty → u.storeRoom i.cell 1 → Completes (exec (r.1 i x) s) (Buffered u i x.len
          [(.sub, w, BitVec.ofNat 4 ((2 ^ r.2 - 1) * 2 ^ byte), TWord.int (v.data <<< (8 * byte)))])) ∧
        (old = Tag.defer → Raises (exec (r.1 i x) s) u i (tagEv 0x09)) ∧
        (old ≠ Tag.int → old ≠ Tag.empty → old ≠ Tag.defer → Raises (exec (r.1 i x) s) u i (tagEv 0x0A))) ∧
    (∀ (e2 : TlbEnt) (w2 : Nat), ReachesTwo f i va accSubStore e w e2 w2 u → v.tag = Tag.int →
      old = Tag.int ∨ old = Tag.empty →
      (withOwn (f.ownStores i.cell i.slot) w2 (u.peek w2)).tag = Tag.int ∨
        (withOwn (f.ownStores i.cell i.slot) w2 (u.peek w2)).tag = Tag.empty →
      u.storeRoom i.cell 2 → byte ≠ 0 → Completes (exec (.stx i x) s) (Buffered u i x.len
        [(.sub, w, BitVec.ofNat 4 (15 * 2 ^ byte), TWord.int (v.data <<< (8 * byte))),
         (.sub, w2, BitVec.ofNat 4 (15 * 2 ^ byte / 16), TWord.int (v.data >>> (32 - 8 * byte)))]))

/-- LDP and IFETCH: the address is translated at the instruction, and the request joins the send list, to leave at commit
with its response addressed to the own context. -/
def Obligations.SplitPhaseRequests : Prop :=
  ∀ (s f u : State) (i : Iss) (x : LsOp) (a n : Word) (e : TlbEnt) (w : Nat), x.legal = true →
    Issues s i x.len [x.v, x.c] f → (f.me i).g x.c = ⟨Tag.ptr, a⟩ →
    (x.v = 0 ∧ n = 0 ∨ x.v ≠ 0 ∧ (f.me i).g x.v = TWord.int n) → Reaches f i (a + n) accSplit e w u →
    (u.me i).items < 64 →
    ∀ r ∈ ([(.ldp, false), (.ifetch, true)] : List ((Iss → LsOp → Instr) × Bool)),
      Completes (exec (r.1 i x) s) fun t =>
        t.mem = u.mem ∧ t.frames = u.frames ∧ (∀ c k, c ≠ i.cell ∨ k ≠ i.slot → t.slot c k = u.slot c k) ∧
        ∃ q : Request, q.fetch = r.2 ∧ q.addr = w ∧ q.va = a + n ∧ q.resp.ctx = (f.me i).act.ctx ∧
          q.resp.stmt = x.statement ∧ q.resp.port = x.port ∧ q.resp.flags &&& flDefr = flDefr ∧
          t.me i = Slot.ended u.now { (u.me i) with
            items := (u.me i).items + 1
            sends := (u.me i).sends ++ [.request q]
            pc := (u.me i).pc + BitVec.ofNat 32 x.len }

/-- ISTORE and ICLEAR leave for the word's home after the commit point, and the strand waits for the answer. -/
def Obligations.HomeOperations : Prop :=
  ∀ (s f u v : State) (i : Iss) (x : LongOp) (a o : Word) (e : TlbEnt) (w : Nat), x.legal .both false false = true →
    Issues s i x.len x.regs f → (f.me i).g x.a = ⟨Tag.ptr, a⟩ → x.opB (f.me i) = TWord.int o →
    Reaches f i (a + o) accHomeW e w u → u.cfBefore i true = .ok v →
    v.isOwn (sectorOf w * 16) = true →
    let d := (f.me i).g x.d
    let goes (op : HomeOp) : State → Prop := WaitsFor
      (v.post (.hop (homeOf e.homing w) (v.agentOf (clusterOf i.cell)) w op)) i
      (.hop none ((v.me i).pc + BitVec.ofNat 32 x.len))
    (d.tag ≠ Tag.empty → d.tag ≠ Tag.defer → (d.tag = Tag.sys → (f.me i).sup = true) →
      Completes (exec (.istore i x) s) (goes (.istore i.cell i.slot (f.me i).part d))) ∧
    Completes (exec (.iclear i x) s) (goes (.iclear i.cell i.slot)) ∧
    (d.tag = Tag.empty ∨ d.tag = Tag.defer → Raises (exec (.istore i x) s) u i (tagEv 0x07))

/-- LOADR of a sector that the cluster holds for writing takes the word and the reservation; STOREC then writes BOOL 1 and
stores while the reservation holds, and BOOL 0 with nothing stored when it does not. -/
def Obligations.ReservedPair : Prop :=
  (∀ (s f u y : State) (i : Iss) (x : LongOp) (a o : Word) (e : TlbEnt) (w : Nat) (d : TWord),
    x.legal .both false false = true → Issues s i x.len x.regs f → (f.me i).g x.a = ⟨Tag.ptr, a⟩ →
    x.opB (f.me i) = TWord.int o → e.c = true → Reaches f i (a + o) accHomeR e w u → u.pantryOf w = none →
    (f.me i).loadsBound = true → u.clusterRead (clusterOf i.cell) (u.me i).part w = (.hit d, y) →
    y.pantryOf w = none → (y.cluster (clusterOf i.cell)).writable (sectorOf w) = true →
    y.reg (pmcCell i.cell + 0xC0) = 0 →
    Completes (exec (.loadr i x) s) fun t =>
      (t.me i).resv = some (sectorOf w) ∧ (t.me i).pc = (y.me i).pc + BitVec.ofNat 32 x.len ∧
      (t.me i).loads.map (fun l => (l.reg, l.parts)) = (y.me i).loads.map (fun l => (l.reg, l.parts)) ++
        [(x.d, [(w, some (withOwn (u.ownStores i.cell i.slot) w d))])] ∧
      t.mem = y.mem ∧ t.clusters = y.clusters) ∧
  ∀ (s f u v : State) (i : Iss) (x : LongOp) (a : Word) (e : TlbEnt) (w : Nat), x.legal .lr false false = true →
    Issues s i x.len x.regs f → (f.me i).g x.a = ⟨Tag.ptr, a⟩ → e.c = true → Reaches f i a accHomeW e w u →
    u.cfBefore i true = .ok v → v.reg (pmcCell i.cell + 0xC0) = 0 →
    (withOwn (u.ownStores i.cell i.slot) w (u.peek w)).tag ≠ Tag.defer → (v.storecForced i.cell).1 = false →
    v.pantryOf w = none →
    let d := (f.me i).g x.b
    let cl := v.cluster (clusterOf i.cell)
    d.tag ≠ Tag.empty → d.tag ≠ Tag.defer → (d.tag = Tag.sys → (f.me i).sup = true) →
    ((f.me i).resv ≠ some (sectorOf w) → Completes (exec (.storec i x) s) fun t =>
      (∀ g, (t.me i).g g = after [(x.d, TWord.bool false)] (v.me i).g g) ∧ (t.me i).resv = none ∧
      t.mem = v.mem ∧ t.clusters = v.clusters ∧ t.homes = v.homes) ∧
    ((f.me i).resv = some (sectorOf w) → cl.writable (sectorOf w) = true → cl.combineOf (sectorOf w) = none →
      cl.porchOf (sectorOf w) = none → (cl.sectorAt (sectorOf w)).data.length = 16 →
      Completes (exec (.storec i x) s) fun t =>
        (∀ g, (t.me i).g g = after [(x.d, TWord.bool true)] (v.me i).g g) ∧ (t.me i).resv = none ∧
        wordOf ((t.cluster (clusterOf i.cell)).sectorAt (sectorOf w)).data w = d ∧ t.mem = v.mem)

/-- The fences: those that order stores take a commit point and, once no store of the strand is left, write BOOL 1, or
BOOL 0 where one was retired as lost; those that order only loads write BOOL 1 once every load has its value; IFENCE
writes nothing. -/
def Obligations.Fences : Prop :=
  ∀ (s f : State) (i : Iss) (x : LongOp), x.legal .lr false false = true →
    let v := f.commitPoint i.cell i.slot (f.me i).pc
    (Issues s i x.len [x.d] f →
      ((f.me i).allWritten = true → f.awaitsTwin i.cell i.slot = false → v.storesOf i.cell i.slot = [] →
        v.reg (pmcCell i.cell + 0xC0) = 0 →
        ∀ r ∈ ([.fence, .fenceSL, .fenceSS] : List (Iss → LongOp → Instr)), Completes (exec (r i x) s) fun t =>
          (∀ g, (t.me i).g g = after [(x.d, TWord.bool !(f.me i).storeLost)] (f.me i).g g) ∧
          Ran v i { (v.me i) with
            pc := (f.me i).pc + BitVec.ofNat 32 x.len
            regs := (t.me i).regs
            storeLost := false } t) ∧
      ((f.me i).loadsBound = true → ∀ r ∈ ([.fenceLL, .fenceLS] : List (Iss → LongOp → Instr)),
        Completes (exec (r i x) s) (Wrote f i x.len [(x.d, TWord.bool true)]))) ∧
    (Issues s i x.len [] f → (f.me i).allWritten = true → f.awaitsTwin i.cell i.slot = false →
      v.storesOf i.cell i.slot = [] → v.reg (pmcCell i.cell + 0xC0) = 0 →
      Completes (exec (.ifence i x) s) (Wrote v i x.len []))

/-- CMAINT: CLEAN, FLUSH and ZERO of a word take a store-buffer entry; PREFETCH raises no event of translation and changes
no register and no word. A user's CMAINT is a tag event 0x03. -/
def Obligations.CacheMaintenance : Prop :=
  ∀ (s f : State) (i : Iss) (x : LongOp) (a o : Word), x.legal .lr false false = true → x.d = 0 →
    Issues s i x.len x.regs f →
    ((s.me i).sup = true → (f.me i).g x.a = ⟨Tag.ptr, a⟩ → (f.me i).g x.b = TWord.int o →
      (∀ r ∈ ([(.cmaintClean, .clean, { kind := 1, needR := true }), (.cmaintFlush, .flush, { kind := 1, needR := true }),
          (.cmaintZero, .zero, accSubStore)] : List ((Iss → LongOp → Instr) × StKind × Access)),
        ∀ (u : State) (e : TlbEnt) (w : Nat), Reaches f i (a + o) r.2.2 e w u → u.storeRoom i.cell 1 →
        Completes (exec (r.1 i x) s) (Buffered u i x.len [(r.2.1, w, 0, TWord.zero)])) ∧
      Completes (exec (.cmaintPrefetch i x) s) fun t =>
        (∀ r, (t.me i).g r = (f.me i).g r) ∧ (t.me i).pc = (f.me i).pc + BitVec.ofNat 32 x.len ∧ t.mem = f.mem ∧
        t.frames = f.frames) ∧
    ((s.me i).sup = false → ∀ r ∈ ([.cmaintClean, .cmaintFlush, .cmaintZero, .cmaintPrefetch] :
        List (Iss → LongOp → Instr)), Raises (exec (r i x) s) f i (tagEv 0x03))

/-- TLBI: once the strand's stores have gone, the entries that it names leave the TLBs of every cell and cluster, and the
strand waits until all have acknowledged; TLB_INVALIDATE_ACK lets it go on. -/
def Obligations.TlbInvalidation : Prop :=
  (∀ (s f : State) (i : Iss) (x : LongOp) (va : TWord) (n : Word), x.legal .lr false false = true → x.d = 0 →
    Issues s i x.len x.regs f → (s.me i).sup = true → (f.me i).allWritten = true →
    f.awaitsTwin i.cell i.slot = false →
    (f.commitPoint i.cell i.slot (f.me i).pc).storesOf i.cell i.slot = [] →
    let p := (f.me i).part
    let waits (gone : TlbEnt → Prop) (t : State) : Prop :=
      (t.me i).wait = .tlbi 1 ∧ (t.me i).pc = (f.me i).pc + BitVec.ofNat 32 x.len ∧ t.mem = f.mem ∧
      (∀ c, ∀ e ∈ (t.cell c).tlb, ¬gone e) ∧ ∀ g, ∀ e ∈ (t.cluster g).tlb, ¬gone e
    ((f.me i).g x.a = va → va.tag = Tag.ptr ∨ va.tag = Tag.int → (f.me i).g x.b = TWord.int n →
      n.toNat < 65536 → f.sidBoundTo (n.setWidth 16) p = true →
      Completes (exec (.tlbiVa i x) s) (waits fun e => e.covers (n.setWidth 16) p va.data = true)) ∧
    (x.a = 0 → (f.me i).g x.b = TWord.int n → n.toNat < 65536 → f.sidBoundTo (n.setWidth 16) p = true →
      Completes (exec (.tlbiSid i x) s) (waits fun e => e.part = p ∧ e.glob = false ∧ e.sid = n.setWidth 16)) ∧
    (x.a = 0 → x.b = 0 → Completes (exec (.tlbiPart i x) s) (waits fun e => e.part = p))) ∧
  ∀ (s : State) (c : CellId) (k : SlotId) (n : Nat), (s.slot c k).wait = .tlbi n → (s.slot c k).dueMc = none →
    (s.slot c k).dueDbg = none → (s.slot c k).dueTs = false → s.reg (pmcCell c + 0xC0) = 0 →
    Completes (exec (.tlbInvalidateAck c k) s)
      (Ran s { cell := c, slot := k, fetchTag := Tag.int, check := .ok } { (s.slot c k) with wait := .none })

/-! ### Contexts, work and submissions (03 R138 to R146, R164, R165; 11 R455, R476; 12 R522; 14 R600, R602) -/

/-- ALLOC and its variants that place on the own module: D receives the CTX of a new frame with the code base, the SID and,
in the forms with K, the continuation of R140, ACTIVE with COUNT 0 and every slot EMPTY; where no cell can take it, D
receives INT 0. Where the span's rotation chooses another module, the request goes there, with the continuation, and D receives
that module's answer. -/
def Obligations.Allocation : Prop :=
  ∀ (s f v : State) (i : Iss) (x : LongOp) (base h : Word), Issues s i x.len x.regs f →
    (f.me i).g x.a = ⟨Tag.code, base⟩ → badHint h = false → f.cfBefore i false = .ok v →
    v.reg (pmcCell i.cell + 0xC0) = 0 →
    let t := f.me i
    let own := frameOf t.act.ctx
    ∀ r ∈ ([(.alloc, false, false), (.allocK, false, true), (.allocX, true, false), (.allocXK, true, true)] :
        List ((Iss → LongOp → Instr) × Bool × Bool)),
      let sid := if r.2.1 then t.xsid else t.sid
      let x0 : Frame := { frame0 with sid := sid, code := base }
      let x1 : Frame := if r.2.2 then { x0 with
        contCtx := t.act.ctx
        contStmt := x.imm.setWidth 16
        contIter := t.its
        contPort := (x.imm >>> 16).setWidth 2
        contSid := t.sid } else x0
      let q := placing t.part (clusterOf i.cell) h (if sid = t.sid then some (v.frame own) else none) t.sup
      (r.2.1 = true → (s.me i).sup = true ∧ t.sup = true) →
      (if r.2.2 then x.legal .li false false = true ∧ (preImm x.pre).isSome = true ∧ x.imm.toNat < 2 ^ 18
        else x.legal .lr false false = true) →
      t.g (if r.2.2 then x.d else x.b) = TWord.int h →
      (∀ (ctx : Word) (y : State), bit h 14 = true → v.place q x1 = some (ctx, y) → ctx ≠ 0 → frameOf ctx ≠ own →
        y.reg (pmcCell i.cell + 0xC0) = 0 →
        Completes (exec (r.1 i x) s) fun z =>
          (∀ g, (z.me i).g g = after [(x.d, ⟨Tag.ctx, ctx⟩)] (v.me i).g g) ∧
          (let n := z.frame (frameOf ctx)
           n.state = stActive ∧ n.count = 0 ∧ n.sid = sid ∧ n.code = base ∧ n.slots = [] ∧ n.contCtx = x1.contCtx ∧
             n.contStmt = x1.contStmt ∧ n.contIter = x1.contIter ∧ n.contPort = x1.contPort) ∧
          ((v.frame own).ignoresCount = false →
            (z.frame own).count = (v.frame own).count + (if r.2.2 then 1 else 0)) ∧ z.mem = v.mem) ∧
      (bit h 14 = true → v.place q x1 = none → Completes (exec (r.1 i x) s) (Recorded v i x.len [(x.d, TWord.zero)])) ∧
      (bit h 14 = false → (v.part t.part).weights ≠ [] → ∀ m : BitVec 12, (v.part t.part).rotate v.hier.modn = m →
        m ≠ v.hier.modn → Completes (exec (r.1 i x) s) fun z => ∃ w : TWord,
          (w = TWord.zero ∨ w.tag = Tag.ctx ∧ ctxModule w.data = m ∧ frameOf w.data ≠ 0) ∧
          (∀ g, (z.me i).g g = after [(x.d, w)] (v.me i).g g) ∧ z.mem = v.mem ∧
          Out.placement m t.part sid base (q.hint h) x1.cont ∈ z.out)

/-- FREE: BOOL 1, and the frame is free again, where it is the strand's SID's and COMPLETE or FAILED, or persistent with
COUNT 0; else BOOL 0 and no change. g0 names the own context. A frame of another module is freed there: the request goes out,
D receives a BOOL, that module's answer (DESIGN CHOICE, assumption 128), and nothing changes here. An operand that is no CTX
raises its tag event. -/
def Obligations.Freeing : Prop :=
  ∀ (s f : State) (i : Iss) (x : LongOp), x.legal .lr false false = true → Issues s i x.len [x.d, x.a] f →
    let op := (f.me i).g x.a
    (∀ (v : State) (ctx : Word), x.a = 0 ∧ ctx = (f.me i).act.ctx ∨ x.a ≠ 0 ∧ op = ⟨Tag.ctx, ctx⟩ →
      f.cfBefore i false = .ok v → v.reg (pmcCell i.cell + 0xC0) = 0 →
      let fr := v.frame (frameOf ctx)
      let may := fr.sid = (f.me i).sid ∧ (fr.state = stComplete ∨ fr.state = stFailed ∨
        fr.persist = true ∧ (fr.state = stActive ∨ fr.state = stStalled) ∧ fr.count = 0)
      (ctxModule ctx = v.hier.modn → may → Completes (exec (.free i x) s) fun t =>
        (∀ g, (t.me i).g g = after [(x.d, TWord.bool true)] (v.me i).g g) ∧ t.frame (frameOf ctx) = frame0 ∧
        (t.ctxEnt (frameOf ctx)).valid = false ∧ (∀ n, n ≠ frameOf ctx → t.frame n = v.frame n) ∧ t.mem = v.mem) ∧
      (ctxModule ctx = v.hier.modn → ¬may → Completes (exec (.free i x) s)
        (Recorded v i x.len [(x.d, TWord.bool false)])) ∧
      (ctxModule ctx ≠ v.hier.modn → Completes (exec (.free i x) s) fun t => ∃ b : Bool,
        Recorded { v with
          out := v.out ++ [.freeFrame ctx (f.me i).sid]
          free := t.free } i x.len [(x.d, TWord.bool b)] t)) ∧
    (x.a ≠ 0 → op.tag = Tag.poison → Raises (exec (.free i x) s) f i (tagEv 0x05)) ∧
    (x.a ≠ 0 → op.tag ≠ Tag.poison → op.tag ≠ Tag.ctx → Raises (exec (.free i x) s) f i (tagEv 0x01))

/-- WORKGET takes the oldest waiting item of its queue; with none it parks, or answers INT 0 where four slots of the cell
are parked; the timeout ends a parked WORKGET with INT 0. FLDONE ends its item; FLCOMMIT takes the strand's unsealed stores
out of the store buffer; freed entries of the release store let a waiting strand go on. -/
def Obligations.Work : Prop :=
  (∀ (s f : State) (i : Iss) (x : LongOp) (n : Word), x.legal .both false false = true →
    Issues s i x.len [x.d, x.a] f → (if x.body.isLi then x.imm = n else (f.me i).g x.a = TWord.int n) →
    n.toNat < 64 → let q : BitVec 6 := n.setWidth 6
    (f.workq (f.me i).part q).bound = true → (f.workq (f.me i).part q).sid = (f.me i).sid →
    (∀ it, f.nextItem (f.me i).part q = some it → Completes (exec (.workget i x) s) fun t =>
      (∀ g, (t.me i).g g = after [(x.d, ⟨Tag.ptr, it.desc⟩)] (f.me i).g g) ∧
      t.items = f.items.map (fun y => if y.id = it.id then { y with
        taken := true
        taker := some (f.me i).act.ctx } else y) ∧ t.mem = f.mem) ∧
    (f.nextItem (f.me i).part q = none → 4 ≤ (f.cell i.cell).parked.length →
      Completes (exec (.workget i x) s) (Wrote f i x.len [(x.d, TWord.zero)])) ∧
    (f.nextItem (f.me i).part q = none → (f.cell i.cell).parked.length < 4 →
      Completes (exec (.workget i x) s) fun t =>
        (t.me i).wait = .work (f.me i).part q x.d ((f.me i).pc + BitVec.ofNat 32 x.len) ∧
        ((f.me i).state = .run → (t.me i).state = .parked) ∧
        (t.cell i.cell).parked = (f.cell i.cell).parked ++ [i.slot] ∧
        (t.workq (f.me i).part q).parked = (f.workq (f.me i).part q).parked ++ [(i.cell, i.slot)])) ∧
  (∀ (s : State) (c : CellId) (k : SlotId) (p q : BitVec 6) (d : Reg) (next : Word) (ns : Nat),
    (s.slot c k).wait = .work p q d next → s.quietNs (s.slot c k).part = some ns → (s.slot c k).dueMc = none →
    (s.slot c k).dueDbg = none → (s.slot c k).dueTs = false → s.reg (pmcCell c + 0xC0) = 0 →
    Completes (exec (.workgetTimeout c k) s) fun t =>
      (∀ g, (t.slot c k).g g = after [(d, TWord.zero)] (s.slot c k).g g) ∧ (t.slot c k).wait = .none ∧
      (t.slot c k).pc = next ∧ k ∉ (t.cell c).parked) ∧
  (∀ (s f v : State) (i : Iss) (x : LongOp) (va : Word) (it : WItem), x.legal .lr false false = true →
    Issues s i x.len [x.a] f → (f.me i).g x.a = ⟨Tag.ptr, va⟩ →
    f.itemAt (f.me i).part (f.me i).sid va = some it → it.ended = false → it.abandoned = false →
    (f.cfBefore i false = .ok v → (v.endItem it.id).reg (pmcCell i.cell + 0xC0) = 0 →
      Completes (exec (.fldone i x) s) (Recorded (v.endItem it.id) i x.len [])) ∧
    ((f.me i).allWritten = true → f.awaitsTwin i.cell i.slot = false →
      (∃ y, f.submitRelease it (.memory (f.unsealedStores i.cell i.slot)) = (.held, y) ∨
        f.submitRelease it (.memory (f.unsealedStores i.cell i.slot)) = (.passed, y)) →
      Completes (exec (.flcommit i x) s) fun t =>
        ∀ e ∈ f.unsealedStores i.cell i.slot, e ∉ (t.cell i.cell).stbuf)) ∧
  ∀ (s : State) (c : CellId) (k : SlotId) (d : Option Reg), (s.slot c k).wait = .release d → s.storeUsed < 65536 →
    Completes (exec (.releaseStoreFree c k) s)
      (fun t => t = s.setSlot c k { (s.slot c k) with wait := .none })

/-- ESUBMIT, LCOMMIT, CSTART and the two mailbox operations write their status: what is submitted when it is 0, and the
refusals that come first. -/
def Obligations.Submissions : Prop :=
  ∀ (s f v : State) (i : Iss) (x : LongOp), x.legal .lr false false = true →
    let t := f.me i
    let st (y : State) (n : Nat) : State → Prop := Recorded y i x.len [(x.d, TWord.int (BitVec.ofNat 32 n))]
    v.reg (pmcCell i.cell + 0xC0) = 0 →
    (∀ (a b : Word) (y : State) (tws : List TWord), Issues s i x.len x.regs f → t.g x.a = ⟨Tag.ptr, a⟩ →
      t.g x.b = TWord.int b → field b 10 8 < 5 → field b 31 11 = 0 → field b 7 6 = 0 → f.cfBefore i true = .ok v →
      v.readDesc t.sid a 16 = (some tws, y) → y.reg (pmcCell i.cell + 0xC0) = 0 →
      (∀ w ∈ tws, w.tag ≠ Tag.poison) →
      let k : BitVec 3 := (b >>> 8).setWidth 3
      let n : BitVec 6 := b.setWidth 6
      let sl := v.slice k n
      (sl.state = slUnbound ∨ sl.sid ≠ t.sid → Completes (exec (.esubmit i x) s) (st y 2)) ∧
      (sl.state ≠ slUnbound → sl.sid = t.sid → sl.state ≠ slActive → Completes (exec (.esubmit i x) s) (st y 3)) ∧
      (sl.state = slActive → sl.sid = t.sid → y.descMalformed k t.sid tws = false →
        y.ctrWraps t.sid (tws.map TWord.data) = false → (y.slice k n) = sl →
        (sl.queue.length < sl.depth → Completes (exec (.esubmit i x) s) fun z =>
          (∀ g, (z.me i).g g = after [(x.d, TWord.int 0)] (y.me i).g g) ∧
          (z.slice k n).queue.map (fun c => (c.desc, c.sid, c.engine)) =
            sl.queue.map (fun c => (c.desc, c.sid, c.engine)) ++ [(a, t.sid, none)]) ∧
        (sl.depth ≤ sl.queue.length → Completes (exec (.esubmit i x) s) (st y 1)))) ∧
    (∀ (va : Word) (y : State) (ws : List TWord), Issues s i x.len [x.d, x.a] f → t.g x.a = ⟨Tag.ptr, va⟩ →
      f.cfBefore i true = .ok v → v.readDesc t.sid va 12 = (some ws, y) → y.reg (pmcCell i.cell + 0xC0) = 0 →
      (∀ w ∈ ws, w.tag ≠ Tag.poison) → lcItem (ws.headD TWord.zero).data = false →
      (∀ n, y.lcommitRefused t.sid t.part va ws none = some n → Completes (exec (.lcommit i x) s) (st y n)) ∧
      (y.lcommitRefused t.sid t.part va ws none = none →
        let z := y.lcommitPass va t.sid t.part (ws.map TWord.data) 0
        z.reg (pmcCell i.cell + 0xC0) = 0 → Completes (exec (.lcommit i x) s) (st z 0))) ∧
    (∀ (a b : Word) (y : State) (n : Nat), Issues s i x.len x.regs f → (s.me i).sup = true →
      t.g x.a = ⟨Tag.ptr, a⟩ → t.g x.b = TWord.int b → f.cfBefore i true = .ok v →
      v.cstart (v.me i) a b = (.status n, y) → y.reg (pmcCell i.cell + 0xC0) = 0 →
      Completes (exec (.cstart i x) s) (st y n)) ∧
    (∀ (a va : Word), Issues s i x.len x.regs f → (s.me i).sup = true → t.g x.a = TWord.int a →
      t.g x.b = ⟨Tag.ptr, va⟩ → 31 < a.toNat → f.cfBefore i true = .ok v →
      Completes (exec (.mbxSend i x) s) (st v 4)) ∧
    (∀ (a va : Word) (u1 u2 : State) (e1 e2 : TlbEnt) (w w2 : Nat), Issues s i x.len x.regs f → (s.me i).sup = true →
      t.g x.a = TWord.int a → t.g x.b = ⟨Tag.ptr, va⟩ → a.toNat < 32 → va.toNat % 512 = 0 →
      Reaches f i va accSubLoad e1 w u1 → Reaches u1 i va accSubStore e2 w2 u2 → u2.cfBefore i true = .ok v →
      let m : BitVec 5 := a.setWidth 5
      let ws := (List.range 512).map fun n => v.peek (w + n)
      let sid := v.sidFor i.cell (v.me i) ((v.me i).windowed va accSubLoad)
      let req := (ws.map fun q => wordBytes q.data).flatten
      let r := v.mbxSubmit m (v.me i).part sid va ws
      (r.2.reg (pmcCell i.cell + 0xC0) = 0 → Completes (exec (.mbxSend i x) s) (st r.2 r.1)) ∧
      ((∀ q ∈ ws, q.tag = Tag.int) → badHeader req = false → isCancel req = false →
        (v.mbx m).servesPart (v.me i).part = true → (v.mbx m).state = mbIdle ∨ (v.mbx m).state = mbDone →
        r.1 = 0 ∧ (r.2.mbx m).state = mbQueued ∧ (r.2.mbx m).request = req.take (16 + bytesAt req 2 2))) ∧
    ∀ m : Word, Issues s i x.len [x.d, x.a] f → (s.me i).sup = true → t.g x.a = TWord.int m →
      f.cfBefore i false = .ok v → m.toNat < 32 →
      let b := v.mbx (m.setWidth 5)
      Completes (exec (.mbxPoll i x) s) (st v
        (if b.transport = some .mbx ∧ b.owner = whoSupervisor ∧ b.part = t.part then
          b.state.toNat + 4 + b.status * 65536 else 0))

/-! ### The front end of a cell (02 R36 to R79, R86, R715; 05 R206, R207) -/

/-- A token that reaches TK: one whose CHECK is wrong is rejected and changes nothing else; one within the window (or a
Control token, or one for a context without a window) is counted and joins the input queue, and is acknowledged when it is a
Single or a Control token; one whose header is not there waits for it; one for a failed context is only acknowledged, and
lowers COUNT where it answers a request. A header that comes lets its token in, and a token taken back from the overflow chain
passes TK too, unless it had passed it before. -/
def Obligations.TokensReachTk : Prop :=
  (∀ (s : State) (cell : CellId) (t : Token) (snd : Sender) (k : BitVec 4), ReachesTk s cell t snd k →
    let f := frameOf t.ctx
    let q := s.qtok t snd k
    let arrive := exec (.tokenAccept cell t snd k .direct) s
    let alone := t.port = portSingle ∨ t.port = portControl
    (goodCheck t = false → Completes arrive fun u => u.mem = s.mem ∧ u.frames = s.frames ∧ u.cells = s.cells ∧
      u.wire = (s.sendReject snd).wire ∧ u.out = (s.sendReject snd).out) ∧
    (goodCheck t = true → f ∉ (s.cell cell).hdr → (s.cell cell).movedEntry f = none → Completes arrive fun u =>
      u.cell cell = { (s.cell cell) with hdrWait := (s.cell cell).hdrWait ++ [q] } ∧ u.mem = s.mem ∧
      u.frames = s.frames ∧ u.wire = s.wire) ∧
    (goodCheck t = true → f ∈ (s.cell cell).hdr → (s.cell cell).movedEntry f = none →
      (s.frame f).refuses t = none → (s.frame f).state = stFailed → snd.id ≠ 0 → Completes arrive fun u =>
      u.cells = s.cells ∧ u.mem = s.mem ∧ u.wire = (s.sendAck snd).wire ∧
      (u.frame f).count = (s.frame f).count - (if t.flags &&& flDefr = 0 then 0 else 1) ∧
      (∀ g, g ≠ f → u.frame g = s.frame g) ∧ (t.flags &&& flDefr = 0 → u.frames = s.frames)) ∧
    (goodCheck t = true → TakesTokens s cell t → (s.frame f).window t = .takes → t.flags &&& flTrace = 0 →
      Completes arrive fun u =>
        u.cell cell = { (s.cell cell) with inq := (s.cell cell).inq ++ [q] } ∧
        (∀ c, c ≠ cell → u.cell c = s.cell c) ∧ (∀ g, g ≠ f → u.frame g = s.frame g) ∧ u.mem = s.mem ∧
        (u.frame f).count =
          (s.frame f).count + (if q.selfSent || q.report || t.flags &&& flDefr != 0 then 0 else 1) ∧
        (u.frame f).slots = (s.frame f).slots ∧ (u.frame f).state = (s.frame f).state ∧
        (alone → snd.id ≠ 0 → u.wire = (s.sendAck snd).wire) ∧ (¬alone → u.wire = s.wire))) ∧
  (∀ (s : State) (cell : CellId) (q : QTok) (rest : List QTok) (k e : Nat) (tail : List (Nat × Nat × Token)),
    (s.cell cell).ovf = q :: rest → (s.cell cell).dataQueued < 512 → (s.cell cell).stopped = false →
    s.chainList (s.partOfCell cell) (s.cell cell).ovfHead = (k, e, q.tok) :: tail → goodCheck q.tok = true →
    (s.cell cell).movedEntry (frameOf q.tok.ctx) = none → s.reg (pmcCell cell + 0xC0) = 0 →
    let go := exec (.queueRefill cell .ok) s
    let taken (u : State) : Prop := (u.cell cell).ovf = rest ∧
      (u.cell cell).ovfHead = (s.chainRemove (s.partOfCell cell) (s.cell cell).ovfHead k e).1
    (q.counted = false → frameOf q.tok.ctx ∉ (s.cell cell).hdr → Completes go fun u => taken u ∧
      (u.cell cell).hdrWait = (s.cell cell).hdrWait ++ [q] ∧ (u.cell cell).inq = (s.cell cell).inq) ∧
    (q.counted = true → Completes go fun u => taken u ∧
      (u.cell cell).inq = (s.cell cell).inq ++ [q] ∧ (u.cell cell).hdrWait = (s.cell cell).hdrWait)) ∧
  ∀ (s : State) (cell : CellId) (q : QTok), let f := frameOf q.tok.ctx
    (s.cell cell).hdrWait = [q] → f ∉ (s.cell cell).hdr → (s.cell cell).movedEntry f = none →
    (s.frame f).refuses q.tok = none → (s.frame f).state ≠ stFailed → (s.frame f).window q.tok = .takes →
    q.tok.flags &&& flTrace = 0 → q.selfSent = false → s.reg (pmcCell cell + 0xC0) = 0 →
    Completes (exec (.frameHeaderFill cell f) s) fun u => f ∈ (u.cell cell).hdr ∧ (u.cell cell).hdrWait = [] ∧
      (u.cell cell).inq = (s.cell cell).inq ++ [q] ∧
      (u.frame f).count = (s.frame f).count + (if q.report || q.tok.flags &&& flDefr != 0 then 0 else 1) ∧
      (u.frame f).total = 1 ∧ (∀ g, g ≠ f → u.frame g = s.frame g) ∧ u.mem = s.mem

/-- MT and the token at the head of its queue: a Single or Control token becomes an activity by itself; a Left or Right one
leaves with its oldest partner in the set, or takes a way of its set; one for a locked set goes to the side buffer, from
which the end of the lock takes it again. A refill puts the oldest entry of a chain back into a way of its set. -/
def Obligations.Matching : Prop :=
  (∀ (s : State) (cell : CellId) (q : QTok) (rest : List QTok), (s.cell cell).inq = q :: rest → MayMatch s cell q.tok →
    let x := s.cell cell
    let k := (msSet (s.saltOf cell) q.tok).toNat
    let m := s.msAt cell k
    let go := exec (.matchTok cell .ok) s
    let only (u : State) : Prop := (∀ c, c ≠ cell → u.cell c = s.cell c) ∧
      u = { s with
        cells := u.cells
        wire := u.wire
        out := u.out }
    let data := q.tok.port = portLeft ∨ q.tok.port = portRight
    (q.tok.port = portSingle ∨ q.tok.port = portControl → Completes go fun u => only u ∧ u.wire = s.wire ∧
      u.cell cell = { x with
        inq := rest
        ready := x.ready ++ [loneActivity q.tok] }) ∧
    (data → m.locked = true ∨ (∃ y ∈ x.side, msSet (s.saltOf cell) y.tok = msSet (s.saltOf cell) q.tok) →
      Completes go fun u => only u ∧ u.wire = s.wire ∧ u.cell cell = { x with
        inq := rest
        side := x.side ++ [q] }) ∧
    (data → m.locked = false → (∀ y ∈ x.side, msSet (s.saltOf cell) y.tok ≠ msSet (s.saltOf cell) q.tok) →
      (∀ y, m.ways.find? (partners q.tok) = some y → Completes go fun u => only u ∧ u.wire = (s.ackTok q).wire ∧
        u.cell cell = { x with
          inq := rest
          ready := x.ready ++ [pairActivity q.tok y]
          ms := Map.set ms0 x.ms k { m with ways := m.ways.erase y } }) ∧
      (m.ways.find? (partners q.tok) = none → m.ways.length < 4 → m.spill = 0 →
        Completes go fun u => only u ∧ u.wire = (s.ackTok q).wire ∧ u.cell cell = { x with
          inq := rest
          ms := Map.set ms0 x.ms k { m with ways := m.ways ++ [q.tok] } }))) ∧
  (∀ (s : State) (cell : CellId) (q : QTok) (k : Nat) (ls : List Nat), (s.cell cell).side = [q] →
    (s.cell cell).locks = k :: ls → MayMatch s cell q.tok → q.tok.port = portLeft ∨ q.tok.port = portRight →
    (msSet (s.saltOf cell) q.tok).toNat = k → (s.msAt cell k).ways.find? (partners q.tok) = none →
    (s.msAt cell k).ways.length < 4 → (s.msAt cell k).spill = 0 →
    Completes (exec (.sideBufferRelease cell .ok) s) fun u => (u.cell cell).side = [] ∧ (u.cell cell).locks = ls ∧
      u.msAt cell k = { (s.msAt cell k) with
        ways := (s.msAt cell k).ways ++ [q.tok]
        locked := false } ∧
      u.wire = (s.ackTok q).wire ∧ u.mem = s.mem ∧ u.frames = s.frames) ∧
  ∀ (s : State) (cell : CellId) (k b e : Nat) (t : Token) (tail : List (Nat × Nat × Token)),
    s.refillSet cell = some k → (s.cell cell).inq = [] →
    s.chainList (s.partOfCell cell) (s.peekData (s.spillDir (s.partOfCell cell) cell k)) = (b, e, t) :: tail →
    goodCheck t = true → (msSet (s.saltOf cell) t).toNat = k → s.reg (pmcCell cell + 0xC0) = 0 →
    Completes (exec (.refill cell .ok) s) fun u => (u.msAt cell k).ways = (s.msAt cell k).ways ++ [t] ∧
      (u.cell cell).refillPtr = BitVec.ofNat 13 (k + 1) ∧ u.frames = s.frames

/-- What comes back to a sender: a returned token's copy goes to the head of the buffer and is resent later, a rejected one
is resent at once, and an acknowledged one is freed, its sender's COUNT falls, and a context that had nothing else open
completes. -/
def Obligations.RetainedCopies : Prop :=
  ∀ (s : State) (x : Sender) (r : Retained), s.copy x = some r →
    (.returnedTokenReceive x ∈ s.wire → exec (.returnedTokenReceive x) s =
      .next { s.came (.returnedTokenReceive x) with
        retained := { r with state := .returned } :: s.retained.filter (fun y => y.snd != x) }) ∧
    (r.state = .returned → Completes (exec (.tokenResend x) s) fun u =>
      u.copy x = some { r with state := .flight } ∧ (∀ y, y ≠ x → u.copy y = s.copy y) ∧
      (ctxModule r.tok.ctx = s.hier.modn → u = { s with retained := u.retained }) ∧
      (ctxModule r.tok.ctx ≠ s.hier.modn → u = { s with
        retained := u.retained
        out := s.out ++ [.token x r.tok] })) ∧
    (.retransmissionRequest x ∈ s.wire → r.fails < 3 → Completes (exec (.retransmissionRequest x) s) fun u =>
      u.copy x = some { r with
        state := .flight
        fails := r.fails + 1 } ∧
      (∀ y, y ≠ x → u.copy y = s.copy y) ∧ u.mem = s.mem ∧ u.frames = s.frames) ∧
    (.ackReceive x ∈ s.wire → Completes (exec (.ackReceive x) s) fun u =>
      (x.id < s.ids → u.copy x = none) ∧ u.mem = s.mem ∧ u.slots = s.slots ∧
      (∀ c, u.cell c = { (s.cell c) with fwd := (u.cell c).fwd }) ∧
      (r.ctx = none → u.frames = s.frames ∧ u.retained = s.retained.filter (fun y => y.snd != x)) ∧
      ∀ c, r.ctx = some c → let f := frameOf c
        (∀ g, g ≠ f → u.frame g = s.frame g) ∧
        ((s.frame f).ignoresCount = true → u.frame f = s.frame f) ∧
        ((s.frame f).ignoresCount = false → (s.frame f).count ≠ 1 →
          u.frame f = { (s.frame f) with count := (s.frame f).count - 1 }) ∧
        ((s.frame f).state = stActive ∨ (s.frame f).state = stStalled → (s.frame f).count = 1 →
          (s.frame f).persist = false → (s.frame f).committed = true → isNullCtx (s.frame f).contCtx = true →
          u.frame f = { (s.frame f) with
            count := 0
            state := stComplete }))

/-- The window, the quiet time and the reports: a held token that the window admits goes to the input queue; a quiet context
is STALLED and scanned; its record names it, its COUNT and its open requests, and is counted; a waiting record is written when the ring has room; a full
matching store narrows the windows and an empty one widens them; and a deferred request is sent again. -/
def Obligations.HeldAndStalled : Prop :=
  (∀ (s : State) (cell : CellId) (f : BitVec 20) (b e : Nat) (t : Token), s.cellOf f = cell →
    (s.frame f).state ≠ stFree → (s.frame f).holdHead ≠ 0 →
    s.chainList (s.frame f).part (s.frame f).holdHead = [(b, e, t)] → (s.frame f).letsGo t = true →
    s.wouldStick cell (s.frame f).part t = false → (s.cell cell).dataQueued < 960 → (s.cell cell).ovf = [] →
    (s.cell cell).queued.length < 1024 →
    Completes (exec (.heldReleaseRetry cell f) s) fun u =>
      (u.cell cell).inq = (s.cell cell).inq ++ [⟨t, ⟨.cell cell, 0⟩, clusterOf cell, false, false, true⟩] ∧
      (u.frame f).holdHead = (s.chainRemove (s.frame f).part (s.frame f).holdHead b e).1 ∧
      (u.frame f).count = (s.frame f).count ∧ ∀ g, g ≠ f → u.frame g = s.frame g) ∧
  (∀ (s : State) (cell : CellId) (f : BitVec 20) (ns : Nat), s.quietNs (s.frame f).part = some ns → s.cellOf f = cell →
    (s.cell cell).draining = false → s.haltedOn cell f = false → (s.frame f).state = stActive → (s.frame f).count ≠ 0 →
    ns ≤ (s.now - (s.frame f).lastCommit).toNat →
    Completes (exec (.stallDetect cell f) s) fun u => u.frame f = { (s.frame f) with state := stStalled } ∧
      (∀ g, g ≠ f → u.frame g = s.frame g) ∧
      u.cell cell = { (s.cell cell) with scans := (s.cell cell).scans ++ [(f, s.now)] } ∧
      u = { s with
        frames := u.frames
        cells := u.cells }) ∧
  (∀ (s : State) (cell : CellId) (f : BitVec 20) (at_ : BitVec 64),
    (s.cell cell).scans.find? (fun e => e.1 == f) = some (f, at_) →
    let y := (s.modCell cell fun c => { c with scans := c.scans.erase (f, at_) }).bump (clcCell cell 0x980)
    ∃ r : Report, r.typ = 1 ∧ r.ctx = (s.frame f).ctx ∧ r.sid = (s.frame f).sid ∧ r.count = (s.frame f).count ∧
      r.cell = cell.setWidth 16 ∧ r.time = some at_ ∧ r.inStore = ((s.cell cell).waiting f).length ∧
      r.inCellar = (s.inCellar cell f).length ∧ r.requests = s.requestsOf (s.frame f) ∧
      r.held = (s.chainList (s.frame f).part (s.frame f).holdHead).length ∧ r.entries.length ≤ 12 ∧
      (r.words at_).length = 32 ∧
      exec (.stallScanDone cell f) s = .next (y.reportRecord (.cell cell) (s.frame f).part r)) ∧
  (∀ (s y : State) (w : Who) (r : WaitRec), w ≠ .threshold 5 → s.waitRecs = [(w, r)] →
    s.ringWrite w r.part r.words = some y →
    exec (.ringRecheck w r.part) s = .next { y with waitRecs := y.waitRecs.erase (w, r) }) ∧
  (∀ (s : State) (cell : CellId), let b := clcBase (clusterOf cell).toNat
    let occ := (s.cell cell).occupancy
    bit (s.reg (b + 0x800)) 16 = true → (s.framesOn cell).Nodup → (∀ f ∈ s.framesOn cell, (s.frame f).holdHead = 0) →
    Completes (exec (.windowAdaptSample cell) s) fun u =>
      (s.regField (b + 0x804) 13 8 * 512 ≤ occ → (u.cell cell).narrowed = true ∧
        ∀ f ∈ s.framesOn cell, (s.frame f).win ≠ 0 → u.frame f = { (s.frame f) with
          weff := BitVec.ofNat 10 (max (max 1 ((s.frame f).win.toNat / 2 ^ s.regField (b + 0x804) 27 24))
            ((s.frame f).weff.toNat / 2)) }) ∧
      (occ < s.regField (b + 0x804) 13 8 * 512 → (u.cell cell).narrowed = false) ∧
      (occ < s.regField (b + 0x804) 13 8 * 512 → occ < s.regField (b + 0x804) 5 0 * 512 →
        ∀ f ∈ s.framesOn cell, (s.frame f).win ≠ 0 → u.frame f = { (s.frame f) with
          weff := BitVec.ofNat 10 (min (s.frame f).win.toNat ((s.frame f).weff.toNat * 2)) }) ∧
      (∀ f, f ∉ s.framesOn cell ∨ (s.frame f).win = 0 → u.frame f = s.frame f) ∧ u = { s with
        frames := u.frames
        cells := u.cells }) ∧
  ∀ (s : State) (cell : CellId) (n : Nat) (r : Request),
    (s.cell cell).reqs.find? (fun y => y.id == n && y.reissue) = some r → r.fetch = true →
    s.isOwn (sectorOf r.addr * 16) = true →
    Completes (exec (.ifetchReissue cell n) s) fun u =>
      u.wire = s.wire ++ [.hop (homeOf r.homing r.addr) (s.agentOf (clusterOf cell)) r.addr
        (.ifetch cell r.id r.part r.va r.resp)] ∧
      (u.cell cell).reqs = (s.cell cell).reqs.map (fun y => if y.id = n then { y with reissue := false } else y) ∧
      u = { s with
        cells := u.cells
        wire := u.wire }

/-! ### The life of a strand slot (05 R208 to R215, R224; 02 R49, R50, R72; 03 R100 to R103) -/

/-- SA gives the next activity to a free slot, whose strand begins at its statement's entry word with its operands in g1 and
g2; a commit sends the firing's tokens in order, takes its operands and adds its items in COUNT, and leaves the slot idle;
and a due time slice enters the handler of cause 6, or waits. -/
def Obligations.StrandLife : Prop :=
  (∀ (s y1 y2 y3 : State) (c : CellId) (k : SlotId) (a : Activity) (e0 e1 e2 : TlbEnt) (w0 w1 w2 : Nat) (start : Word),
    let fr := s.frame (frameOf a.ctx)
    let ea := fr.code + 1 + a.stmt.setWidth 32
    let y0 := (s.modCell c fun x => { x with ready := x.ready.erase a }).setSlot c k { slot0 with
      state := .entry
      act := a
      sid := fr.sid
      part := fr.part
      regs := Map.set TWord.zero (Map.set TWord.zero [] 1 a.g1) 2 a.g2
      its := a.iter
      xsid := fr.sid
      stepping := (s.slot c k).stepping
      dueDbg := (s.slot c k).dueDbg }
    s.saStopped c = false → s.nextActivity c = some a → s.freeSlot c = some k → fr.state ≠ stFailed → fr.state ≠ stFree →
    y0.entryXlate c k fr.code = (.ok e0 w0, y1) → (y1.peek w0).tag = Tag.int →
    a.stmt.toNat ≤ ((y1.peek w0).data.setWidth 16 : BitVec 16).toNat →
    y1.entryXlate c k ea = (.ok e1 w1, y2) → y2.peek w1 = ⟨Tag.code, start⟩ →
    y2.entryXlate c k start = (.ok e2 w2, y3) → s.dbg.tbreaks = [] → (s.storesOf c k) = [] →
    Completes (exec (.slotAssign c .ok) s) fun u => let t := u.slot c k
      t.state = .run ∧ t.pc = start ∧ t.sup = !e2.u ∧ t.fpc = ((y1.peek w0).data >>> 16).setWidth 8 ∧ t.act = a ∧
      t.sid = fr.sid ∧ t.its = a.iter ∧ t.xsid = fr.sid ∧ t.fpf = 0 ∧
      (∀ r, t.g r = if r = 1 then a.g1 else if r = 2 then a.g2 else TWord.zero) ∧
      (u.cell c).ready = (s.cell c).ready.erase a ∧ u.frames = s.frames ∧ u.mem = s.mem) ∧
  (∀ (s : State) (c : CellId) (k : SlotId) (ts : List Token), let t := s.slot c k
    let f := frameOf t.act.ctx
    t.state = .commit → t.halted = none → t.lost = false → t.wait = .none → t.allWritten = true → t.retries = 0 →
    t.stepping ≠ 2 → t.dueDbg = none → t.wins = [] → t.sends = ts.map Item.token → s.awaitsTwin c k = false →
    s.storesOf c k = [] → s.outqUsed c + ts.length ≤ 256 → (s.frame f).ignoresCount = false →
    (s.frame f).count + BitVec.ofNat 32 ts.length - BitVec.ofNat 32 t.act.used ≠ 0 → s.reg (pmcCell c + 0xC0) = 0 →
    Completes (exec (.firingCommit c k .ok) s) fun u => u.slot c k = slot0 ∧
      (∀ d j, d ≠ c ∨ j ≠ k → u.slot d j = s.slot d j) ∧
      u.retained.map Retained.tok = s.retained.map Retained.tok ++ ts ∧
      (∀ r ∈ u.retained.drop s.retained.length, r.snd.who = .cell c ∧ r.ctx = some t.act.ctx ∧ r.state = .flight) ∧
      u.frame f = { (s.frame f) with
        count := (s.frame f).count + BitVec.ofNat 32 ts.length - BitVec.ofNat 32 t.act.used
        due := false
        committed := true
        lastCommit := s.now
        saved := if (s.frame f).saved = stStalled then stActive else (s.frame f).saved
        state := if (s.frame f).state = stStalled then stActive else (s.frame f).state } ∧
      (∀ g, g ≠ f → u.frame g = s.frame g) ∧ u.mem = s.mem) ∧
  ∀ (s : State) (c : CellId) (k : SlotId), Calm s c k → (s.slot c k).wait = .none → (s.slot c k).iter = none →
    ((s.slot c k).noSlice = false → Completes (exec (.timeSliceExpiry c k .ok) s) fun u =>
      Handles s c k { cause := 6, info := 0 } (s.slot c k).pc u ∧ (u.slot c k).dueTs = false ∧ u.mem = s.mem ∧
      u.frames = s.frames ∧ ∀ d j, d ≠ c ∨ j ≠ k → u.slot d j = s.slot d j) ∧
    ((s.slot c k).noSlice = true →
      exec (.timeSliceExpiry c k .ok) s = .next (s.setSlot c k { (s.slot c k) with dueTs := true }))

/-! ### Loads and stores on their way (05 R214; 09 R370 to R372, R382, R404; 10 R437, R443, R445, R446) -/

/-- A load's word is written to its register when it has come; a drained store changes its word in a sector that its cluster
may write, or leaves for its home; a performed store leaves the buffer; a device takes a store after those that come before
it; a lost one is remembered; and a reservation's hold ends. -/
def Obligations.LoadsAndDrains : Prop :=
  (∀ (s : State) (c : CellId) (k : SlotId) (r : Reg) (l : PLoad) (w : Nat) (v : TWord), let t := s.slot c k
    t.loads.find? (fun y => y.reg == r && !y.unbound && y.reserve.isNone) = some l → l.parts = [(w, some v)] →
    let got : TWord := if v.tag = Tag.empty ∨ v.tag = Tag.defer then TWord.empty else v
    let rest := t.loads.filter fun y => y.reg != r
    (l.form = .word → (∀ n, t.wait ≠ .load n) → Completes (exec (.loadDataReturn c k r .ok) s) fun u =>
      (∀ g, (u.slot c k).g g = after [(r, got)] t.g g) ∧ u = s.setSlot c k { t with
        loads := rest
        regs := (u.slot c k).regs
        wait := t.wait.hasOperand }) ∧
    (∀ (o : BitVec 2) (n : Nat) (sg : Bool) (next : Word), l.form = .sub o n sg → t.wait = .load next → Calm s c k →
      t.stepping = 0 → t.iter = none →
      (v.tag = Tag.int → Completes (exec (.loadDataReturn c k r .ok) s) fun u =>
        (∀ g, (u.slot c k).g g = after [(r, TWord.int (extendBytes n sg (v.data >>> (8 * o.toNat))))] t.g g) ∧
        (u.slot c k).pc = next ∧ (u.slot c k).wait = .none ∧ (u.slot c k).loads = rest ∧ u.mem = s.mem) ∧
      (v.tag ≠ Tag.int → v.tag ≠ Tag.empty → v.tag ≠ Tag.defer →
        Completes (exec (.loadDataReturn c k r .ok) s) (Handles s c k (tagEv 0x0A) t.pc)))) ∧
  (∀ (s : State) (c : CellId) (e : StEnt), let g := clusterOf c
    let sec := sectorOf e.addr
    let x := (s.cluster g).sectorAt sec
    (s.cell c).stbuf.find? (fun y => y.isSealed && !y.sent) = some e →
    (s.cell c).stbuf.filter (fun y => y.sent && !y.performed && y.kind != .side) = [] →
    s.pantryOf e.addr = none → (e.kind = .word ∨ e.kind = .sub) →
    (e.cacheable = true → (s.cluster g).writable sec = true → (s.cluster g).porchOf sec = none →
      (s.cluster g).combineOf sec = none → (s.peek e.addr).tag ≠ Tag.defer →
      Completes (exec (.storeDrain c) s) fun u =>
        ((u.cluster g).sectorAt sec).data =
          x.data.set (e.addr % 16) (storedWord e.kind e.mask e.val (x.data.getD (e.addr % 16) TWord.empty)) ∧
        ((u.cluster g).sectorAt sec).dirty = true ∧
        (u.cell c).stbuf = (s.cell c).stbuf.map (fun y => if y.id = e.id then { y with
          sent := true
          performed := true } else y) ∧
        u.mem = s.mem ∧ u.frames = s.frames ∧ u.homes = s.homes) ∧
    (e.cacheable = false → s.isOwn (sec * 16) = true → Completes (exec (.storeDrain c) s) fun u =>
      u.wire = s.wire ++ [.hop e.home (s.agentOf g) e.addr
        (.store c e.id (s.partOfCell c) (if e.kind = .word then 15 else e.mask) e.val)] ∧
      (u.cell c).stbuf = (s.cell c).stbuf.map (fun y => if y.id = e.id then { y with sent := true } else y) ∧
      u = { s with
        cells := u.cells
        wire := u.wire })) ∧
  (∀ (s : State) (c : CellId) (n : Nat), let gone := s.setCell c { (s.cell c) with
      stbuf := (s.cell c).stbuf.filter fun e => e.id != n }
    ((s.cell c).stbuf.any (fun e => e.id == n && e.performed) = true → exec (.storeAck c n) s = .next gone) ∧
    (∀ e r, (s.cell c).stbuf.find? (fun e => e.id == n && e.kind == .side) = some e →
      regSpec (windowAddr e.addr) = some r → plainReg (windowAddr e.addr) →
      mayWrite (.strand c) (windowAddr e.addr) = true →
      (∀ y ∈ (s.cell c).stbuf.takeWhile (fun y => y.id != n), y.leads e.slot e.addr = false) →
      Completes (exec (.sideEffectStoreAck c n) s) fun u => u.cell c = gone.cell c ∧
        u.reg (windowAddr e.addr) = regWritten r (s.locked r) (s.reg (windowAddr e.addr)) e.val.data ∧
        u = { s with
          cells := u.cells
          regs := u.regs }) ∧
    (∀ e, (s.cell c).stbuf.find? (fun e => e.id == n && e.sent && !e.performed) = some e → e.kind = .side →
      Completes (exec (.storeLost c n) s) fun u => u.cell c = gone.cell c ∧ u.mem = s.mem ∧ u.frames = s.frames ∧
        (e.ended = false → u.slot c e.slot = { (s.slot c e.slot) with storeLost := true }) ∧
        (e.ended = true → u.slots = s.slots) ∧
        u.reg (dirBase (clusterOf c).toNat + 0x3C) =
          BitVec.ofNat 32 (min 0xFFFFFFFF ((s.reg (dirBase (clusterOf c).toNat + 0x3C)).toNat + 1)))) ∧
  ∀ (s : State) (c : CellId) (k : SlotId), (s.slot c k).holdProbes = true →
    exec (.reservationHoldEnd c k) s = .next ((s.setCluster (clusterOf c) { (s.cluster (clusterOf c)) with
      turn := strandNo c k }).setSlot c k { (s.slot c k) with holdProbes := false })

/-! ### Walks (08 R326, R334, R340 to R344) -/

/-- A walk's reads, each of a sector that the cluster holds or that a fill has brought: the space's root, the two stage-2 reads
of each address, the stage-1 entries; a root that the cluster keeps takes no read; a page found is installed in both TLBs and the
strand goes on; a read that finds no binding, and an entry torn too often, are translation faults; a missing stage-2 entry waits
for Benus, while it runs: a block that it maps restarts the walk, and its refusal, or silence, is a fault with level 4 and code
0x0D. -/
def Obligations.Walks : Prop :=
  ∀ (s : State) (c : CellId) (k : SlotId) (w : Walk), (s.slot c k).walk = some w → Calm s c k →
    let g := clusterOf c
    let p := (s.slot c k).part
    let held (v : Walk) : Prop := let word := (s.walkWord c k v).1
      (∃ d, v.got = some (sectorOf word, d)) ∨ v.got = none ∧ s.pantryOf word = none ∧
        (s.cluster g).porchOf (sectorOf word) = none ∧ ((s.cluster g).sectorAt (sectorOf word)).st ≠ 0
    let entry (n word : Nat) : S1Read := s1Words n (w.entryWords s word).1 (w.entryWords s word).2
    let read := exec (.walkTableRead c k .ok) s
    let goes (o : Outcome) (v : Walk) : Prop := Completes o fun u => u.slot c k = { (s.slot c k) with walk := some v } ∧
      u.mem = s.mem ∧ u.frames = s.frames ∧ ∀ d j, d ≠ c ∨ j ≠ k → u.slot d j = s.slot d j
    let faults (o : Outcome) (level : BitVec 4) (code : Byte) : Prop :=
      Completes o (Handles s c k (faultEv w.window level w.kind code w.va) (s.slot c k).pc)
    let none2 (pa : Nat) : Prop := (s.cluster g).tlb2.find? (fun e => e.part == p && e.pblk == pa / 2 ^ 21) = none
    (w.torn = false → w.suspended = false →
      (∀ root t, w.stage = .space → (s.cluster g).roots.find? (fun r => r.1 == w.sid) = some (w.sid, root, p) →
        let pa := root + 8 * (w.va.toNat / 2 ^ 19)
        let v := { w with stage := .s2root pa (.level 2) }
        none2 pa → held v → s2Table (s.peek64 (s.s2RootAt p pa)) = some t → goes read { v with
          stage := .s2leaf pa t (.level 2) })) ∧
    (w.torn = false → w.suspended = false → held w →
      (w.stage = .space → (s.cluster g).roots.find? (fun r => r.1 == w.sid) = none →
        (s.spaceEntry w.sid = none → faults read 1 0x0E) ∧
        (∀ root q, s.spaceEntry w.sid = some (root, q) → q ≠ p → faults read 1 0x0E) ∧
        ∀ root, s.spaceEntry w.sid = some (root, p) → none2 (root + 8 * (w.va.toNat / 2 ^ 19)) →
          goes read { w with stage := .s2root (root + 8 * (w.va.toNat / 2 ^ 19)) (.level 2) }) ∧
      (∀ pa goal, w.stage = .s2root pa goal →
        (∀ t, s2Table (s.peek64 (s.s2RootAt p pa)) = some t → goes read { w with stage := .s2leaf pa t goal }) ∧
        (s2Table (s.peek64 (s.s2RootAt p pa)) = none → goes read { w with suspended := true })) ∧
      (∀ pa t goal, w.stage = .s2leaf pa t goal →
        (s.s2Leaf p (s.peek64 (s2LeafAt t pa)) = none → goes read { w with suspended := true }) ∧
        (∀ l n, s.s2Leaf p (s.peek64 (s2LeafAt t pa)) = some l → goal = .level n →
          (l.dev = false → goes read { w with
            stage := .s1 n (l.word pa) l.homing
            tries := 0 }) ∧
          (l.dev = true → faults read (BitVec.ofNat 4 n) 0x0C)) ∧
        (∀ l, s.s2Leaf p (s.peek64 (s2LeafAt t pa)) = some l → goal = .final → Completes read fun u =>
          let e := tlbEntry w.sid p w.va (w.leaf.getD 0) w.big l
          e ∈ (u.cell c).tlb ∧ e ∈ (u.cluster g).tlb ∧ (u.slot c k) = { (s.slot c k) with
            walk := none
            wait := .none })) ∧
      (∀ n word h, w.stage = .s1 n word h →
        (∀ code, entry n word = .fault code → faults read (BitVec.ofNat 4 n) code) ∧
        (entry n word = .torn → goes read { w with
          torn := true
          tries := 0
          got := none }) ∧
        (∀ e, entry n word = .entry e →
          (e.getLsbD 1 = false → none2 (level2At e w.va) → goes read { w with
            tries := 0
            got := none
            stage := .s2root (level2At e w.va) (.level 3) }) ∧
          (e.getLsbD 1 = true → none2 (leafPa e (n == 2) w.va) → goes read { w with
            tries := 0
            got := none
            leaf := some e
            big := n == 2
            stage := .s2root (leafPa e (n == 2) w.va) .final })))) ∧
    (∀ n word h, w.torn = true → w.stage = .s1 n word h → entry n word = .torn →
      let most := s.regField (trnOf c) 7 4 + 1
      (w.tries + 1 < most → goes (exec (.tornReread c k) s) { w with
        tries := w.tries + 1
        got := none }) ∧
      (most ≤ w.tries + 1 → faults (exec (.tornReread c k) s) (BitVec.ofNat 4 n) 0x0B)) ∧
    (w.suspended = true → faults (exec (.stage2Timeout c k) s) 4 0x0D ∧
      ∀ pa, w.asks = some pa → s.ben.running = true →
        let again : Walk := { w with
          stage := .space
          leaf := none
          big := false
          tries := 0
          torn := false
          suspended := false
          got := none }
        ((s.stage2 p pa).isSome = true → goes (exec (.stage2Answer c k true) s) again) ∧
        (s.stage2 p pa = none → ∀ y, s.mapBlock p pa = some y →
          exec (.stage2Answer c k true) s = .next (y.setSlot c k { (y.slot c k) with walk := some again })) ∧
        (s.stage2 p pa = none → s.mapBlock p pa = none → faults (exec (.stage2Answer c k false) s) 4 0x0D))

/-! ### Cluster caches, homes and probes (09 R380 to R396; 10 R419 to R436) -/

/-- A fill's beats, its installation, write-backs and the Pantry's copies: each load gets its word with its own stores over
it; the sector is installed with the grant's state and the grant is acknowledged; the oldest waiting Porch entry leaves, and
its acknowledgement frees it; a Pantry pair takes its block's words from memory and gives them back. -/
def Obligations.ClusterCaches : Prop :=
  ∀ (s : State) (g : BitVec 4),
    (∀ (sec : Nat) (m : Miss) (c : CellId) (k : SlotId) (r : Reg) (w : Nat) (l : PLoad), (s.cluster g).missOf sec = some m →
      m.granted.isSome = true → m.beats < 4 → (s.cluster g).combineOf sec = none → m.reqs = [.load c k r w] →
      w % 16 / 4 = (m.firstBeat + m.beats) % 4 → (s.slot c k).loads = [l] → l.reg = r → l.parts = [(w, none)] →
      Completes (exec (.sectorBeat g sec) s) fun u =>
        (u.cluster g).missOf sec = some { m with beats := m.beats + 1 } ∧
        u.slot c k = { (s.slot c k) with
          loads := [{ l with parts := [(w, some (withOwn l.own w (m.data.getD (w % 16) TWord.empty)))] }] } ∧
        (∀ d j, d ≠ c ∨ j ≠ k → u.slot d j = s.slot d j) ∧ u = { s with
          clusters := u.clusters
          slots := u.slots }) ∧
    (∀ (sec : Nat) (m : Miss) (st : BitVec 2), (s.cluster g).missOf sec = some m → m.granted = some st → m.beats = 4 →
      m.sector = sec → m.doomed = false → s.pantryOf (sec * 16) = none → s.redirect (sec * 16) = sec * 16 →
      (s.cluster g).combineOf sec = none → (∀ q ∈ m.reqs, ∃ c n, q = .store c n) → st ≠ 0 →
      ((s.cluster g).findWay (sec / 4)).isSome = true → s.isOwn (sec * 16) = true →
      Completes (exec (.sectorInstall g sec) s) fun u =>
        (u.cluster g).sectorAt sec = { st := st, dirty := false, data := m.data } ∧ (u.cluster g).missOf sec = none ∧
        u.wire = s.wire ++ [.done m.home (s.agentOf g) sec] ∧ u = { s with
          clusters := u.clusters
          wire := u.wire }) ∧
    (∀ q, (s.cluster g).porch.find? (fun q => q.state == .waiting) = some q → s.isOwn (q.block * 64) = true →
      Completes (exec (.porchWritebackSend g) s) fun u =>
        u.wire = s.wire ++
          [.wb q.home (s.agentOf g) q.block (q.sectors.map fun e => (BitVec.ofNat 2 e.1, e.2.data))] ∧
        (u.cluster g).porch = (s.cluster g).porch.map (fun y => if y = q then { y with state := .sent } else y) ∧
        u = { s with
          clusters := u.clusters
          wire := u.wire
          regs := u.regs }) ∧
    (∀ (a : Agent) (blk : Nat), agentCluster a = g → s.isOwn (blk * 64) = true → .wbAck a blk ∈ s.wire →
      Completes (exec (.wbAck a blk) s) fun u =>
        (u.cluster g).porch = (s.cluster g).porch.filter (fun q => !(q.state == .sent && q.block == blk)) ∧
        u.wire = s.wire.erase (.wbAck a blk) ∧ u = { s with
          clusters := u.clusters
          wire := u.wire }) ∧
    (∀ (j : BitVec 2) (n : Nat) (v : TWord), let b := s.pairBlock g j
      (s.pair4 g j).mailbox = none → s.blockQuiet b = true →
      ((s.pair4 g j).step = 2 → (s.recallBlock b).memOk → (n, v) ∈ (s.recallBlock b).mem → n / 2 ^ 19 = b →
        Completes (exec (.pantryCopyDone g j) s) fun u => Map.get TWord.empty (u.cluster g).pantry n = v ∧
          bit (u.reg (pantryReg g j.toNat)) 31 = true ∧ (u.pair4 g j).step = 0 ∧
          ∀ h, b ∉ (u.home h).pantryHold) ∧
      ((s.pair4 g j).step = 3 → (s.pair4 g j).wasFixed = true → Memory.wf (s.cluster g).pantry = true →
        (n, v) ∈ (s.cluster g).pantry → n / 2 ^ 19 = b →
        Completes (exec (.pantryWritebackDone g j) s) fun u => Map.get TWord.empty u.mem n = v ∧
          bit (u.reg (pantryReg g j.toNat)) 31 = false ∧ (u.pair4 g j).step = 0 ∧
          (∀ e ∈ (u.cluster g).pantry, e.1 / 2 ^ 19 ≠ b) ∧
          ∀ h, b ∉ (u.home h).pantryHold ∧ ∀ e ∈ (u.home h).pantryMap, e.1 ≠ b))

/-- Requests at their home: a sector that no other agent holds in X is granted at once with memory's words, and the directory
names the agent; one that another agent owns is probed there first; an upgrade of a held copy is granted without data; a
write-back reaches memory and is acknowledged; and an operation on an uncached word is performed there. -/
def Obligations.HomeRequests : Prop :=
  ∀ (s : State) (h : BitVec 4) (a : Agent) (sec : Nat),
    (∀ (k : Nat) (e : DirEnt), s.entryAt h (sec / 4) k e →
      let i := sec % 4
      let own := e.ownerOf i
      let granted (c msg : Instr) (st : BitVec 2) : Prop := Completes (exec c s) fun u =>
        u.wire = s.wire.erase c ++ [msg] ∧ ((u.home h).ent k).state i = st ∧ u.opened h (sec / 4) c [] true ∧
        HomeOnly s u h ∧ ((u.home h).ent k).pin = true ∧ (st = 1 → a ∈ ((u.home h).ent k).sharers) ∧
        (st = 2 → ((u.home h).ent k).ownerOf i = a)
      let asks (c msg : Instr) (o : Agent) : Prop := Completes (exec c s) fun u =>
        u.wire = s.wire.erase c ++ [msg] ∧ u.opened h (sec / 4) c [(o, sec)] false ∧ HomeOnly s u h ∧
        (u.home h).ent k = { e with pin := true }
      (AtHome s h (.rdS h a sec .ok) →
        (e.state i ≠ 2 ∨ own = a → granted (.rdS h a sec .ok) (.dataS a sec (s.dramSector sec)) 1) ∧
        (e.state i = 2 → own ≠ a → s.isOwnAgent own = true → asks (.rdS h a sec .ok) (.prbS own sec) own)) ∧
      (AtHome s h (.rdX h a sec .ok) →
        (e.state i = 0 ∨ e.state i = 1 ∧ e.sharers = [a] ∨ e.state i = 2 ∧ own = a →
          granted (.rdX h a sec .ok) (.dataX a sec (s.dramSector sec)) 2) ∧
        (∀ o, o ≠ a → s.isOwnAgent o = true →
          (e.state i = 2 ∧ own = o ∨ e.state i = 1 ∧ e.sharers.filter (· != a) = [o]) →
          asks (.rdX h a sec .ok) (.prbI o sec) o)) ∧
      (AtHome s h (.upg h a sec) → e.state i = 1 → a ∈ e.sharers →
        (e.sharers.filter (· != a) = [] → granted (.upg h a sec) (.grantX a sec) 2) ∧
        (∀ o, s.isOwnAgent o = true → e.sharers.filter (· != a) = [o] → asks (.upg h a sec) (.prbI o sec) o)) ∧
      (AtHome s h (.zeroX h a sec) →
        (e.state i = 0 → granted (.zeroX h a sec) (.grantX a sec) 2) ∧
        (e.state i = 2 → own ≠ a → s.isOwnAgent own = true → asks (.zeroX h a sec) (.prbI own sec) own))) ∧
    (∀ (w : Nat), sectorOf w = sec → (s.home h).findEnt h (sec / 4) = none →
      (∀ c n, AtHome s h (.hop h a w (.ldp c n)) → Completes (exec (.hop h a w (.ldp c n)) s) fun u =>
        u.wire = s.wire.erase (.hop h a w (.ldp c n)) ++ [.hopAck a w (.ldp c n) (s.peek w) true] ∧ HomeOnly s u h) ∧
      (∀ c k p v, AtHome s h (.hop h a w (.istore c k p v)) → (s.peek w).tag ≠ Tag.empty → (s.peek w).tag ≠ Tag.defer →
        Completes (exec (.hop h a w (.istore c k p v)) s) fun u =>
          u.wire = s.wire.erase (.hop h a w (.istore c k p v)) ++ [.hopAck a w (.istore c k p v) TWord.empty false] ∧
          HomeOnly s u h) ∧
      (∀ c k p v, AtHome s h (.hop h a w (.istore c k p v)) → (s.peek w).tag = Tag.empty → s.pantryOf w = none →
        s.redirect w = w → (∀ x, (s.cluster x).holds sec = false) → (∀ x, (s.cluster x).missOf sec = none) →
        Completes (exec (.hop h a w (.istore c k p v)) s) fun u => u.dram w = v ∧
          (∀ y, localWord y ≠ localWord w → u.dram y = s.dram y) ∧ u.slots = s.slots ∧ u.cells = s.cells ∧
          u.wire = s.wire.erase (.hop h a w (.istore c k p v)) ++ [.hopAck a w (.istore c k p v) TWord.empty true])) ∧
    ∀ (d : List TWord), let c := Instr.wb h a (sec / 4) [(BitVec.ofNat 2 (sec % 4), d)]
      c ∈ s.wire → s.isOwn (sec / 4 * 64) = true → s.isOwnAgent a = true → s.agentDead h a = false →
      s.wbCounts h a sec = true → (∀ e ∈ (s.home h).pantryMap, e.1 ≠ bigBlock (sec * 16)) →
      (s.home h).transOf (sec / 4) = none →
      Completes (exec c s) fun u => (∀ j, j < 16 → u.dram (sec * 16 + j) = d.getD j TWord.empty) ∧
        (∀ y, (∀ j, j < 16 → localWord y ≠ localWord (sec * 16 + j)) → u.dram y = s.dram y) ∧
        u.wire = s.wire.erase c ++ [.wbAck a (sec / 4)] ∧ u.clusters = s.clusters ∧ u.slots = s.slots ∧
        (∀ k e, s.entryAt h (sec / 4) k e → e.state (sec % 4) = 2 → e.ownerOf (sec % 4) = a →
          ((u.home h).ent k).state (sec % 4) = 0)

/-- Probes, grants and their ends: a holder answers with its dirty data, which memory takes too, and keeps a shared copy or
none; a grant fills the miss entry that waits for it; a refused request is reissued; the last answer lets the grant leave, and
the requester's DONE closes the transaction; what a home performed comes back to the cell that asked. A home that hears nothing
of an agent tells every home, and each poisons the sectors that the agent owned. -/
def Obligations.ProbesAndGrants : Prop :=
  ∀ (s : State) (a : Agent) (sec : Nat), s.isOwnAgent a = true → s.isOwn (sec * 16) = true →
    let g := agentCluster a
    let x := (s.cluster g).sectorAt sec
    let h := s.homeServing sec
    (s.probeHeld g sec = false → (s.cluster g).missOf sec = none → (s.cluster g).porchOf sec = none →
      (x.st ≠ 0 →
        let ans : ProbeAnswer := if x.dirty then .dirty x.data else .clean
        let back (u : State) : Prop := x.dirty = true → ∀ j, j < 16 → u.dram (sec * 16 + j) = x.data.getD j TWord.empty
        (.prbS a sec ∈ s.wire → Completes (exec (.prbS a sec) s) fun u =>
          u.wire = s.wire.erase (.prbS a sec) ++ [.prbRsp h a sec ans] ∧ back u ∧
          (u.cluster g).sectorAt sec = { x with
            st := 1
            dirty := false } ∧ (x.dirty = false → u.mem = s.mem)) ∧
        (.prbI a sec ∈ s.wire → Completes (exec (.prbI a sec) s) fun u =>
          u.wire = s.wire.erase (.prbI a sec) ++ [.prbRsp h a sec ans] ∧ back u ∧
          ((u.cluster g).sectorAt sec).st = 0 ∧ (∀ c k, clusterOf c = g → (u.slot c k).resv ≠ some sec) ∧
          (x.dirty = false → u.mem = s.mem)) ∧
        (∀ t, s.isOwnAgent t = true → .prbF a sec t ∈ s.wire → x.dirty = true → Completes (exec (.prbF a sec t) s) fun u =>
          u.wire = s.wire.erase (.prbF a sec t) ++ [.dataX t sec x.data, .prbRsp h a sec ans] ∧ back u ∧
          ((u.cluster g).sectorAt sec).st = 0)) ∧
      (x.st = 0 → .prbI a sec ∈ s.wire → Completes (exec (.prbI a sec) s) fun u =>
        u = { s with wire := s.wire.erase (.prbI a sec) ++ [.prbRsp h a sec .notHeld] })) ∧
    (∀ (m : Miss) (d : List TWord), (s.cluster g).missOf sec = some m →
      let fills (c : Instr) (v : Miss) : Prop := c ∈ s.wire → Completes (exec c s) fun u =>
        (u.cluster g).missOf sec = some v ∧ (∀ y, y ≠ g → u.cluster y = s.cluster y) ∧ u = { s with
          clusters := u.clusters
          wire := s.wire.erase c }
      (m.granted = none →
        fills (.dataS a sec d) { m with
          granted := some 1
          data := d
          retrying := false } ∧
        fills (.dataX a sec d) { m with
          granted := some 2
          data := d
          retrying := false } ∧
        (m.sector = sec → m.zero = false → x.st ≠ 0 → fills (.grantX a sec) { m with
          granted := some 2
          data := x.data
          beats := 4
          retrying := false }) ∧
        (m.retrying = false → fills (.retry a sec) { m with
          retrying := true
          retries := m.retries + 1 })) ∧
      (m.retrying = true → (∀ y, (s.home y).retried = []) → Completes (exec (.requestReissue a sec) s) fun u =>
        (u.cluster g).missOf sec = some { m with retrying := false } ∧ u = { s with
          clusters := u.clusters
          wire := s.wire ++ [missRequest m a] })) ∧
    (∀ (y : BitVec 4) (t : Trans) (k : Nat) (e : DirEnt), (s.home y).transOf (sec / 4) = some t → t.block = sec / 4 →
      s.entryAt y (sec / 4) k e →
      (∀ (b : Agent) (d : List TWord), .prbRsp y a sec (.dirty d) ∈ s.wire → s.agentDead y a = false →
        s.isOwnAgent b = true → t.awaits = [(a, sec)] → t.granted = false → t.evict = false → t.fwd = false →
        t.sent = false → t.req = .rdX y b sec .ok → s.awaitsWb y (sec / 4) = false →
        Completes (exec (.prbRsp y a sec (.dirty d)) s) fun u =>
          u.wire = s.wire.erase (.prbRsp y a sec (.dirty d)) ++ [.dataX b sec d] ∧
          ((u.home y).ent k).state (sec % 4) = 2 ∧ ((u.home y).ent k).ownerOf (sec % 4) = b ∧ HomeOnly s u y) ∧
      (.done y a sec ∈ s.wire → t.granted = true → reqAgent t.req = a → reqSector t.req = sec → (s.home y).queue = [] →
        Map.get none (s.home y).starve (dirSet y (sec / 4)) = none → Completes (exec (.done y a sec) s) fun u =>
          (u.home y).transOf (sec / 4) = none ∧ (u.home y).ent k = { e with pin := false } ∧
          u.wire = s.wire.erase (.done y a sec) ∧ HomeOnly s u y)) ∧
    (∀ (w : Nat) (c : CellId) (n : Nat) (p : BitVec 6) (m : BitVec 4) (v : TWord), s.isOwn w = true →
      .hopAck a w (.store c n p m v) TWord.empty true ∈ s.wire →
      Completes (exec (.hopAck a w (.store c n p m v) TWord.empty true) s) fun u =>
        (u.cell c).stbuf = (s.cell c).stbuf.map (fun e => if e.id = n ∧ e.sent = true then { e with
          sent := true
          performed := true } else e) ∧ u = { s with
            cells := u.cells
            wire := u.wire }) ∧
    ∀ (y : BitVec 4) (b : Agent),
      (s.agentDead y b = false → s.inGroup y b = true →
        exec (.coherenceHeartbeat y ⟨b, none⟩) s = .next (s.setHome y { (s.home y) with
          heard := Map.set 0 (s.home y).heard b.toNat s.now }) ∧
        (s.deadNs y ≤ (s.now - Map.get 0 (s.home y).heard b.toNat).toNat →
          Completes (exec (.deadAgentDetect y ⟨b, none⟩) s) fun u =>
            u.wire = s.wire ++ allClusters.map (fun z => .deadAgentNotice z b) ∧ u = { s with
              col := u.col
              wire := u.wire
              out := s.out ++ [.notify 0x44 (b.setWidth 32)] })) ∧
      (∀ (d : BitVec 12), s.agentDead y b = false → s.inGroup y b = true → s.isOwnAgent b = false →
        exec (.coherenceHeartbeat y ⟨b, some d⟩) s = .next (s.setHome y { (s.home y) with
          heard := Map.set 0 (s.home y).heard (heartKey ⟨b, some d⟩) s.now }) ∧
        (d ∈ s.hier.gone → s.deadNs y ≤ (s.now - Map.get 0 (s.home y).heard (heartKey ⟨b, some d⟩)).toNat →
          Completes (exec (.deadAgentDetect y ⟨b, some d⟩) s) fun u =>
            u.wire = s.wire ++ (heartAgents ⟨b, some d⟩).flatMap (fun a => allClusters.map fun z => .deadAgentNotice z a) ∧
            u = { s with
              col := u.col
              wire := u.wire
              out := u.out })) ∧
      (∀ (k : Nat) (e : DirEnt), .deadAgentNotice y b ∈ s.wire → s.isOwnAgent b = false → (s.home y).dir = [(k, e)] →
        (s.home y).trans = [] → s.moves = [] → e.v = true →
        Completes (exec (.deadAgentNotice y b) s) fun u => u.agentDead y b = true ∧
          ∀ i, i < 4 → e.state i = 2 → e.ownerOf i = b → ((u.home y).ent k).state i = 0 ∧
            ∀ j, j < 16 → u.dram ((e.tag * 4 + i) * 16 + j) = ⟨Tag.poison, 0x00010000 ||| b.setWidth 32⟩)

/-! ### Placement, migration, page moves and items (07 R287, R291, R292, R297 to R309, R311 to R319) -/

/-- Samples, summaries (a module's own, and one that reaches the group Hart, which answers with weights) and directives; a
peer's ALLOC with its continuation; and a frame's migration, message by message: the window that chooses it, HEADER, which
transfers it, its confirmation, the routers' invalidations and marks, the scan, and END-FWD, which gives its STATE back and completes it where its
COUNT is 0. -/
def Obligations.PlacementAndMigration : Prop :=
  ∀ s : State,
    (Completes (exec .placementSample s) fun u => u = { s with samples := u.samples } ∧
      ∀ c : CellId, Map.get (0, 0, 0) u.samples c.toNat =
        ((s.cell c).inq.length, (s.cell c).ready.length, (s.framesOn c).length)) ∧
    (∀ p : BitVec 6, let x := s.part p
      x.isLive = true →
      (2 ≤ x.span.length → x.cells ≠ [] → exec (.spanSummary ⟨p, none⟩) s = .next { s with
        out := s.out ++ [.hart 0x10 (p.setWidth 32), .hart 0x11 (BitVec.ofNat 32 (x.quota - s.framesHeld p)),
          .hart 0x12 (BitVec.ofNat 32 ((x.cells.map fun c => (s.cell c).ready.length).sum / x.cells.length)),
          .hart 0x13 (BitVec.ofNat 32
            (s.items.filter fun i => i.part == p && !i.taken && !i.ended && !i.abandoned).length)] }) ∧
      (∀ m : Summary, s.hier.role = 1 → m.module.toNat / 64 = s.hier.modn.toNat / 64 →
        s.hier.heartbeat = false ∨ s.hier.lease = true → Completes (exec (.spanSummary ⟨p, some m⟩) s) fun u =>
          Map.get none u.hier.summaries (p.toNat * 4096 + m.module.toNat) = some m ∧
          ∃ ws, .decision true s.hier.gepoch (.placement p ws) ∈ u.out ∧ ws.length = x.span.length ∧
            (u.part p).weights = x.span.zip ws) ∧
      ∀ (e : Word) (ws : List (BitVec 12 × BitVec 8)),
        (e < s.hier.gepoch ∨ e < x.epoch → exec (.placementDirective p e ws) s = .next s) ∧
        (s.hier.gepoch ≤ e → x.epoch ≤ e → s.hier.role ≠ 1 → s.hier.role ≠ 2 →
          Completes (exec (.placementDirective p e ws) s) fun u =>
            u.part p = { x with
              weights := ws.filter fun w => x.span.contains w.1
              epoch := e } ∧ (∀ q, q ≠ p → u.part q = s.part q) ∧ u = { s with
                parts := u.parts
                hier := { s.hier with gepoch := e } })) ∧
    (Completes (exec .directiveAbsent s) fun u =>
      (∀ p, u.part p = { (s.part p) with weights := [] }) ∧ u = { s with parts := u.parts }) ∧
    (∀ (src : BitVec 12) (p : BitVec 6) (sid : BitVec 16) (code hint : Word) (cont : Option Cont), let q := placing p 0 hint none true
      (s.part p).isLive = true → src ∈ (s.part p).span →
      (s.bestCell q (s.candidates q) = none →
        exec (.peerPlacement src p sid code ⟨hint, cont⟩) s = .next { s with out := s.out ++ [.notify 0x50 0] }) ∧
      (∀ (c : CellId) (f : BitVec 20), s.bestCell q (s.candidates q) = some c → s.framesHeld p < (s.part p).quota →
        s.freeFrameFrom (s.ctxMap.length + 2) ((Config.freeValue s.free).toNat % 2 ^ 20) = some f →
        s.reg (pmcCell c + 0xC0) = 0 → Completes (exec (.peerPlacement src p sid code ⟨hint, cont⟩) s) fun u =>
          u.out = s.out ++ [.notify 0x50 (s.ctxOf f)] ∧
          u.ctxEnt f = { (s.ctxEnt f) with
            valid := true
            moving := false
            cell := c } ∧
          (u.frame f).state = stActive ∧ (u.frame f).sid = sid ∧ (u.frame f).code = code ∧ (u.frame f).part = p ∧
          (u.frame f).count = 0 ∧ (cont = none → (u.frame f).contCtx = 0) ∧
          (∀ y, cont = some y → (u.frame f).contCtx = y.ctx ∧ (u.frame f).contStmt = y.stmt ∧
            (u.frame f).contIter = y.iter ∧ (u.frame f).contPort = y.port ∧ (u.frame f).contSid = y.sid) ∧
          (∀ g, g ≠ f → u.frame g = s.frame g ∧ u.ctxEnt g = s.ctxEnt g) ∧ u.mem = s.mem ∧ u.cells = s.cells)) ∧
    ∀ (c : CellId) (f : BitVec 20), let x := s.frame f
      let mine (a : Activity) : Bool := frameOf a.ctx == f
      let fresh : Frame := { x with
        total := 0
        remote := 0
        candCl := 0
        candCnt := 0
        holdLeft := x.holdLeft - (if x.holdLeft = 0 then 0 else 1) }
      ((s.cell c).hdr = [f] → s.cellOf f = c → x.state ≠ stFree →
        (s.migrates c x = false → Completes (exec (.migrationWindowEnd c) s) fun u =>
          u.frame f = fresh ∧ (∀ g, g ≠ f → u.frame g = s.frame g) ∧ u = { s with frames := u.frames }) ∧
        (∀ n, s.migrates c x = true → s.mayMigrate c x.candCl = true → s.newCell c x = some n →
          Completes (exec (.migrationWindowEnd c) s) fun u =>
            u.frame f = fresh ∧
            u.cell c = { (s.cell c) with
              fwd := [{ frame := f
                        target := n
                        marks := []
                        scanned := false
                        moved := false }] } ∧
            (u.ctxEnt f).moving = true ∧ u.inMove = s.inMove ++ [(f, c, n)] ∧ u.wire = s.wire ++ [.header f] ∧
            u.mem = s.mem ∧ (∀ g, g ≠ f → u.frame g = s.frame g) ∧ ∀ d, d ≠ c → u.cell d = s.cell d)) ∧
      (∀ e, s.leaving f = some (c, e) → (s.cell c).fwd = [e] →
        (.header f ∈ s.wire → e.target ≠ c → s.reg (pmcCell c + 0xC0) = 0 → Completes (exec (.header f) s) fun u =>
          u.frame f = { x with
            saved := x.state
            state := stMigrating
            due := false } ∧
          u.cell c = { (s.cell c) with
            fwd := [{ e with moved := true }]
            hdr := (s.cell c).hdr.filter (· != f) } ∧
          f ∈ (u.cell e.target).hdr ∧ u.wire = s.wire.erase (.header f) ++ [.headerConfirm f] ∧ u.mem = s.mem ∧
          (∀ g, g ≠ f → u.frame g = s.frame g) ∧ ∀ d, d ≠ e.target → d ≠ c → u.cell d = s.cell d) ∧
        (.headerConfirm f ∈ s.wire → Completes (exec (.headerConfirm f) s) fun u =>
          u.ctxEnt f = { (s.ctxEnt f) with
            cell := e.target
            version := (s.ctxEnt f).version + 1 } ∧
          u.wire = s.wire.erase (.headerConfirm f) ++ allClusters.map (fun g => .mapInvalidate g f) ∧
          (∀ g, g ≠ f → u.ctxEnt g = s.ctxEnt g) ∧ u = { s with
            ctxMap := u.ctxMap
            wire := u.wire }) ∧
        (∀ g, .mapMark g f ∈ s.wire → Completes (exec (.mapMark g f) s) fun u =>
          let marks := e.marks.filter (· != g) ++ [g]
          (∀ d, d ≠ c → u.cell d = s.cell d) ∧ u = { s with
            cells := u.cells
            wire := u.wire } ∧
          (e.moved = true ∧ e.scanned = true ∧ marks.length = 16 ∧ s.leftAt c f = false → (u.cell c).fwd = [] ∧
            u.wire = s.wire.erase (.mapMark g f) ++ [.endFwd f]) ∧
          (¬(e.moved = true ∧ e.scanned = true ∧ marks.length = 16 ∧ s.leftAt c f = false) → (u.cell c).fwd = [{ e with marks := marks }] ∧
            u.wire = s.wire.erase (.mapMark g f))) ∧
        (∀ (k : Nat) (m : MsSet), e.moved = true → e.scanned = false → (s.cell c).ms = [(k, m)] → m.spill = 0 →
          e.marks.length ≠ 16 →
          Completes (exec (.migrationScanDone f) s) fun u =>
            (u.cell c).fwd = [{ e with scanned := true }] ∧
            (u.cell c).ready = (s.cell c).ready.filter (fun a => !mine a) ∧
            u.msAt c k = { m with ways := m.ways.filter fun t => frameOf t.ctx != f } ∧
            u.wire = s.wire ++ ((((s.cell c).ready.filter mine).map fun a => a.tokens x.sid).flatten
              ++ m.ways.filter fun t => frameOf t.ctx == f).map
                (fun t => .tokenAccept e.target t ⟨.cell c, 0⟩ (clusterOf c) .transferred) ∧
            u.frames = s.frames ∧ u.mem = s.mem ∧ ∀ d, d ≠ c → u.cell d = s.cell d)) ∧
      (.endFwd f ∈ s.wire → s.tokensComing f = false → x.state = stMigrating →
        (x.due = true → x.saved = stActive ∨ x.saved = stStalled → x.count = 0 → x.persist = false → x.committed = true →
          isNullCtx x.contCtx = true → Completes (exec (.endFwd f) s) fun u => (u.frame f).state = stComplete) ∧
        (x.due = false → Completes (exec (.endFwd f) s) fun u =>
          u.frame f = { x with
            state := x.saved
            saved := 0
            holdLeft := BitVec.ofNat 4 (s.regField (clcBase (clusterOf (s.cellOf f)).toNat + 0xD00) 15 12) } ∧
          u.ctxEnt f = { (s.ctxEnt f) with moving := false } ∧ (∀ g, g ≠ f → u.frame g = s.frame g) ∧ u = { s with
            frames := u.frames
            ctxMap := u.ctxMap
            wire := s.wire.erase (.endFwd f)
            inMove := s.inMove.filter fun y => y.1 != f })) ∧
      ∀ g : BitVec 4,
        (.mapInvalidate g f ∈ s.wire → Completes (exec (.mapInvalidate g f) s) fun u =>
          u.cluster g = { (s.cluster g) with mapCache := (s.cluster g).mapCache.filter fun y => y.1 != f } ∧
          (∀ y, y ≠ g → u.cluster y = s.cluster y) ∧ u = { s with
            clusters := u.clusters
            wire := s.wire.erase (.mapInvalidate g f) ++ [.mapMark g f] }) ∧
        ((∀ y ∈ (s.cluster g).mapCache, y.1 ≠ f) → Completes (exec (.contextMapFill g f) s) fun u =>
          (f, s.cellOf f) ∈ (u.cluster g).mapCache ∧ (∀ y, y ≠ g → u.cluster y = s.cluster y) ∧ u = { s with
            clusters := u.clusters
            free := s.free + 1 })

/-- A home's samples choose a block for another HOMING; a move copies its next 256 bytes, POISON for what is uncorrectable;
and once nothing names the old block it is free and EMPTY. An accepted transaction becomes an item of its queue, and one
that does not end within its flow's limit is abandoned, and the flow goes on. -/
def Obligations.PagesAndItems : Prop :=
  (∀ (s : State) (h : BitVec 4), let y := s.setHome h { (s.home h) with pageSamples := [] }
    (bit (s.reg (clcBase h.toNat + 0xD00)) 24 = false → exec (.pageSampleWindow h) s = .next y) ∧
    ∀ (b : Nat) (ags : List Agent) (p : BitVec 6) (pblk : Nat) (l : BitVec 64) (w : BitVec 3) (t : Nat)
        (pool : List Nat),
      bit (s.reg (clcBase h.toNat + 0xD00)) 24 = true → (s.home h).pageSamples = [(b, ags)] →
      (32 ≤ ags.length → y.leafOf b = some (p, pblk, l) → l.getLsbD 1 = false → s.moves = [] → s.ben.movePool = t :: pool →
        pageWish (s.regField (dirBase h.toNat + 0xC) 1 0) (BitVec.ofNat 3 (bits64 l 5 3)) ags = .homing w →
        Completes (exec (.pageSampleWindow h) s) fun u =>
          u.move 0 = { active := true, part := p, pblk := pblk, source := b, target := s.hier.modn.toNat * 2 ^ 19 + t
                       homing := w, copied := 0 } ∧
          (∀ k, k ≠ 0 → u.move k = s.move k) ∧ u = { y with
            moves := u.moves
            ben := { s.ben with
              movePool := pool
              blocks := s.ben.blocks ++ [(t, 1)] } }) ∧
      (ags.length < 32 ∨ (y.leafOf b = some (p, pblk, l) ∧ l.getLsbD 1 = true) →
        exec (.pageSampleWindow h) s = .next y)) ∧
  (∀ (s : State) (k : BitVec 2), let m := s.move k
    m.active = true →
    (∀ bad : Option (BitVec 6), m.copied + 1 < 8192 → s.clusters = [] → s.homes = [] → s.moves = [(k.toNat, m)] →
      m.target / 2 ^ 19 = s.hier.modn.toNat → m.target % 2 ^ 19 ≠ m.source → (∀ w, s.pantryOf w = none) →
      Completes (exec (.pageMoveBlockCopy k bad) s) fun u =>
        let at_ (b j : Nat) : Nat := b * 2 ^ 19 + m.copied * 64 + j
        (∀ j, j < 64 → u.dram (at_ m.target j) =
          if bad = some (BitVec.ofNat 6 j) then ⟨Tag.poison, (Config.freeValue s.free).setWidth 32⟩
          else s.dram (at_ m.source j)) ∧
        (∀ w, (∀ j, j < 64 → localWord w ≠ localWord (at_ m.target j)) → u.dram w = s.dram w) ∧
        u.move k = { m with copied := m.copied + 1 } ∧ u = { s with
          mem := u.mem
          moves := u.moves
          free := s.free + 1 }) ∧
    (m.copied = 8192 → s.blockUnused m.source = true → Completes (exec (.pageMoveTlbAck k) s) fun u =>
      (∀ w, u.dram w = if localWord w / 2 ^ 19 = m.source then TWord.empty else s.dram w) ∧
      u.move k = move0 ∧ (∀ j, j ≠ k → u.move j = s.move j) ∧ (∀ e ∈ u.ben.blocks, e.1 ≠ m.source) ∧ u = { s with
        mem := u.mem
        moves := u.moves
        ben := { s.ben with
          blocks := s.ben.blocks.filter fun e => e.1 != m.source
          movePool := s.ben.movePool ++ [m.source] } })) ∧
  (∀ (s : State) (n : BitVec 4) (tn : BitVec 64) (r : Rx) (i : Nat) (desc : Word) (rest : List Word) (y z : State),
    (s.port n).rx.find? (fun r => r.tn == tn && r.last) = some r → r.entry = some i → (s.entry i).state = ldAccepted →
    let q := streamQueue r.words
    let w := s.workq r.part q
    let buffer := r.words.getD 2 0 + BitVec.ofNat 32 ((desc - w.ring).toNat / 8 * wordsOf (r.words.getD 1 0).toNat)
    streamFlow r.words = none → w.free = desc :: rest → w.parked = [] → r.cmp = false → r.enc = false →
    orderCmp r.words = false → orderEnc r.words = false → r.bytes.length ≤ (r.words.getD 1 0).toNat →
    (s.dropRx n tn).writeBuffer (portSource r.home 6) r.sid buffer (wordsOf r.bytes.length) r.bytes = (true, y) →
    y.spaceWrites r.sid desc (itemWords none 0 buffer r.bytes.length r.tn s.now) = .ok z →
    z.streamAt n r.lch = none → y.now = s.now → z.workqs = s.workqs →
    Completes (exec (.itemIntake n tn) s) fun u =>
      u.items = z.items ++ [{ id := z.ids, part := r.part, queue := q, desc := desc, sid := r.sid, flow := none
                              seq := 0, taken := false, taker := none, releases := 0, ended := false
                              finished := false, abandoned := false, tn := r.tn }] ∧
      u.workq r.part q = { w with
        free := rest
        items := w.items ++ [z.ids] } ∧ u = { z with
          items := u.items
          workqs := u.workqs
          ids := z.ids + 1 }) ∧
  ∀ (s : State) (f : BitVec 12) (i : WItem) (y : State), s.flow f = { (s.flow f) with
      nextRel := i.seq
      held := [] } → i.flow = some f →
    s.items = [i] → i.ended = false → i.abandoned = false → i.finished = false → s.ports = [] →
    s.itemLimit f ≤ (s.now - (s.flow f).headSince).toNat →
    (({ s with items := [{ i with
        abandoned := true
        releases := 0 }] } : State).setFlow f (s.flow f)).spaceWrite i.sid (i.desc + 7) (TWord.int 2) = .ok y →
    y.findEntry i.tn true = none → Completes (exec (.itemLimitExpiry f) s) fun u =>
      u.items = [] ∧ (u.flow f).nextRel = i.seq + 1 ∧ (u.flow f).headSince = u.now ∧
      (u.workq i.part i.queue).free = (y.workq i.part i.queue).free ++ [i.desc] ∧ u.mem = y.mem ∧
      u.reg (clcBase (flowSlice f).toNat + 0xE04) =
        BitVec.ofNat 32 (min 0xFFFFFFFF ((y.reg (clcBase (flowSlice f).toNat + 0xE04)).toNat + 1))

/-! ### Images and updates (06 R267, R272 to R276; 14 R619 to R624) -/

/-- A microword that fails its check is counted and rewritten, and one that failed within the last second asserts the cell's
source; a cell that has drained takes the new bank, one that does not goes to the end of the list with its old one; staging
takes a piece at its offset; a commit fills and selects the other slot, a confirmation ends its trial, a revert selects the
former slot. Benus firmware stops Benus for its restart. -/
def Obligations.Updates : Prop :=
  (∀ (s : State) (g : BitVec 4) (ph : BitVec 5) (a : BitVec 13), let x := g.toNat * 256 + ph.toNat
    let base := clcBase g.toNat
    let same (r : Nat × Nat × BitVec 64) : Bool := r.1 == ph.toNat && r.2.1 == a.toNat
    let again : Bool := (s.cluster g).rewritten.any fun r => same r && decide ((s.now - r.2.2).toNat < 1000000000)
    bit (s.reg (base + 0xC00)) 16 = true → s.isLoaded x = true →
    exec (.controlStoreScrub g ph a false) s = .next s ∧
    Completes (exec (.controlStoreScrub g ph a true) s) fun u =>
      u.cluster g = { (s.cluster g) with
        rewritten := ((s.cluster g).rewritten.filter fun r => !same r) ++ [(ph.toNat, a.toNat, s.now)] } ∧
      u.regField (base + 0xCA0 + 4 * ph.toNat) 15 8 =
        min 255 (s.regField (base + 0xCA0 + 4 * ph.toNat) 15 8 + 1) ∧
      (∀ h, h ≠ g → u.cluster h = s.cluster h) ∧
      (again = false → u.col = s.col) ∧
      (again = true → let z := Map.get source0 u.col.srcs (clusterSource g ph.toNat)
        z.raw = true ∧ z.pending = true) ∧ u = { s with
          clusters := u.clusters
          regs := u.regs
          col := u.col }) ∧
  (∀ (s : State) (g : BitVec 4) (ph : BitVec 5) (r : PatchRun) (n : Nat) (c : CellId) (y : Nat × Nat) (rest : List (Nat × Nat)),
    let x := g.toNat * 256 + ph.toNat
    s.ben.patch = some r → r.todo = (x, n) :: y :: rest → s.boundCells x = [c] → s.boundCells y.1 = [] →
    s.col.copying = [] → (∀ e ∈ s.cells, e.2.draining = true → s.framesOn (BitVec.ofNat 8 e.1) = []) →
    let onward (u : State) : Prop := (∀ d, u.cell d = { (s.cell d) with draining := false }) ∧ u.frames = s.frames ∧
      u.mem = s.mem ∧ ∀ z, z ≠ x → u.cellBank z = s.cellBank z
    (s.isDrained c = true → s.isLoaded x = true → (∀ e ∈ y :: rest, e.1 ≠ x) →
      Completes (exec (.cellDrainComplete g ph) s) fun u => onward u ∧ u.cellBank x = (s.cluster g).newBank ∧
        u.ben = { s.ben with patch := some { r with
          todo := y :: rest
          patched := r.patched + 1
          since := s.now } }) ∧
    (s.isDrained c = false → n + 1 < 8 → Completes (exec (.drainTimeout g ph) s) fun u => onward u ∧
      u.cellBank x = s.cellBank x ∧ u.regField (ucCellAt x) 15 8 = min 255 (s.regField (ucCellAt x) 15 8 + 1) ∧
      u.ben = { s.ben with patch := some { r with
        todo := y :: rest ++ [(x, n + 1)]
        since := s.now } })) ∧
  ∀ (s : State) (m : BitVec 5) (r : List Byte), let kind := bytesAt r 0 1
    let x := s.fwKind kind
    (Runs s m 0x0501 r → let old := if bytesAt r 2 1 % 2 = 1 then [] else (s.staged (stageKey kind (bytesAt r 1 1))).bytes
      let bytes := old ++ r.drop 8
      (bytesAt r 4 4 = old.length → bytes.length ≤ slotSize kind →
        Answers (exec (.fwStage m) s)
          (s.setStaged (stageKey kind (bytesAt r 1 1)) { bytes := bytes, complete := decide (2 ≤ bytesAt r 2 1) })
          m stOk 0 (natLe 4 bytes.length)) ∧
      (bytesAt r 4 4 ≠ old.length → Answers (exec (.fwStage m) s) s m stField 4 [])) ∧
    (Runs s m 0x0502 r → let img := (s.staged (stageKey kind (bytesAt r 1 1))).bytes
      (kind = 1 → (s.mbx m).progress = 0 → (s.staged 1).complete = true →
        s.imageFault 1 img (x.version 1 x.active) (imageBody (x.image x.active)) = none →
        Completes (exec (.fwCommit m) s) fun u => u.ben.running = false ∧ (u.fwKind 1).active = !x.active ∧
          (u.fwKind 1).trial = true ∧ (u.fwKind 1).image (!x.active) = img ∧
          (u.fwKind 1).image x.active = x.image x.active ∧ (u.fwKind 1).counter = x.counter ∧
          (u.mbx m).state = mbDone ∧ (u.mbx m).response = responseBytes (s.mbx m).request stOk 0 []) ∧
      (kind = 4 → (s.staged (stageKey 4 (bytesAt r 1 1))).complete = true → s.imageFault 4 img 0 [] = none →
        Answers (exec (.fwCommit m) s)
          (({ s with ben := { s.ben with bootImages := Map.set [] s.ben.bootImages (bytesAt r 1 1) img } } : State).logUpdate 4
            (imageVersion img) stOk 0) m stOk 0 []) ∧
      (kind = 4 → (s.staged (stageKey 4 (bytesAt r 1 1))).complete = false →
        Answers (exec (.fwCommit m) s) s m stState 0 [])) ∧
    (Runs s m 0x0503 r → let n := Nat.max x.counter (x.rollback kind x.active)
      (x.has x.active = true → Answers (exec (.fwConfirm m) s)
        ((s.modFwKind kind fun x => { x with
          counter := n
          trial := false
          trialFails := 0 }).logUpdate kind (x.version kind x.active) stOk 0) m stOk 0 (natLe 2 n)) ∧
      (x.has x.active = false → Answers (exec (.fwConfirm m) s) s m stNotFound 0 [])) ∧
    (Runs s m 0x0504 r → kind = 1 → (s.mbx m).progress = 0 → x.has (!x.active) = true →
      (x.top (!x.active) = [] → x.counter ≤ x.rollback 1 (!x.active)) →
      (x.top (!x.active) ≠ [] →
        s.imageFault 1 (x.top (!x.active)) (x.version 1 (!x.active)) (imageBody (x.image (!x.active))) = none) →
      Completes (exec (.fwRevert m) s) fun u => u.ben.running = false ∧ u.fwKind 1 = { x with
          active := !x.active
          trial := true
          trialFails := 0 } ∧
        (u.mbx m).state = mbDone ∧ (u.mbx m).response = responseBytes (s.mbx m).request stOk 0 [])

/-! ### Channel programs (11 R454 to R462, R486 to R489) -/

/-- An order whose entry is open is launched: it waits while none of its paths is UP, and else its frame leaves, credit
permitting, with the order's code or its bytes, which a WRITE reads once Benus has mapped what it touches; a READ STREAM runs; a JUMP goes where it says; WAIT-EVENT waits until its
event is signalled; and a program's end writes the header's words 4 to 7, sends its completion token and frees the
subchannel. -/
def Obligations.ChannelPrograms : Prop :=
  ∀ (s : State) (n : BitVec 3) (b : BitVec 8), let sc := s.sub n b
    let g := sc.prog
    let goes (u : State) (v : Program) : Prop := u.sub n b = { sc with prog := v } ∧
      ∀ k j, k ≠ n ∨ j ≠ b → u.sub k j = s.sub k j
    (g.ready = true → s.plat.ledgerClosed = false →
      (∀ i, g.entry = some i → s.outTx = [] → let ws := g.words
        let tx (bs : List Byte) : OutTx := { entry := i, tn := (s.entry i).tn, port := n, sub := b, lch := sc.lch, words := ws
                                             flow := (s.entry i).flow, bytes := bs, path := s.upPath n sc.lch, begun := false
                                             left := false, deferred := false, got := [], cmp := false, enc := false }
        let z := s.touches sc.sid (ws.getD 2 0) (wordsOf (ws.getD 1 0).toNat)
        orderStream ws = false → orderCmp ws = false → orderEnc ws = false →
        (s.upPath n sc.lch = none →
          (∀ o ∈ ([(.readOrder n b, codeRead), (.senseOrder n b, codeSense), (.controlOrder n b, codeControl)] :
              List (Instr × Nat)), orderCode ws = o.2 → exec o.1 s = .next { s with outTx := [tx []] }) ∧
          ∀ plain, orderCode ws = codeWrite → z.bufferBytes sc.sid (ws.getD 2 0) (ws.getD 1 0).toNat = some plain →
            exec (.writeOrder n b) s = .next { z with outTx := [tx plain] }) ∧
        (∀ q, s.upPath n sc.lch = some q → (s.entry i).state = ldOpen → (s.port q).txq = [] →
          (s.port q).unacked.length < (s.port q).window.toNat → (s.port q).switching = false →
          (s.port q).pausedPrios.getLsbD 0 = false → (s.entry i).flow ∉ (s.lch q sc.lch).paused →
          let left := ((s.lch q sc.lch).creditOut - (s.lch q sc.lch).startedOut).toNat
          0 < left → left < 2 ^ 31 →
          let sends (y : State) (o : Outcome) (typ : BitVec 4) (code : Byte) (bs payload : List Byte) : Prop := Completes o fun u =>
            (∃ f : CFrame, u.out = y.out ++ [.frame q typ f] ∧ f.tn = (s.entry i).tn ∧ f.lch = sc.lch ∧ f.code = code ∧
              f.payload = payload ∧ f.fseq = (s.port q).fseq ∧ f.session = (s.port q).session ∧ f.first = true ∧
              f.last = true ∧ f.flow = (s.entry i).flow) ∧
            u.outTx = [{ (tx bs) with
              begun := true
              left := true }] ∧
            (u.lch q sc.lch).startedOut = (s.lch q sc.lch).startedOut + 1 ∧ (u.port q).fseq = (s.port q).fseq + 1 ∧
            u.mem = y.mem ∧ u.ledger = s.ledger
          (orderCode ws = codeRead → sends s (exec (.readOrder n b) s) tyReq 1 [] (natBe 4 (ws.getD 1 0).toNat)) ∧
          (orderCode ws = codeSense → sends s (exec (.senseOrder n b) s) tyReq 3 [] (natBe 4 32)) ∧
          (orderCode ws = codeControl → sends s (exec (.controlOrder n b) s) tyData ((ws.getD 4 0).setWidth 8) [] []) ∧
          ∀ plain, orderCode ws = codeWrite → z.bufferBytes sc.sid (ws.getD 2 0) (ws.getD 1 0).toNat = some plain →
            0 < plain.length → plain.length ≤ (s.port q).maxPay.toNat →
            sends z (exec (.writeOrder n b) s) tyData 0 plain plain)) ∧
      (∀ (ws : List Word) (y : State), g.entry = none → s.fetchOrder sc g.order = (some ws, y) → y.sub n b = sc →
        let chain := orderChain ws
        let note := if orderNotify ws then 1 else 0
        (orderStream ws = true → orderCode ws = codeRead → (s.streamAt (chPort n) sc.lch) = none →
          (s.workq sc.part (streamQueue ws)).bound = true → (s.workq sc.part (streamQueue ws)).sid = sc.sid →
          y.ports = s.ports → y.workqs = s.workqs → y.regs = s.regs → y.flows = s.flows → (∀ q, (s.port q).link ≠ linkUp) →
          ((streamFlow ws).map fun f => (s.flow f).full).getD false = false →
          Completes (exec (.readStreamOrder n b) s) fun u => goes u { g with
              streaming := true
              words := ws } ∧ (u.lch (chPort n) sc.lch).ending = false ∧ u = { y with ports := u.ports }) ∧
        (orderStream ws = false → y.ports = s.ports →
          (orderCode ws = codeJump → Completes (exec (.jumpOrder n b) s) fun u => goes u { g with
              order := ws.getD 2 0
              due := note } ∧ u = { y with ports := u.ports }) ∧
          (orderCode ws = codeWait →
            (Completes (exec (.waitEventOrder n b true) s) fun u => goes u { g with
                event := none
                order := if chain then g.order + 8 else g.order
                due := if !chain then 2 else note } ∧ u = { y with ports := u.ports }) ∧
            (Completes (exec (.waitEventOrder n b false) s) fun u => goes u { g with
                event := some ((ws.getD 4 0).setWidth 6) } ∧ u = { y with ports := u.ports }))))) ∧
    ∀ y4 y5 y6 y7 : State, g.running = true → g.due ≠ 0 → g.done = [] →
      s.spaceWrite g.sid (g.header + 4) (TWord.int (g.outcome.setWidth 32 ||| if g.wfault then 0x100 else 0)) = .ok y4 →
      y4.spaceWrite g.sid (g.header + 5) (TWord.int g.residual) = .ok y5 →
      y5.spaceWrite g.sid (g.header + 6) (TWord.int (g.tn.setWidth 32)) = .ok y6 →
      y6.spaceWrite g.sid (g.header + 7) (TWord.int ((g.tn >>> 32).setWidth 32)) = .ok y7 → y7.ports = s.ports →
      Completes (exec (.programEnd n b) s) fun u =>
        goes u (if g.due = 2 then program0 else { g with due := 0 }) ∧ u.mem = y7.mem ∧
        (isNullCtx (y7.eventCtx g.part) = true → u.retained = y7.retained) ∧
        (isNullCtx (y7.eventCtx g.part) = false → ∃ r : Retained, u.retained = y7.retained ++ [r] ∧
          r.tok = mkToken (y7.eventCtx g.part) g.stmt 0 g.tport flEvt (y7.ringSid g.part) ⟨Tag.ptr, g.header⟩ ∧
          r.snd.who = .channel n ∧ r.state = .flight)

/-! ### Links and channel processor pairs (11 R457, R458, R466, R470 to R478, R480 to R494) -/

/-- What each frame of a session does; a bad one is counted; the session opens by HELLO, ends by time-outs or loss of lock,
and repeats what it must; PAUSE, mirror acknowledgements, and the switch-over of a pair. -/
def Obligations.Links : Prop :=
  ∀ (s : State) (n : BitVec 4), let p := s.port n
    let bad (o : Outcome) : Prop := Completes o fun u =>
      (n.toNat < 8 → u.reg (chnBase n.toNat + 0x30) =
          BitVec.ofNat 32 (min 0xFFFFFFFF ((s.reg (chnBase n.toNat + 0x30)).toNat + 1)) ∧
        (Map.get source0 u.col.srcs (portSource (n.setWidth 3) 5)).raw = true) ∧
      (8 ≤ n.toNat → u = s) ∧ u = { s with
        regs := u.regs
        col := u.col }
    let down (u : State) : Prop := (u.port n).link = linkDown ∧ (u.port n).unacked = [] ∧ (u.port n).rx = p.rx ∧
      u.ledger = s.ledger ∧ u.mem = s.mem ∧ ∀ k, k ≠ n → u.port k = s.port k
    (∀ f : CFrame, let d := s.dup (p.winKey f.tn)
      (∀ c ∈ ([.data n f, .ack n f, .e2eAck n f, .req n f, .query n f, .answer n f, .abort n f, .credit n f,
          .flowpause n f, .hello n f, .resolve n f] : List Instr),
        p.link = linkUp → p.switching = false → f.crcOk = false → bad (exec c s)) ∧
      (∀ typ : BitVec 4, 11 ≤ typ.toNat → bad (exec (.reservedTypeFrame n typ f) s)) ∧
      (Comes s n tyAck f → exec (.ack n f) s = .next (s.took n tyAck)) ∧
      (Comes s n tyResolve f → exec (.resolve n f) s = .next (s.took n tyResolve)) ∧
      (∀ x, Comes s n tyData f → s.outOf f.tn = some x → f.offset.toNat = x.got.length →
        exec (.data n f) s = .next { s.took n tyData with outTx := s.outTx.map fun y => if y.tn == f.tn then { y with
          got := y.got ++ f.payload
          cmp := false
          enc := false } else y }) ∧
      (∀ x, Comes s n tyE2e f → s.outOf f.tn = some x → f.code = 0 →
        exec (.e2eAck n f) s = .next { s.took n tyE2e with outTx := s.outTx.map fun y => if y.tn == f.tn then { y with
          deferred := true
          begun := false
          got := [] } else y }) ∧
      (∀ x, Comes s n tyE2e f → s.outOf f.tn = some x → f.code = 1 → x.path = none → orderCode x.words = codeWrite →
        let e := s.entry x.entry
        let g := (s.sub x.port x.sub).prog
        e.kind.getLsbD 0 = false → e.doubted = false → e.isMirrored = false → g.running = true → g.entry = some x.entry →
        Completes (exec (.e2eAck n f) s) fun u =>
          u.entry x.entry = { e with
            state := ldClosed
            outcome := ocPerformed } ∧ u.outTx = s.outTx.filter (fun y => y.tn != x.tn) ∧
          (u.sub x.port x.sub).prog = { g with
            outcome := ocPerformed
            residual := 0
            entry := none
            done := g.done ++ [x.entry]
            words := []
            order := if orderChain g.words then g.order + 8 else g.order
            due := if !orderChain g.words then 2 else if orderNotify g.words then 1 else 0 } ∧ u.mem = s.mem) ∧
      (Comes s n tyReq f → MaySend s n → 2 ≤ p.window.toNat → d.knows f.tn = .new → let y := s.took n tyReq
        (f.code = 1 → Completes (exec (.req n f) s) fun u =>
          SendsFrame y u n tyE2e (fun e => e.tn = f.tn ∧ e.lch = f.lch ∧ e.code = 2 ∧ e.payload = []) ∧
          (u.dup (p.winKey f.tn)).knows f.tn = .fenced ∧ (u.lch n f.lch).startedIn = (s.lch n f.lch).startedIn + 1) ∧
        (f.code = 3 → Completes (exec (.req n f) s) fun u => ∃ a b : CFrame,
          u.out = s.out ++ [.frame n tyData a, .frame n tyE2e b] ∧ a.tn = f.tn ∧ b.tn = f.tn ∧ a.lch = f.lch ∧
          a.payload = (y.startIn n f.lch).senseBlock n f.lch f.tn ∧ a.first = true ∧ a.last = true ∧ b.code = 1 ∧
          (u.dup (p.winKey f.tn)).knows f.tn = .performed)) ∧
      (Comes s n tyQuery f → MaySend s n → (∀ r ∈ p.rx, r.tn ≠ f.tn) → Completes (exec (.query n f) s) fun u =>
        SendsFrame (s.took n tyQuery) u n tyAnswer (fun e => e.tn = f.tn ∧ e.lch = f.lch ∧
          e.code = if d.knows f.tn = .performed then 1 else 2) ∧
        (d.knows f.tn = .performed → u.dups = s.dups) ∧
        (d.knows f.tn ≠ .performed → (u.dup (p.winKey f.tn)).knows f.tn = .fenced)) ∧
      (∀ i e, Comes s n tyAnswer f → s.outOf f.tn = none → s.findEntry f.tn false = some (i, e) → s.entry i = e →
        e.state = ldInDoubt → e.isMirrored = false → (s.part e.part).notice = none → (s.part e.part).noticeWait = [] →
        f.code = 1 ∨ f.code = 2 → Completes (exec (.answer n f) s) fun u => u.entry i = { e with
            state := ldClosed
            outcome := f.code } ∧ u = { s.took n tyAnswer with ledger := u.ledger }) ∧
      (∀ r i, Comes s n tyAbort f → p.rx = [r] → r.tn = f.tn → r.last = false → r.entry = some i →
        s.streamAt n f.lch = none → Completes (exec (.abort n f) s) fun u => u.entry i = entry0 ∧
          (u.port n).rx = [] ∧ (u.dup (p.winKey f.tn)).knows f.tn ≠ .new ∧ u.mem = s.mem) ∧
      (Comes s n tyCredit f → s.outTx = [] → let v := BitVec.ofNat 32 (beNat f.payload)
        let c := s.lch n f.lch
        Completes (exec (.credit n f) s) fun u => u.lch n f.lch = { c with
            creditOut := if (v - c.creditOut).toNat < 2 ^ 31 then v else c.creditOut } ∧
          (∀ l, l ≠ f.lch → u.lch n l = s.lch n l) ∧ u = { s.took n tyCredit with ports := u.ports }) ∧
      (Comes s n tyPause f → s.outTx = [] → f.code = 0 ∨ f.code = 1 → let c := s.lch n f.lch
        Completes (exec (.flowpause n f) s) fun u => u.lch n f.lch = { c with
            paused := (if f.code = 1 then [f.flow] else []) ++ c.paused.filter (· != f.flow) } ∧
          u = { s.took n tyPause with ports := u.ports }) ∧
      (Comes s n tyHello f → exec (.hello n f) s = .next (s.took n tyHello)) ∧
      (p.link = linkHello → p.switching = false → p.pausedPrios.getLsbD 0 = false → f.crcOk = true → s.helloValid n f = true →
        s.outTx = [] → s.ledger = [] → s.copies = [] → p.lchs = [] → p.resolves = [] →
        (∀ e ∈ s.ports, ∀ b ∈ e.2.subs, b.2.prog.streaming = false) →
        let num (o k : Nat) : Nat := beNat ((f.payload.drop o).take k)
        Completes (exec (.hello n f) s) fun u => (u.port n).link = linkUp ∧
          (u.port n).session = BitVec.ofNat 16 (Nat.max p.proposal.toNat (num 2 2) + 1) ∧
          (u.port n).maxPay = BitVec.ofNat 16 (min ownMaxPay (num 4 2)) ∧
          (u.port n).window = BitVec.ofNat 16 (min ownWindow (num 6 2)) ∧
          (u.port n).caps = BitVec.ofNat 16 (num 8 2 % 8) ∧ (u.port n).peer = BitVec.ofNat 12 (num 0 2) ∧
          (u.port n).fseq = 0 ∧ (u.port n).ackseq = 0 ∧ (u.port n).unacked = [] ∧
          ∃ h : CFrame, u.out = s.out ++ [.frame n tyHello h] ∧ h.payload = (s.helloFrame n).payload ∧
            h.session = (u.port n).session ∧ h.fseq = 0)) ∧
    (MaySend s n →
      (Completes (exec (.linkAckTimer n) s) fun u => SendsFrame s u n tyAck fun e => e.payload = []) ∧
      (∀ l, s.streamAt n l = none → Completes (exec (.creditRepeat n l) s) fun u => SendsFrame s u n tyCredit fun e =>
        e.lch = l ∧ e.payload = natBe 4 (s.lch n l).creditIn.toNat) ∧
      (∀ l c fl, p.caps.getLsbD 2 = true → p.lchs = [(l, c)] → fl ∈ c.pausing →
        Completes (exec (.flowpauseRepeat n fl) s) fun u => SendsFrame s u n tyPause fun e =>
          e.lch = BitVec.ofNat 16 l ∧ e.flow = fl ∧ e.code = 1)) ∧
    ((p.link = linkUp → p.switching = false → p.unacked ≠ [] →
      (p.timeouts + 1 < s.retries n → Completes (exec (.retransmissionTimeout n) s) fun u =>
        u.out = s.out ++ p.unacked.map (fun x => .frame n x.typ { x.frame with
          retx := true
          ackseq := p.ackseq }) ∧
        u.port n = { p with timeouts := p.timeouts + 1 } ∧ u = { s with
          ports := u.ports
          regs := u.regs
          out := u.out }) ∧
      (s.retries n ≤ p.timeouts + 1 → s.outTx = [] → (∀ r ∈ p.rx, r.last = true) →
        Completes (exec (.retransmissionTimeout n) s) down)) ∧
    (p.link = linkDown → (s.portEnabled n = false → Completes (exec (.pcsLock n) s) fun u =>
        u.port n = { p with pcs := true } ∧ u = { s with ports := u.ports }) ∧
      (s.portEnabled n = true →
        let begins (u : State) : Prop := (u.port n).link = linkHello ∧ (u.port n).proposal = p.session ∧
          (u.port n).pcs = true ∧ ∃ h : CFrame, u.out = s.out ++ [.frame n tyHello h] ∧
            (h.payload.drop 2).take 2 = natBe 2 p.session.toNat ∧ h.payload.take 2 = natBe 2 s.hier.modn.toNat
        Completes (exec (.pcsLock n) s) begins ∧ (p.pcs = true → Completes (exec (.helloResend n) s) begins))) ∧
    (p.link = linkHello → (Completes (exec (.helloResend n) s) fun u =>
        SendsFrame s u n tyHello fun h => h.payload = (s.helloFrame n).payload) ∧
      exec (.helloTimeout n) s = .next { s with out := s.out ++ [.notify 0x48 (n.setWidth 32)] }) ∧
    (p.link ≠ linkUp → Completes (exec (.pcsLockLoss n) s) fun u => u.port n = { p with
        pcs := false
        link := linkDown } ∧ u = { s with
          ports := u.ports
          col := u.col } ∧ (n.toNat < 8 → (Map.get source0 u.col.srcs (portSource (n.setWidth 3) 4)).raw = true)) ∧
    (p.link = linkUp → s.outTx = [] → (∀ r ∈ p.rx, r.last = true) → Completes (exec (.pcsLockLoss n) s) down)) ∧
    (∀ (tn : BitVec 64) (i : Nat) (e : Ledger),
      s.ledger.find? (fun e => e.2.tn == tn && e.2.state == ldMirroring) = some (i, e) →
      let copied (v : Ledger) : List Out := if e.isMirrored then [.mirror e.partner v.words] else []
      (e.kind.getLsbD 3 = true → Completes (exec (.mirrorCopyAck ⟨tn, none⟩) s) fun u => let v : Ledger := { e with
            state := ldClosed
            outcome := ocPerformed }
        u.entry i = v ∧ u.mem = s.mem ∧ (isNullCtx (s.eventCtx e.part) = true → u.out = s.out ++ copied v) ∧
        (isNullCtx (s.eventCtx e.part) = false → ∃ r : Retained, u.retained = s.retained ++ [r] ∧
          r.tok.val = ⟨Tag.ptr, e.desc⟩ ∧ r.tok.ctx = s.eventCtx e.part)) ∧
      (e.kind.getLsbD 3 = false → e.kind.getLsbD 0 = false → s.outOf tn = none → let v : Ledger := { e with state := ldOpen }
        Completes (exec (.mirrorCopyAck ⟨tn, none⟩) s) fun u => u.entry i = v ∧ u = { s with
          ledger := u.ledger
          out := s.out ++ copied v })) ∧
    (∀ (tn : BitVec 64) (ws : List Word), let e := s.entryOf ws
      s.hier.partner.isSome = true → ws.length = 16 → e.partner = s.hier.modn → e.state ≠ ldFree → s.copies.length < 2 ^ 21 →
      exec (.mirrorCopyAck ⟨tn, some ws⟩) s = .next { s with
        copies := s.copies.filter (fun x => !(x.tn == e.tn && x.kind == e.kind)) ++ [e]
        out := s.out ++ [.mirrorAck e.tn] }) ∧
    ∀ q : BitVec 3, n = chPort q → (∀ (prios : BitVec 8) (on : Bool), p.txq = [] →
        Completes (exec (.pauseFrame q prios on) s) fun u => u.port n = { p with
          pausedPrios := if on then p.pausedPrios ||| prios else p.pausedPrios &&& ~~~prios } ∧
          u = { s with ports := u.ports }) ∧
      (∀ side : BitVec 1, side.toNat = p.active → p.switching = false →
        (p.standbyOk = true → Completes (exec (.cpMismatch q side) s) fun u => u.port n = { p with
            switching := true
            standbyOk := false
            failedSides := p.failedSides ||| (1 <<< side.toNat) } ∧
          (Map.get source0 u.col.srcs (portSource q side.toNat)).raw = true ∧ u.mem = s.mem ∧ u.out = s.out) ∧
        (p.standbyOk = false → s.outTx = [] → (∀ r ∈ p.rx, r.last = true) →
          Completes (exec (.cpMismatch q side) s) down)) ∧
      (p.switching = true → p.held = [] → p.txq = [] → p.unacked = [] →
        Completes (exec (.switchOverDone q) s) fun u => u.port n = { p with
            switching := false
            side := !p.side
            testing := p.swapping
            swapping := false } ∧ u = { s with ports := u.ports }) ∧
      (p.testing = true →
        (p.swapMbx = none → (Completes (exec (.cpSelfTestDone q true) s) fun u => u.port n = { p with
              testing := false
              standbyOk := true } ∧ u = { s with ports := u.ports }) ∧
          Completes (exec (.cpSelfTestDone q false) s) fun u => (u.port n).standbyOk = false ∧
            (u.port n).failedSides = p.failedSides ||| (1 <<< (1 - p.active)) ∧
            (Map.get source0 u.col.srcs (portSource q 2)).raw = true ∧ u.mem = s.mem) ∧
        ∀ m, p.swapMbx = some m → (s.mbx m).transport = some .svc → (s.mbx m).newOwner = [] →
          Answers (exec (.cpSelfTestDone q true) s) ({ s with free := s.free + 1 }.setPort n { p with
              testing := false
              standbyOk := true
              swapMbx := none }) m stOk 0 (natLe 4 (2000 + (Config.freeValue s.free).toNat % 3001)))

/-! ### Engines, keys and random bits (12 R499 to R532) -/

/-- An idle engine takes its slice's next command; each operation, once Benus has mapped what its inputs touch, gives the
bytes of its standard, or the status of what
fails; a finished command writes its descriptor's words 12 to 14, sends its token and leaves its slice; and the DRBG is
reseeded, stops when the source fails, and starts again. -/
def Obligations.Engines : Prop :=
  (∀ (m : State) (e : BitVec 4) (c : ECmd) (src aux aad : List Byte), let s := m.touchInputs c
    s.inputs c = .ok (src, aux, aad) →
    let log := descBlockLog c.words
    let key (ts : List Nat) (k : Key) : Prop := s.keyOf c.sid (descKey c.words) ts = some k
    let noKey (ts : List Nat) : Prop := s.keyOf c.sid (descKey c.words) ts = none
    let ends (o : Outcome) (k : BitVec 3) (st : Byte) (d : Word) : Prop := Completes o fun u => Finished s u k c st 0 d
    (Works m 0 e opCompress c → let index := bit (descParam c.words) 16
      (descCap c.words < Lenfaim.bound log index src.length → ends (exec (.compress e) m) 0 6 0) ∧
      (Lenfaim.bound log index src.length ≤ descCap c.words →
        Delivers (exec (.compress e) m) (s.compressed log index src).2 0 e c (Lenfaim.compress log index src).1)) ∧
    (Works m 0 e opDecompress c → (Lenfaim.header src = none → ends (exec (.decompress e) m) 0 8 0) ∧
      ∀ lg len, Lenfaim.header src = some (lg, len) → (descCap c.words < len → ends (exec (.decompress e) m) 0 6 0) ∧
        let parts := Lenfaim.decompress lg len src
        let y := (s.bumpBy (lfmBase + 4) parts.length).bumpBy (lfmBase + 0xC) (parts.filter fun p => p.2.isNone).length
        let out := (parts.map fun p => p.2.getD (List.replicate p.1 0)).flatten
        let ws := y.outWords c.sid (descDst c.words) (wordsOf out.length) out
        (len ≤ descCap c.words →
          (parts.findIdx? (fun p => p.2.isNone) = none → Writes (exec (.decompress e) m) y 0 e c ws 0 len 0) ∧
          ∀ i, parts.findIdx? (fun p => p.2.isNone) = some i →
            Writes (exec (.decompress e) m) y.draw.2 0 e c (streamWords ⟨Tag.poison, y.draw.1.setWidth 32⟩ len parts ws) 1 len
              (BitVec.ofNat 32 i))) ∧
    (descCmp c.words = false → ∀ k,
      (Works m 1 e opGcmEnc c → key [1, 2] k →
        Delivers (exec (.gcmEncrypt e) m) s 1 e c (Aes.gcmEncrypt k.material aux aad src)) ∧
      (Works m 1 e opGcmDec c → key [1, 2] k → (Aes.gcmDecrypt k.material aux aad src = none →
          ends (exec (.gcmDecrypt e) m) 1 2 0) ∧
        ∀ p, Aes.gcmDecrypt k.material aux aad src = some p → Delivers (exec (.gcmDecrypt e) m) s 1 e c p) ∧
      (Works m 1 e opXtsEnc c → key [3, 4] k →
        Delivers (exec (.xtsEncrypt e) m) s 1 e c (Aes.xts true k.material aux src)) ∧
      (Works m 1 e opXtsDec c → key [3, 4] k →
        Delivers (exec (.xtsDecrypt e) m) s 1 e c (Aes.xts false k.material aux src)) ∧
      (Works m 1 e opCtr c → key [1, 2] k →
        Delivers (exec (.ctr e) m) s 1 e c (Aes.ctrCrypt (Aes.roundKeys k.material) aux src)) ∧
      (Works m 1 e opCtr c → noKey [1, 2] → ends (exec (.ctr e) m) 1 7 0)) ∧
    (∀ k, (Works m 2 e opSha256 c → Delivers (exec (.sha256 e) m) s 2 e c (Digest.sha256 src)) ∧
      (Works m 2 e opSha384 c → Delivers (exec (.sha384 e) m) s 2 e c (Digest.sha384 src)) ∧
      (Works m 2 e opSha3 c → Delivers (exec (.sha3_256 e) m) s 2 e c (Digest.sha3_256 src)) ∧
      (Works m 2 e opHmac256 c → key [5] k →
        Delivers (exec (.hmacSha256 e) m) s 2 e c (Digest.hmacSha256 k.material src)) ∧
      (Works m 2 e opHmac384 c → key [6] k →
        Delivers (exec (.hmacSha384 e) m) s 2 e c (Digest.hmacSha384 k.material src))) ∧
    (∀ o ∈ ([(.signP256 e, opSign256, Ecdsa.p256, 7), (.signP384 e, opSign384, Ecdsa.p384, 8)] :
        List (Instr × Nat × Ecdsa.Curve × Nat)), ∀ k, Works m 3 e o.2.1 c → key [o.2.2.2] k →
      (s.drbgRuns = false → ends (exec o.1 m) 3 9 0) ∧
      (s.drbgRuns = true → let r := s.signWith o.2.2.1 (beNat k.material) src 64
        Delivers (exec o.1 m) r.2 3 e c r.1)) ∧
    (∀ o ∈ ([(.verifyP256 e, opVerify256, Ecdsa.p256), (.verifyP384 e, opVerify384, Ecdsa.p384)] :
        List (Instr × Nat × Ecdsa.Curve)), Works m 3 e o.2.1 c → let n := o.2.2.bytes
      let good := Ecdsa.verify o.2.2 (beNat (aux.take n)) (beNat (aux.drop n)) (src.take n) (src.drop n)
      ends (exec o.1 m) 3 (if good = true then 0 else 3) 0) ∧
    (Works m 4 e opRandom c → (s.drbgRuns = false → ends (exec (.random e) m) 4 9 0) ∧
      (s.drbgRuns = true → let r := s.random (descCap c.words)
        Delivers (exec (.random e) m) r.2 4 e c r.1)) ∧
    (∀ i, s.freeKeyFrom (s.keys.length + 1) 0 = some i → s.keysOf c.part < (s.part c.part).keyQuota →
      let g := if (s.key i).gen = 0 then 1 else (s.key i).gen
      let makes (o : Outcome) (typ : Nat) (p : List Byte → Prop) : Prop := Completes o fun u => ∃ x, p x ∧
        u.key i = { inUse := true, gen := g, sid := c.sid, typ := BitVec.ofNat 8 typ, material := x } ∧
        (∀ j, j ≠ i → u.key j = s.key j) ∧ (u.slice 4 c.slice).queue = [{ c with
          status := some 0
          outLen := 0
          detail := BitVec.ofNat 32 (g.toNat * 2 ^ 17 + i) }] ∧ u.mem = s.mem
      (Works m 4 e opKeygen c → s.drbgRuns = true → let typ := field (descParam c.words) 3 0
        1 ≤ typ → typ ≤ 8 → makes (exec (.keygen e) m) typ fun x => x.length = keyBytes typ) ∧
      (Works m 4 e opKeyimport c → let typ := bytesAt src 1 1
        ∀ y, Aes.gcmDecrypt (s.spaceWrapKey c.sid) ((src.drop 8).take 12) (src.take 8) (src.drop 20) = some y →
          bytesAt src 0 1 = 1 → keyBytes typ ≠ 0 → bytesAt src 2 2 = keyBytes typ → bytesAt src 4 2 = c.sid.toNat →
          bytesAt src 6 2 = 0 → (y.drop (keyBytes typ)).all (· == 0) = true →
          makes (exec (.keyimport e) m) typ fun x => x = y.take (keyBytes typ))) ∧
    (Works m 4 e opKeyimport c →
      Aes.gcmDecrypt (s.spaceWrapKey c.sid) ((src.drop 8).take 12) (src.take 8) (src.drop 20) = none →
      ends (exec (.keyimport e) m) 4 12 0) ∧
    ∀ k, key [1, 2, 3, 4, 5, 6, 7, 8] k →
      (Works m 4 e opKeyexport c → s.drbgRuns = true → let r := s.random 12
        Delivers (exec (.keyexport e) m) r.2 4 e c (blobHead k ++ r.1 ++ Aes.gcmEncrypt (s.spaceWrapKey c.sid) r.1
          (blobHead k) (k.material ++ List.replicate (64 - k.material.length) 0))) ∧
      (Works m 4 e opKeydestroy c → Completes (exec (.keydestroy e) m) fun u =>
        let i := field (descKey c.words) 16 0
        u.key i = { key0 with gen := nextGen (s.key i).gen } ∧ (∀ j, j ≠ i → u.key j = s.key j) ∧
        Finished { s with keys := u.keys } u 4 c 0 0 0) ∧
      (Works m 4 e opPubkey c → k.typ = 7 ∨ k.typ = 8 → Delivers (exec (.pubkey e) m) s 4 e c
        (Ecdsa.publicKey (if k.typ = 7 then Ecdsa.p256 else Ecdsa.p384) (beNat k.material)))) ∧
  (∀ (s : State) (k : BitVec 3) (e : BitVec 4) (n : BitVec 6) (sl : Slice) (c : ECmd),
    (e.toNat < engineCount k → s.running k e = none → (s.eclass k).slices = [(n.toNat, sl)] → sl.queue = [c] →
      c.slice = n → c.engine = none → c.status = none → sl.credit ≠ 0 →
      let takes (st : Option Byte) : Prop := Completes (exec (.engineDispatch k e) s) fun u =>
        u.slice k n = { sl with
          credit := sl.credit - 1
          queue := [{ c with
            engine := some e
            status := st }] } ∧ (∀ j, j ≠ k → u.eclass j = s.eclass j) ∧ u = { s with classes := u.classes }
      (s.engineFailed k e.toNat = false → takes none) ∧ (s.engineLeft k = false → takes (some 11))) ∧
    ∀ (st : Byte) (y12 y13 y14 : State), s.running k e = some c → c.status = some st → c.slice = n → s.slice k n = sl →
      sl.queue = [c] → sl.state ≠ slQuiescing → s.spaceWrite c.sid (c.desc + 12) (TWord.int (st.setWidth 32)) = .ok y12 →
      y12.spaceWrite c.sid (c.desc + 13) (TWord.int (BitVec.ofNat 32 c.outLen)) = .ok y13 →
      y13.spaceWrite c.sid (c.desc + 14) (TWord.int c.detail) = .ok y14 → y14.classes = s.classes →
      let at_ := engBase k + 0x400 + 16 * n.toNat
      let w0 := c.words.headD 0
      Completes (exec (.engineComplete k e) s) fun u => u.slice k n = { sl with queue := [] } ∧ u.mem = y14.mem ∧
        u.reg (at_ + 8) = BitVec.ofNat 32 (min 0xFFFFFFFF ((y14.reg (at_ + 8)).toNat + 1)) ∧
        (isNullCtx (y14.eventCtx c.part) = true → u.retained = y14.retained) ∧
        (isNullCtx (y14.eventCtx c.part) = false → ∃ r : Retained, u.retained = y14.retained ++ [r] ∧
          r.snd.who = .engine k e ∧ r.tok = mkToken (y14.eventCtx c.part) (w0.setWidth 16) 0 ((w0 >>> 16).setWidth 2) flEvt
            (y14.ringSid c.part) ⟨Tag.ptr, c.desc⟩)) ∧
  ∀ s : State,
    (s.drbgRuns = true → Completes (exec .drbgReseed s) fun u => u.drbg = 0 ∧
      u.regField esStat 15 0 = min 0xFFFF (s.regField esStat 15 0 + 1) ∧ u = { s with
        regs := u.regs
        drbg := 0 }) ∧
    (Completes (exec .entropyHealthFail s) fun u => u.drbgRuns = false ∧ bit (u.reg esStat) 30 = true ∧
      bit (u.reg esStat) 31 = false ∧ (Map.get source0 u.col.srcs (engineSource 22)).raw = true ∧
      (∃ r ∈ u.col.store, r.fr.kind = 1 ∧ r.fr.source = BitVec.ofNat 16 (engineSource 22) ∧ r.fr.recno = s.ben.nextRec + 1) ∧
      u.mem = s.mem) ∧
    (bit (s.reg esStat) 30 = true → Completes (exec .entropyRecovery s) fun u => u.drbgRuns = true ∧ u.drbg = 0 ∧ u = { s with
      regs := u.regs
      drbg := 0 })

/-! ### Reliability (13 R543 to R568) -/

/-- A spare takes over the logical cell of a failed one; a pair's commit point passes when its digests agree and is tried
again when they do not; a divergence fails its context; samples, windows, wire faults and storms change a source's counts,
bits and records; and ALIVE toggles while it is fed. -/
def Obligations.Reliability : Prop :=
  (∀ (s : State) (c : CellId) (p : Nat), s.col.copying = [(c, p)] → p < 18 → s.col.store = [] →
    Completes (exec (.spareResume c []) s) fun u => u.regField (clcCell c 0xF40) 9 8 = 0 ∧
      u.regField (clcCell c 0xF40) 4 0 = p ∧ u.col = { s.col with copying := [] } ∧
      (u.cell c).stopped = false ∧ (u.cell c).lines = [] ∧ (u.cell c).tlb = [] ∧ (u.cell c).inq = (s.cell c).inq ∧
      (∀ k, let t := s.slot c k
        t.state = .run ∨ t.state = .handler → t.wait = .none → (u.slot c k).pc = t.shadow.pc ∧
          (u.slot c k).regs = t.shadow.regs ∧ (u.slot c k).retries = 0 ∧ (u.slot c k).lost = false) ∧
      u.mem = s.mem ∧ u.frames = s.frames) ∧
  (∀ (s : State) (c : CellId) (k : SlotId), let t := s.slot c k
    (s.atExchange c k = true →
      (∀ d : BitVec 64, exec (.twinDigest c k d d) s = .next (s.setSlot c k { t with
        wait := .none
        agreed := true })) ∧
      let tries (o : Outcome) : Prop := s.reg (pmcCell c + 0xC0) = 0 → Completes o fun u =>
        (Map.get source0 u.col.srcs (clusterSource (clusterOf c) 26)).raw = true ∧
        (u.slot c k).retries = t.retries + 1 ∧ (u.slot c k).pc = t.shadow.pc ∧ (u.slot c k).regs = t.shadow.regs ∧
        (t.retries + 1 ≤ s.retryMax c → (u.slot c k).lost = t.lost ∧ u.col.selfTests = s.col.selfTests) ∧
        (s.retryMax c < t.retries + 1 → (u.slot c k).lost = true ∧ u.col.selfTests = s.col.selfTests ++ [(c, k)]) ∧
        u.mem = s.mem ∧ u.frames = s.frames
      (∀ d e : BitVec 64, d ≠ e → tries (exec (.twinDigest c k d e) s)) ∧ tries (exec (.twinTimeout c k) s)) ∧
    (s.col.selfTests = [(c, k)] →
      (∀ f, f = frameOf t.act.ctx → s.items = [] → (s.frame f).state ≠ stFree → (s.frame f).state ≠ stComplete → (s.frame f).state ≠ stFailed →
        Completes (exec (.twinSelfTestDone c k true true) s) fun u => (u.frame f).state = stFailed ∧
          (∃ r ∈ u.col.store, r.fr.kind = 6 ∧ r.fr.recno = s.ben.nextRec + 1 ∧ r.fr.ctx = t.act.ctx) ∧
          u.col.selfTests = [] ∧ u.mem = s.mem) ∧
      (∀ p, s.regField (clcCell c 0xF40) 9 8 = 0 →
        (s.markFailed (clusterOf c) (s.regField (clcCell c 0xF40) 4 0)).freeSpare (clusterOf c) = some p →
        Completes (exec (.twinSelfTestDone c k false true) s) fun u => u.col.copying = s.col.copying ++ [(c, p)] ∧
          (u.cell c).stopped = true ∧ u.regField (clcCell c 0xF40) 9 8 = 1 ∧ (u.slot c k).retries = 0 ∧
          (u.slot c k).lost = false ∧ u.mem = s.mem))) ∧
  (∀ (s : State) (src : BitVec 11), let i := src.toNat
    let g := i / 32
    let x := s.source i
    let cnt := s.regField (srcCntAt i) 7 0
    let latched := bit (s.reg (fclBase + 0x400 + 4 * g)) (i % 32)
    i < 1536 → s.tstOpen = false →
    (s.col.srcs = [(i, x)] →
      (x.raw = true → x.asserted = false → x.storm = false → x.openWin = true → x.pending = false → latched = false →
        s.srcEnabled i = true →
        let seen (u : State) : Prop := (u.source i).asserted = true ∧ (u.source i).raw = false ∧
          u.regField (srcCntAt i) 7 0 = min 255 (cnt + 1) ∧
          u.regField (srcCntAt i) 31 8 = min (2 ^ 24 - 1) (s.regField (srcCntAt i) 31 8 + 1) ∧ u.mem = s.mem
        (cnt + 1 < s.srcN i → x.interval < s.regField fclBase 15 0 →
          Completes (exec (.faultSample []) s) fun u => seen u ∧
            ∃ r ∈ u.col.store, r.fr.kind = 1 ∧ r.fr.source = src.setWidth 16 ∧ r.isOpen = false ∧
              r.fr.recno = s.ben.nextRec + 1) ∧
        (s.srcN i ≤ cnt + 1 → cnt < 255 → s.srcReact i = 0 → s.openRecord g = none →
          Completes (exec (.faultSample []) s) fun u => seen u ∧ bit (u.reg (fclBase + 0x200 + 4 * g)) (i % 32) = true ∧
            ∃ r ∈ u.col.store, r.fr.kind = 2 ∧ r.fr.source = src.setWidth 16 ∧ r.isOpen = true ∧
              r.fr.recno = s.ben.nextRec + 1)) ∧
      (Completes (exec (.faultSample [(src, 3)]) s) fun u => u.source i = { x with
          raw := false
          rails := 3
          samples := min 4 (x.samples + 1) } ∧ u = { s with col := u.col })) ∧
    (4 ≤ x.samples → latched = false → i % 32 ≠ 31 → s.srcEnabled (32 * g + 31) = false →
      Completes (exec (.wireFault src) s) fun u => bit (u.reg (fclBase + 0x400 + 4 * g)) (i % 32) = true ∧
        (u.source i).asserted = false ∧ (u.source (32 * g + 31)).asserted = true ∧ u = { s with
          regs := u.regs
          col := u.col }) ∧
    (x.rails = 1 ∨ x.rails = 2 → latched = true → Completes (exec (.wireFaultClear src) s) fun u =>
      bit (u.reg (fclBase + 0x400 + 4 * g)) (i % 32) = false ∧
      (u.reg (fclBase + 0x400 + 4 * g) = 0 → (u.source (32 * g + 31)).asserted = false) ∧ u = { s with
        regs := u.regs
        col := u.col }) ∧
    (x.openWin = true → x.asserted = false → Completes (exec (.faultWindowEnd src) s) fun u =>
      (u.source i).openWin = false ∧ u.regField (srcCntAt i) 7 0 = 0 ∧
      bit (u.reg (fclBase + 0x200 + 4 * g)) (i % 32) = false ∧
      u.regField (srcCntAt i) 31 8 = s.regField (srcCntAt i) 31 8 ∧ u = { s with
        regs := u.regs
        col := u.col }) ∧
    (x.storm = false → Completes (exec (.stormIntervalEnd src) s) fun u => u.source i = { x with interval := 0 } ∧
      (∀ j, j ≠ i → u.source j = s.source j) ∧ u = { s with col := u.col }) ∧
    (x.storm = true → 4 * x.interval < s.regField fclBase 15 0 → x.kept = none →
      Completes (exec (.stormIntervalEnd src) s) fun u => u.source i = { x with
          interval := 0
          storm := false
          stormEvents := 0 } ∧
        ∃ r ∈ u.col.store, r.fr.kind = 10 ∧ r.fr.count = BitVec.ofNat 32 x.stormEvents ∧
          r.fr.recno = s.ben.nextRec + 1)) ∧
  ∀ s : State,
    (∀ r : Stored, s.ben.running = true → s.col.store = [r] → r.logged = false → r.isOpen = false →
      Completes (exec (.recordLogged r.fr.recno) s) fun u => u.col = { s.col with store := [] } ∧
        (∃ e ∈ u.ben.ram, e.typ = 1 ∧ e.body = recBytes r.fr ∧ e.lseq = s.ben.lseq + 1) ∧ u = { s with
          col := u.col
          ben := u.ben }) ∧
    (bit (s.reg (fclBase + 8)) 31 = false → exec .aliveToggle s = .next { s with col := { s.col with
      aliveA := !s.col.aliveA
      aliveB := s.col.aliveA } }) ∧
    (s.col.armed = false ∨ s.col.collectorFed = false →
      exec .watchdogFeedBenus s = .next { s with col := { s.col with benusFed := true } }) ∧
    (s.col.armed = false ∨ s.col.benusFed = false →
      exec .watchdogFeedCollector s = .next { s with col := { s.col with collectorFed := true } }) ∧
    (s.col.armed = true →
      let starts (o : Outcome) : Prop := Completes o fun u => u.col = { s.col with
          benusFed := true
          collectorFed := true
          armed := false
          aliveA := true
          aliveB := false } ∧ bit (u.reg (fclBase + 8)) 31 = false ∧ u = { s with
            regs := u.regs
            col := u.col }
      (s.col.collectorFed = true → starts (exec .watchdogFeedBenus s)) ∧
        (s.col.benusFed = true → starts (exec .watchdogFeedCollector s))) ∧
    ∀ b : Bool, bit (s.reg (fclBase + 8)) 31 = false → Completes (exec (.aliveFeedMissing b) s) fun u =>
      bit (u.reg (fclBase + 8)) 31 = true ∧ u.regField (fclBase + 8) 30 29 = (if b = true then 2 else 3) ∧
      u.col.aliveA = false ∧ u.col.aliveB = false ∧ (u.source (platSource 9)).raw = true ∧ u = { s with
        regs := u.regs
        col := u.col }

/-! ### Benus and what it tells (14 R580 to R598, R603, R612 to R618, R623 to R627) -/

/-- Doorbells, framed requests, cancel requests and sessions: a request waits in its mailbox, one that comes while another
waits is refused, and one that may not come is answered at once. -/
def Obligations.MailboxesTakeRequests : Prop :=
  ∀ (s : State) (m : BitVec 5), let b := s.mbx m
    let free : Prop := b.state = mbIdle ∨ b.state = mbDone
    let busy : Prop := b.state = mbQueued ∨ b.state = mbRunning
    let only (u : State) (x : Mailbox) : Prop := u.mbx m = x ∧ (∀ n, n ≠ m → u.mbx n = s.mbx n) ∧ u = { s with ben := { s.ben with
        mbx := u.ben.mbx
        order := u.ben.order } }
    let irq (t : Transport) (on : Bool) : Mailbox := match t with
      | .pcie _ => { b with irqEn := on }
      | _ => b
    let waits (o : Outcome) (x : Mailbox) (req : List Byte) : Prop := Completes o fun u =>
      u.ben.order = s.ben.order.filter (· != m) ++ [m] ∧ only u { x with
        state := mbQueued
        request := req
        response := []
        block := none
        progress := 0 }
    let overruns (o : Outcome) (x : Mailbox) : Prop := Completes o fun u => u.ben.order = s.ben.order ∧ only u { x with overrun := true }
    let tells (o : Outcome) (req : List Byte) (status : Nat) : Prop :=
      o = .next { s with out := s.out ++ [.response m (responseBytes req status 0 [])] }
    let framed (o : Outcome) (req : List Byte) : Prop :=
      (isCancel req = false → (free → waits o b req) ∧ (busy → tells o req stBusy)) ∧
      (isCancel req = true →
        (b.state = mbQueued → b.tag = bytesAt req 4 4 → b.newOwner = [] → Answers o s m stCancelled 0 []) ∧
        (b.state = mbRunning → b.tag = bytesAt req 4 4 → o = .next s) ∧
        (free ∨ b.tag ≠ bytesAt req 4 4 → overruns o b))
    (∀ (t : Transport) (on : Bool) (req : List Byte),
      (b.transport = some t → (free → waits (exec (.mbxDoorbell m t on req) s) (irq t on) req) ∧
        (busy → overruns (exec (.mbxDoorbell m t on req) s) (irq t on))) ∧
      (b.transport = none → tells (exec (.mbxDoorbell m t on req) s) req stIdentity) ∧
      (∀ t', b.transport = some t' → sameTransport t t' = false → exec (.mbxDoorbell m t on req) s = .next s)) ∧
    (∀ (on : Bool) (tag : Word),
      (b.transport = some .svc →
        (b.state = mbQueued → b.tag = tag.toNat → b.newOwner = [] →
          Answers (exec (.mbxCancel m .svc on tag) s) s m stCancelled 0 []) ∧
        (b.state = mbRunning → b.tag = tag.toNat → exec (.mbxCancel m .svc on tag) s = .next s) ∧
        (free ∨ b.tag ≠ tag.toNat → overruns (exec (.mbxCancel m .svc on tag) s) b)) ∧
      ∀ k, b.transport = some (.pcie k) →
        (b.state = mbQueued → b.newOwner = [] → Completes (exec (.mbxCancel m (.pcie k) on tag) s) fun u =>
          (u.mbx m).state = mbDone ∧ (u.mbx m).response = responseBytes b.request stCancelled 0 [] ∧
          u.out = s.out ++ (if on = true then [.msix m] else [])) ∧
        (free → overruns (exec (.mbxCancel m (.pcie k) on tag) s) (irq (.pcie k) on))) ∧
    (∀ req, b.transport = some .svc → b.owner = whoService → framed (exec (.svcRequest m req) s) req) ∧
    (∀ req, b.transport ≠ some .svc ∨ b.owner ≠ whoService → tells (exec (.svcRequest m req) s) req stIdentity) ∧
    ∀ (k : BitVec 3) (fp : BitVec 384), s.mgtMbx fp = some m →
      (∀ req, Map.get none s.ben.tls k.toNat = some fp → framed (exec (.mgtRequest k req) s) req) ∧
      (Map.get none s.ben.tls k.toNat = none → s.ben.running = true → Completes (exec (.tlsSessionOpen k fp) s) fun u =>
        Map.get none u.ben.tls k.toNat = some fp ∧ u = { s with ben := { s.ben with tls := u.ben.tls } }) ∧
      Completes (exec (.tlsIdleTimeout k) s) fun u =>
        Map.get none u.ben.tls k.toNat = none ∧ u = { s with ben := { s.ben with tls := u.ben.tls } }

/-- A start makes the module ready once the identity exchange has run on every connected fabric port, and waits for it
before; a slot that fails its check stops it; Benus restarts alone; a waiting command starts once its checks pass; the log, the
calendar and the sensors change as their commands say. The first start's clause rests on assumption 4. -/
def Obligations.BenusRuns : Prop :=
  (∀ (s : State) (t : BitVec 64), s.ben.ready = false → s.ben.exchanging = false → s.plat.standbyOnly = false →
    s.plat.seqHold = false → s.plat.flushed = none → s.parts = [] → s.ledger = [] → s.ben.config = [] →
    (∀ m : BitVec 5, (s.mbx m).state ≠ mbRunning) →
    let start (o : State → Prop) : Prop := Completes (exec (.moduleStart ⟨[], []⟩ (some t)) s) o
    (s.slotVerified 1 = false → exec (.moduleStart ⟨[], []⟩ (some t)) s = .next s.trialFailed) ∧
    (s.slotVerified 1 = true → s.slotVerified 2 = false ∨ s.slotVerified 3 = false → start fun u =>
      u.ben.ready = false ∧ u.ben.exchanging = false ∧ u.ben.running = true ∧ u.plat.rails = 15 ∧ u.clusters = s.clusters) ∧
    ((∀ k, 1 ≤ k → k ≤ 3 → s.slotVerified k = true) → start fun u =>
      u.ben.ready = s.exchanged ∧ u.ben.exchanging = !s.exchanged ∧ u.ben.recovered = true ∧ u.ben.running = true ∧
      u.mem = [] ∧ u.now = t ∧ u.plat.rails = 15 ∧ (s.tn = 0 → u.tn = 65536) ∧
      (∀ a ∈ lockRegs, bit (u.reg a) 31 = true) ∧
      (s.exchanged = true → ∀ n : BitVec 4, n.toNat < 8 → (u.port n).standbyOk = true) ∧
      (∀ g : BitVec 4, (u.cluster g).newBank = false ∧ (u.cluster g).bank0 = (s.fwKind 2).ucImage (s.fwKind 2).active) ∧
      (∀ g p, g < 16 → p < 18 → Map.get false s.col.failMark (g * 32 + p) = false → u.regField (clcBase g + 0xC40 + 4 * p) 0 0 = 1) ∧
      (s.ben.rootKey = [] → u.ben.rootKey.length = 48 ∧ (s.ben.mbx = [] → u.mbx 0 = firstMailbox)) ∧
      (s.ben.rootKey ≠ [] → u.ben.rootKey = s.ben.rootKey))) ∧
  (∀ s : State,
    (s.ben.running = false → s.ben.ready = true →
      ((∀ m : BitVec 5, (s.mbx m).state = mbRunning → m ∈ s.ben.journal) →
        Completes (exec (.benusRestart false) s) fun u => u.ben.running = true ∧ u.ben.tls = [] ∧ u = { s with ben := u.ben } ∧
          ∀ m : BitVec 5, u.mbx m = if (s.mbx m).state = mbRunning then { (s.mbx m) with restarted := true } else s.mbx m) ∧
      (∀ m : BitVec 5, (s.mbx m).state = mbRunning → (∀ n, n ≠ m → (s.mbx n).state ≠ mbRunning) → m ∉ s.ben.journal →
        (s.mbx m).newOwner = [] → (s.mbx m).transport = some .svc → Completes (exec (.benusRestart false) s) fun u =>
          u.ben.running = true ∧ (u.mbx m).state = mbDone ∧
          (u.mbx m).response = responseBytes (s.mbx m).request stInterrupted 0 []) ∧
      ((s.fwKind 1).trial = true →
        ((s.fwKind 1).trialFails < 2 → Completes (exec (.benusRestart true) s) fun u => u.ben.running = false ∧
          u.fwKind 1 = { (s.fwKind 1) with trialFails := (s.fwKind 1).trialFails + 1 }) ∧
        (2 ≤ (s.fwKind 1).trialFails → Completes (exec (.benusRestart true) s) fun u => u.fwKind 1 = { (s.fwKind 1) with
            active := !(s.fwKind 1).active
            trial := false
            trialFails := 0 } ∧ ∃ e ∈ u.ben.ram, e.typ = 7 ∧ e.lseq = s.ben.lseq + 1))) ∧
    (s.ben.running = true →
      (Completes (exec .benusLockstepMismatch s) fun u => u.ben = { s.ben with running := false } ∧
        (u.source (platSource 0)).raw = true ∧ u = { s with
          ben := u.ben
          col := u.col }) ∧
      (logBytes (s.ben.flash ++ s.ben.ram) ≤ 2 ^ 29 → exec .logFlashWrite s = .next { s with ben := { s.ben with
        flash := s.ben.flash ++ s.ben.ram
        ram := [] } }) ∧
      (∀ r, s.isHart = true → exec (.logForward (some r)) s =
        .next { s with ben := { s.ben with hartLog := s.ben.hartLog ++ [r] } }) ∧
      (∀ r, s.isHart = false → s.upstreamPort.isSome = true →
        (s.ben.flash ++ s.ben.ram).find? (fun x => decide (s.ben.forwarded < x.lseq)) = some r →
        exec (.logForward none) s = .next { s with
          ben := { s.ben with forwarded := r.lseq }
          out := s.out ++ [.log r] }) ∧
      exec .calendarStore s = .next { s with ben := { s.ben with calStored := s.ben.tai } } ∧
      ∀ r : Reading, r.id.toNat < 0x10 → r.failed = false →
        let i := r.id.toNat
        let x := s.sensor i
        let v := r.value.toInt
        let st : BitVec 3 := if 1050 < v then 2 else if 950 < v then 1 else 0
        Completes (exec (.sensorSample [r]) s) fun u =>
          u.sensor i = { x with
            value := r.value
            seen := true
            low := if x.seen = false ∨ v < x.low.toInt then r.value else x.low
            high := if x.seen = false ∨ x.high.toInt < v then r.value else x.high
            state := st } ∧
          (∀ j, j ≠ i → u.sensor j = s.sensor j) ∧
          (st ≠ x.state → ∃ e ∈ u.ben.ram, e.typ = 6 ∧ e.lseq = s.ben.lseq + 1 ∧ e.body = sensorBytes i 0 (u.sensor i)) ∧
          (st = x.state → u.ben.ram = s.ben.ram) ∧
          (st = 2 → x.state ≠ 2 → (u.source (platSource 5)).raw = true) ∧
          (1150 < v → u.plat = s.plat) ∧ (v ≤ 1150 → u.plat.protect.getLsbD i = false) ∧
          u = { s with
            ben := u.ben
            col := u.col
            plat := { s.plat with protect := u.plat.protect } })) ∧
  ∀ (s : State) (m : BitVec 5), let b := s.mbx m
    (s.ben.running = true → b.state = mbQueued → s.runningMbx.length < 8 → s.heldBack m = false →
      (s.checkRequest b = none → b.owner ≠ whoHart → Completes (exec (.commandStart m) s) fun u =>
        u.mbx m = { b with
          state := mbRunning
          progress := 0 } ∧ (∀ n, n ≠ m → u.mbx n = s.mbx n) ∧
        u.ben.journal = (if b.cmd / 256 = 0 then s.ben.journal else s.ben.journal ++ [m]) ∧
        u = { s with ben := { s.ben with
          mbx := u.ben.mbx
          journal := u.ben.journal } }) ∧
      ∀ status detail, s.checkRequest b = some (status, detail) → b.newOwner = [] → b.transport = some .svc →
        Answers (exec (.commandStart m) s) s m status detail []) ∧
    (2032 < b.len ∨ b.payload.length < b.len → s.checkRequest b = some (stLength, 0)) ∧
    (b.len ≤ 2032 → b.payload.length = b.len →
      (8 ≤ b.cmd / 256 → s.checkRequest b = some (stUnknown, 0)) ∧
      (knownCmd b.cmd = true → lenOk b.cmd b.len b.payload = true →
        (b.classes.getLsbD (b.cmd / 256) = false → s.checkRequest b = some (stClass, 0)) ∧
        (b.classes.getLsbD (b.cmd / 256) = true → whoMay b.cmd b = false → s.checkRequest b = some (stIdentity, 0))))

/-- The commands of class INFO answer with what the machine holds, and change nothing else. -/
def Obligations.InformationCommands : Prop :=
  ∀ (s : State) (m : BitVec 5) (r : List Byte), let b := s.mbx m
    (Runs s m 0x0001 r → Answers (exec (.modIdentity m) s) s m stOk 0
      (natLe 2 s.hier.modn.toNat ++ [s.hier.role.setWidth 8, 0x21]
        ++ ([1, 2, 3].map fun k => natLe 2 ((s.fwKind k).version k (s.fwKind k).active)).flatten ++ [0, 0]
        ++ orderText ++ serialText)) ∧
    (Runs s m 0x0002 r → let first := bytesAt r 0 2
      let n := bytesAt r 2 2
      ((∀ i, i < n → (sensorUnit ((first + i) % 65536)).isSome = true ∧ (s.sensor ((first + i) % 65536)).seen = true) →
        Answers (exec (.sensorRead m) s) s m stOk 0 (((List.range n).map fun i => let id := (first + i) % 65536
          sensorBytes id ((sensorUnit id).getD 0) (s.sensor id)).flatten)) ∧
      (n = 1 → sensorUnit (first % 65536) = none → ∃ (y : State) (unit : Byte) (bs : List Byte), bs.length = 8 ∧
        y = { s with free := y.free } ∧ Answers (exec (.sensorRead m) s) y m stOk 0
          (natLe 2 (first % 65536) ++ [unit, 3, 0, 0, 0, 0] ++ bs))) ∧
    (Runs s m 0x0003 r → let held := s.ben.flash ++ s.ben.ram
      let past := held.filter fun x => decide (bytesAt r 0 4 ≤ x.lseq.toNat)
      let shown := past.filter fun x => bit (BitVec.ofNat 32 (bytesAt r 4 4)) x.typ.toNat &&
        (b.owner != whoSupervisor || x.part == b.part.setWidth 8)
      let bs := (shown.map logRecBytes).flatten
      let last := (held.getLast?.map fun x => x.lseq.toNat).getD s.ben.lseq.toNat
      (bytesAt r 10 2 = 0xFFFF ∨ bytesAt r 10 2 = s.hier.modn.toNat → bs.length ≤ bytesAt r 8 2 →
        Answers (exec (.logRead m) s) s m stOk 0
          (natLe 4 ((held.head?.map fun x => x.lseq.toNat).getD (last + 1))
            ++ natLe 4 ((past.getLast?.map fun x => x.lseq.toNat + 1).getD (last + 1)) ++ bs)) ∧
      (bytesAt r 10 2 ≠ 0xFFFF → bytesAt r 10 2 ≠ s.hier.modn.toNat → s.hier.role ≠ 1 → s.hier.role ≠ 2 →
        Answers (exec (.logRead m) s) s m stNotFound 0 [])) ∧
    (Runs s m 0x0004 r → b.owner ≠ whoSupervisor → ∀ p, s.partOfSid (BitVec.ofNat 16 (bytesAt r 0 2)) = some p →
      bytesAt r 0 2 % 65536 ≠ 0 →
      let mine := (s.ledger.map Prod.snd).filter fun e => e.state != ldFree && e.sid == BitVec.ofNat 16 (bytesAt r 0 2)
      let doubt := mine.filter fun e => e.state == ldInDoubt
      let shown := (doubt.drop (bytesAt r 2 2)).take 31
      Answers (exec (.ledgerStatus m) s) s m stOk 0 (natLe 4 mine.length ++ natLe 4 doubt.length
        ++ natLe 4 (s.part p).ledgerQuota ++ natLe 4 shown.length ++ (shown.map fun e => (e.words.map wordBytes).flatten).flatten)) ∧
    (Runs s m 0x0005 r → Answers (exec (.timeGet m) s) s m stOk 0
      (natLe 8 s.ben.tai.toNat ++ natLe 4 s.ben.taiNs.toNat ++ natLe 2 s.ben.utcOff.toNat ++ [s.ben.calSource]
        ++ natLe 1 ((if s.ben.calValid = true then 1 else 0) + (if s.hier.holdover = true then 2 else 0)
          + (if s.ben.backup = true then 4 else 0)) ++ natLe 8 s.now.toNat)) ∧
    (Runs s m 0x0006 r → ∃ (y : State) (bs : List Byte), y = { s with free := y.free } ∧ bs.length = 240 ∧
      (∀ k, k < 20 → let e := Map.get (0, 0) s.memErrs k
        let failed := bit (s.reg (dirBase (4 * (k / 5)) + 0x18)) (k % 5)
        (bs.drop (12 * k)).take 2 = natLe 1 k ++ [if failed = true then 1 else 0] ∧
          (bs.drop (12 * k + 4)).take 8 = natLe 4 e.1 ++ natLe 4 e.2) ∧
      Answers (exec (.memTelemetry m) s) y m stOk 0 bs) ∧
    (Runs s m 0x0007 r → Answers (exec (.fwStatus m) s) s m stOk 0 (([1, 2, 3].map s.fwEntry).flatten) ∧
      ∀ k, k = 1 ∨ k = 2 ∨ k = 3 → let x := s.fwKind k
        let st := s.staged k
        (s.fwEntry k).take 3 = [BitVec.ofNat 8 k, if x.active = true then 1 else 0,
          if st.complete = true then 2 else if st.bytes = [] then 0 else 1] ∧
        (s.fwEntry k).drop 4 = natLe 2 (x.baseVersion k false) ++ natLe 2 (x.baseVersion k true)
          ++ natLe 2 (imageVersion (x.over x.active)) ++ natLe 2 x.counter ++ natLe 4 st.bytes.length)

/-! ### Management (14 R603 to R610, R625, R627; 07 R284, R310, R313; 08 R325, R361; 09 R391 to R398) -/

/-- The commands of class PART: what each leaves when its objects are there and its fields allow it, and that a partition that
does not exist is NOT_FOUND. -/
def Obligations.PartitionCommands : Prop :=
  ∀ (s : State) (m : BitVec 5) (r : List Byte),
    let half (o : Nat) : BitVec 16 := BitVec.ofNat 16 (bytesAt r o 2)
    let word (o : Nat) : Word := BitVec.ofNat 32 (bytesAt r o 4)
    let p := BitVec.ofNat 6 (bytesAt r 0 1)
    let x := s.part p
    let ok (o : Outcome) (post : State → Prop) : Prop := ∃ y, post y ∧ Answers o y m stOk 0 []
    let mapOnly (y : State) : Prop := y = { s with parts := y.parts } ∧ ∀ q, q ≠ p → y.part q = s.part q
    (∀ code c, (code, c) ∈ ([(0x0102, .partQuiesce m), (0x0103, .partDestroy m), (0x0104, .partCellarSet m),
        (0x0105, .partVectorSet m), (0x0106, .partEventSet m), (0x0109, .cacheWaysSet m), (0x010C, .placePinSet m),
        (0x010D, .workqSet m), (0x010F, .twinResync m), (0x0208, .ledgerQuotaSet m)] : List (Nat × Instr)) →
      Runs s m code r → x.isLive = false → Answers (exec c s) s m stNotFound 0 []) ∧
    (Runs s m 0x0101 r →
      (x.isLive = true → Answers (exec (.partCreate m) s) s m stState 0 []) ∧
      (x.isLive = false → (∀ c ∈ recordCells r, s.cellFree c = true) → recordCells r = (recordCells r).eraseDups →
        (∀ e, s.makePart p r = .error e → Answers (exec (.partCreate m) s) s m e 0 []) ∧
        ∀ ctx y, s.makePart p r = .ok (ctx, y) → (y.part p).isLive = true ∧ (y.part p).cells = recordCells r ∧
          (y.part p).twin = (bytesAt r 1 1 == 1) ∧ (y.part p).record = r ∧
          Answers (exec (.partCreate m) s) y m stOk 0 (wordBytes ctx))) ∧
    (Runs s m 0x0102 r → x.isLive = true → bytesAt r 1 1 ≠ 1 →
      (∀ c ∈ x.cells, ∀ k a b d n, (s.slot c k).wait ≠ .work a b d n) →
      ((∀ c ∈ x.cells, s.isDrained c = true) →
        ok (exec (.partQuiesce m) s) fun y => y.part p = { x with quiesced := true } ∧ mapOnly y) ∧
      ((∃ c ∈ x.cells, s.isDrained c = false) → Completes (exec (.partQuiesce m) s) fun u =>
        u.part p = { x with quiesced := true } ∧ mapOnly u)) ∧
    (Runs s m 0x0103 r → x.isLive = true → x.quiesced = true → (∀ c ∈ x.cells, s.isDrained c = true) →
      s.hasOpenEntry p = false → ok (exec (.partDestroy m) s) fun y => y.part p = part0 ∧
        (∀ f, (s.frame f).part = p → (y.frame f).state = stFree) ∧
        (∀ e ∈ y.flows, e.2.part ≠ p) ∧ (∀ q, y.workq p q = workq0) ∧ (∀ i ∈ y.items, i.part ≠ p) ∧
        ∀ c ∈ x.cells, (y.cell c).hdr = [] ∧ ∀ k, (y.slot c k).state = .idle) ∧
    (Runs s m 0x0104 r → x.isLive = true → s.plainMem (s.cellarDesc p) 64 →
      let mib := bytesAt r 4 4
      let pool := (mib * 2 ^ 20 - 32768 * x.cells.length) / 64
      ∀ z, s.resizeBlocks x.cellar (((s.descWord p 8).toNat + 1) / 2) ((mib + 1) / 2) = some z →
        (s.descWord p 8).toNat ≤ mib → pool ≠ s.cellarPool p → ∃ y : State,
          y.descWord p 8 = BitVec.ofNat 32 mib ∧ y.descWord p 12 = BitVec.ofNat 32 pool ∧
          Answers (exec (.partCellarSet m) s) (y.checkSpace p .benus) m stOk 0 []) ∧
    (Runs s m 0x0105 r → x.isLive = true → s.sidFault (half 2) p = none → s.vectorsOk (half 2) (word 4) = true →
      let z := s.touches (half 2) (word 4 + 1) 7
      ∀ vs, z.spaceReads (half 2) (word 4 + 1) 7 = .ok vs →
      let loaded (y : State) (c : CellId) : Prop := y.reg (clcCell c 0xB40) = word 4 ∧ y.esid c = half 2 ∧
        ∀ k, k < 7 → Map.get 0 (y.cell c).vectors (k + 1) = (vs.getD k TWord.empty).data
      (∀ c, x.cells = [c] → ok (exec (.partVectorSet m) s) fun y => loaded y c) ∧
      (x.cells.Nodup → z = s → (∀ v ∈ vs, s.touches (half 2) v.data 4 = s) →
        ok (exec (.partVectorSet m) s) fun y => (∀ c ∈ x.cells, loaded y c) ∧ y.mem = s.mem)) ∧
    (Runs s m 0x0106 r → x.isLive = true → s.sidFault (half 12) p = none → s.plainMem (s.cellarDesc p) 64 →
      let f := s.frame (frameOf (word 4))
      ctxModule (word 4) = s.hier.modn → f.part = p → f.persist = true → f.state ≠ stFree → f.state ≠ stFailed →
        ok (exec (.partEventSet m) s) fun y => y.descWord p 24 = word 4 ∧
          y.descWord p 28 = BitVec.ofNat 32 (bytesAt r 2 2 + bytesAt r 1 1 * 2 ^ 16) ∧ y.descWord p 32 = word 8 ∧
          y.descWord p 36 = BitVec.ofNat 32 ((half 12).toNat + bytesAt r 14 1 * 2 ^ 16)) ∧
    (Runs s m 0x0107 r → (s.part (BitVec.ofNat 6 (bytesAt r 2 1))).isLive = true → s.spaceEntry (half 0) = none →
      s.plainMem (s.spaceEntryAt (half 0)) 16 → ok (exec (.spaceBind m) s) fun y =>
        y.spaceEntry (half 0) = some (bytesAt r 8 8 % 2 ^ 64, BitVec.ofNat 6 (bytesAt r 2 1)) ∧
        Map.get 0 y.wraps (half 0).toNat = BitVec.ofNat 64 (bytesAt r 16 8)) ∧
    (Runs s m 0x0108 r → (s.spaceEntry (half 0)).isSome = true → s.plainMem (s.spaceEntryAt (half 0)) 16 →
      s.sidInUse (half 0) = false → ∀ q, s.partOfSid (half 0) = some q →
      (s.hasPeers q = false ∨ (s.mbx m).progress ≠ 0 → ok (exec (.spaceUnbind m) s) fun y => y.spaceEntry (half 0) = none ∧
        ∀ g, ∀ e ∈ (y.cluster g).roots, e.1 ≠ half 0) ∧
      (s.hasPeers q = true → (s.mbx m).progress = 0 → Completes (exec (.spaceUnbind m) s) fun u =>
        (u.mbx m).progress = 1 ∧ (u.mbx m).state = mbRunning ∧ u.mem = s.mem ∧
        ∀ md ∈ (s.part q).span, md ≠ s.hier.modn → .notify 0x54 (md.setWidth 32) ∈ u.out)) ∧
    (Runs s m 0x0109 r → x.isLive = true → ∀ g : BitVec 4, bytesAt r 1 1 = g.toNat → half 2 &&& ~~~(s.pantryWays g) ≠ 0 →
      ok (exec (.cacheWaysSet m) s) fun y =>
        y.reg (cchBase g.toNat + 0x100 + 4 * p.toNat) = (half 2 &&& ~~~(s.pantryWays g)).setWidth 32 ∧ y = { s with
          regs := y.regs
          clusters := y.clusters }) ∧
    (Runs s m 0x010A r → let g := BitVec.ofNat 4 (bytesAt r 0 1)
      let j := BitVec.ofNat 2 (bytesAt r 1 1)
      let q := BitVec.ofNat 6 (bytesAt r 2 1)
      ∀ l, (s.part q).isLive = true → (s.pair4 g j).mailbox ≠ some m → s.stage2 q (bytesAt r 8 8) = some l →
        l.modn = s.hier.modn → l.dev = false → bit (s.reg (pantryReg g j.toNat)) 31 = false → (s.pair4 g j).step = 0 →
        s.masksLeft g j = true → (∀ (h : BitVec 4) (i : BitVec 2), s.pairBlock h i ≠ l.ma / 2 ^ 21) →
        Completes (exec (.pantrySet m) s) fun u => (u.pair4 g j).mailbox = some m ∧
          ((u.pair4 g j).step = 1 ∨ (u.pair4 g j).step = 2) ∧ (u.mbx m).state = mbRunning ∧
          u.reg (pantryReg g j.toNat) = BitVec.ofNat 32 (q.toNat * 2 ^ 24 + l.ma / 2 ^ 21)) ∧
    (Runs s m 0x010B r → let g := BitVec.ofNat 4 (bytesAt r 0 1)
      let j := BitVec.ofNat 2 (bytesAt r 1 1)
      (bit (s.reg (pantryReg g j.toNat)) 31 = false → (s.pair4 g j).mailbox ≠ some m →
        Answers (exec (.pantryClear m) s) s m stNotFound 0 []) ∧
      (bit (s.reg (pantryReg g j.toNat)) 31 = true → (s.pair4 g j).mailbox ≠ some m →
        Completes (exec (.pantryClear m) s) fun u => u.pair4 g j = { (s.pair4 g j) with
            step := 3
            mailbox := some m } ∧ (∀ h, s.pairBlock g j ∈ (u.home h).pantryHold) ∧ u = { s with
          homes := u.homes
          clusters := u.clusters })) ∧
    (Runs s m 0x010C r → x.isLive = true → ok (exec (.placePinSet m) s) fun y =>
      y.part p = { x with pins := Map.set none x.pins (bytesAt r 1 1) (some (half 2)) } ∧ mapOnly y) ∧
    (Runs s m 0x010D r → x.isLive = true → let q := BitVec.ofNat 6 (bytesAt r 1 1)
      let w := s.workq p q
      w.parked = [] →
      (w.bound = false → bytesAt r 12 1 ≠ 1 → s.sidFault (half 2) p = none → ok (exec (.workqSet m) s) fun y =>
        y.workq p q = { workq0 with
          bound := true
          sid := half 2
          ring := word 4
          entries := bytesAt r 8 4
          free := (List.range (bytesAt r 8 4)).map fun i => word 4 + BitVec.ofNat 32 (8 * i) } ∧
        y = { s with workqs := y.workqs }) ∧
      (w.bound = true → s.queueInUse p q = true → Answers (exec (.workqSet m) s) s m stState 0 []) ∧
      (w.bound = true → s.queueInUse p q = false → bytesAt r 12 1 = 1 → ok (exec (.workqSet m) s) fun y =>
        y.workq p q = workq0 ∧ y = { s with workqs := y.workqs })) ∧
    (Runs s m 0x010E r → let f := BitVec.ofNat 12 (bytesAt r 0 2)
      let fp := BitVec.ofNat 6 (bytesAt r 2 1)
      let q := BitVec.ofNat 6 (bytesAt r 3 1)
      let idleFlow : Prop := (s.flow f).occupancy = 0 ∧ (s.flow f).held = [] ∧ s.streamNames f = false
      (s.part fp).isLive = true →
      ((s.flow f).bound = true → ¬idleFlow → Answers (exec (.flowBind m) s) s m stState 0 []) ∧
      ((s.flow f).bound = false ∨ idleFlow → bytesAt r 12 1 ≠ 1 → (s.workq fp q).bound = true →
        ok (exec (.flowBind m) s) fun y => y.flow f = { flow0 with
            bound := true
            part := fp
            queue := q
            nextSeq := word 4
            nextRel := word 4
            limit := word 8 } ∧ y = { s with flows := y.flows }) ∧
      ((s.flow f).bound = true → idleFlow → bytesAt r 12 1 = 1 → ok (exec (.flowBind m) s) fun y =>
        y.flow f = flow0 ∧ y = { s with flows := y.flows })) ∧
    (Runs s m 0x010F r → x.isLive = true → x.twin = true →
      let c := cellAt (BitVec.ofNat 4 (bytesAt r 1 1)) (bytesAt r 2 1)
      let d := s.peerOf c
      c ∈ x.cells → c ≠ d → bit (s.reg (clcCell c 0xF80)) 31 = true → bit (s.reg (clcCell c 0xF80)) 29 = true →
      (∀ k, (s.slot c k).wait = .none ∧ (s.slot c k).halted = none ∧ (s.slot d k).halted = none) →
      (s.isDrained c = false → Completes (exec (.twinResync m) s) fun u => (u.cell c).draining = true ∧
        (u.mbx m).state = mbRunning) ∧
      (s.isDrained c = true → ok (exec (.twinResync m) s) fun y => bit (y.reg (clcCell c 0xF80)) 29 = false ∧
        bit (y.reg (clcCell d 0xF80)) 29 = false ∧ (y.cell d).lines = [] ∧ (y.cell d).tlb = [] ∧
        (y.cell c).draining = false ∧
        ∃ e ∈ y.col.store, e.fr.kind = 8 ∧ e.fr.recno = s.ben.nextRec + 1))

/-- The commands of classes IO, FAULT, TIME and SYSTEM: what each leaves when its objects are there and its state allows it. -/
def Obligations.UnitCommands : Prop :=
  ∀ (s : State) (m : BitVec 5) (r : List Byte),
    let half (o : Nat) : BitVec 16 := BitVec.ofNat 16 (bytesAt r o 2)
    let word (o : Nat) : Word := BitVec.ofNat 32 (bytesAt r o 4)
    let ok (o : Outcome) (post : State → Prop) : Prop := ∃ y, post y ∧ Answers o y m stOk 0 []
    let no (o : Outcome) (status : Nat) : Prop := Answers o s m status 0 []
    (Runs s m 0x0201 r → let b := BitVec.ofNat 11 (bytesAt r 0 2)
      let u := s.sub (subPort b) (subIndex b)
      (u.bound = true → u.prog.running = true → no (exec (.chanSubSet m) s) stState) ∧
      (u.bound = false ∨ u.prog.running = false →
        (bytesAt r 8 1 = 1 → u.bound = true → ok (exec (.chanSubSet m) s) fun y => y.sub (subPort b) (subIndex b) = sub0 ∧
          y = { s with ports := y.ports }) ∧
        (bytesAt r 8 1 ≠ 1 → bytesAt r 6 1 = 0xFF → bytesAt r 7 1 = 0xFF →
          (s.partOfSid (half 2) = none → no (exec (.chanSubSet m) s) stNotFound) ∧
          ∀ p, s.partOfSid (half 2) = some p → ok (exec (.chanSubSet m) s) fun y =>
            let v := y.sub (subPort b) (subIndex b)
            v.bound = true ∧ v.sid = half 2 ∧ v.part = p ∧ v.lch = half 4 ∧ v.prog = sub0.prog ∧
            Map.get none v.slices 0 = none ∧ Map.get none v.slices 1 = none ∧ y = { s with ports := y.ports }))) ∧
    (Runs s m 0x0202 r → ok (exec (.chanPathSet m) s) fun y =>
      (y.lch (chPort (BitVec.ofNat 3 (bytesAt r 0 1))) (half 2)).alts =
        ([half 4, half 6, half 8].filter (· != 0xFFFF))) ∧
    (let k := BitVec.ofNat 3 (bytesAt r 0 1)
      let n := BitVec.ofNat 6 (bytesAt r 1 1)
      let x := s.slice k n
      let sliceOnly (y : State) (v : Slice) : Prop := y.slice k n = v ∧
        (∀ h i, h ≠ k ∨ i ≠ n → y.slice h i = s.slice h i) ∧ y = { s with classes := y.classes }
      (Runs s m 0x0203 r →
        (bytesAt r 7 1 = 1 → x.state = slQuiesced → ok (exec (.engineSliceSet m) s) fun y => sliceOnly y slice0) ∧
        (bytesAt r 7 1 ≠ 1 → ∀ p, s.partOfSid (half 2) = some p → s.otherDepths k n + bytesAt r 4 2 ≤ 4096 →
          (x.state = slUnbound → ok (exec (.engineSliceSet m) s) fun y => sliceOnly y { slice0 with
            state := slActive
            sid := half 2
            part := p
            depth := bytesAt r 4 2
            share := BitVec.ofNat 7 (bytesAt r 6 1) }) ∧
          (x.state ≠ slUnbound → x.sid = half 2 → ok (exec (.engineSliceSet m) s) fun y => sliceOnly y { x with
            depth := bytesAt r 4 2
            share := BitVec.ofNat 7 (bytesAt r 6 1) })) ∧
        (bytesAt r 7 1 ≠ 1 → (s.partOfSid (half 2)).isSome = true → x.state = slUnbound →
          4096 < s.otherDepths k n + bytesAt r 4 2 → no (exec (.engineSliceSet m) s) stResource)) ∧
      (x.state = slUnbound →
        (Runs s m 0x0204 r → no (exec (.engineSliceQuiesce m) s) stNotFound) ∧
        (Runs s m 0x0205 r → no (exec (.engineSliceResume m) s) stNotFound) ∧
        (Runs s m 0x0206 r → no (exec (.engineSliceReset m) s) stNotFound)) ∧
      (x.state ≠ slUnbound →
        (Runs s m 0x0204 r → x.state ≠ slQuiesced →
          (x.queue = [] → ok (exec (.engineSliceQuiesce m) s) fun y => sliceOnly y { x with
            state := slQuiesced
            waitMbx := none }) ∧
          (x.queue ≠ [] → Completes (exec (.engineSliceQuiesce m) s) fun u => sliceOnly u { x with
            state := slQuiescing
            waitMbx := some m })) ∧
        (Runs s m 0x0205 r → ok (exec (.engineSliceResume m) s) fun y => sliceOnly y { x with state := slActive }) ∧
        (Runs s m 0x0206 r →
          (x.state ≠ slQuiesced → no (exec (.engineSliceReset m) s) stState) ∧
          (x.state = slQuiesced → ok (exec (.engineSliceReset m) s) fun y => y.slice k n = { x with queue := [] } ∧
            y.reg (engBase k + 0x400 + 16 * n.toNat + 8) = 0 ∧ y.reg (engBase k + 0x400 + 16 * n.toNat + 12) = 0 ∧ y = { s with
              classes := y.classes
              regs := y.regs })))) ∧
    (Runs s m 0x0207 r → ∀ p, s.partOfSid (half 0) = some p → (s.part p).noticeWait = [] →
      ok (exec (.ledgerNoticeSet m) s) fun y =>
        y.part p = { (s.part p) with notice := some (word 4, half 0, bytesAt r 8 1, half 2) } ∧ y = { s with parts := y.parts }) ∧
    (Runs s m 0x0208 r → let p := BitVec.ofNat 6 (bytesAt r 0 1)
      (s.part p).isLive = true → ok (exec (.ledgerQuotaSet m) s) fun y =>
        y.part p = { (s.part p) with ledgerQuota := bytesAt r 4 4 } ∧ y = { s with parts := y.parts }) ∧
    (Runs s m 0x0209 r → let n := chPort (BitVec.ofNat 3 (bytesAt r 0 1))
      let p := s.port n
      p.swapMbx ≠ some m → p.switching = false → p.testing = false →
      (p.standbyOk = false → no (exec (.cpSwap m) s) stState) ∧
      (p.standbyOk = true → Completes (exec (.cpSwap m) s) fun u => u.port n = { p with
          switching := true
          standbyOk := false
          swapping := true
          swapMbx := some m } ∧ u = { s with
        ports := u.ports
        regs := u.regs })) ∧
    (Runs s m 0x0301 r → let i := bytesAt r 0 2
      s.srcEnabled i = true ∨ (s.source i).asserted = false → ok (exec (.faultReactSet m) s) fun y =>
        y.reg (srcCfgAt i) = BitVec.ofNat 32
          (bytesAt r 2 1 * 2 ^ 31 + bytesAt r 5 1 * 2 ^ 26 + bytesAt r 3 1 * 2 ^ 21 + bytesAt r 4 1 * 2 ^ 8) ∧
        y = { s with regs := y.regs }) ∧
    (Runs s m 0x0302 r → let n := word 0
      ((∀ x ∈ s.col.store, x.fr.recno = n → x.isOpen = false) → no (exec (.faultRecordClose m) s) stNotFound) ∧
      ∀ x, s.col.store = [x] → x.fr.recno = n → x.isOpen = true → x.logged = true → s.reacting x = false →
        ok (exec (.faultRecordClose m) s) fun y => y = { s with col := { s.col with store := [] } }) ∧
    (Runs s m 0x0303 r →
      ((∃ x ∈ s.col.store, x.isOpen = true ∧ x.fr.react.getLsbD 4 = true) → no (exec (.faultAliveRearm m) s) stState) ∧
      ((∀ x ∈ s.col.store, x.isOpen = false ∨ x.fr.react.getLsbD 4 = false) → s.col.benusFed = true → s.col.collectorFed = true →
        ok (exec (.faultAliveRearm m) s) fun y => bit (y.reg (fclBase + 8)) 31 = false ∧
          y.regField (fclBase + 8) 30 29 = 0 ∧ y = { s with
            regs := y.regs
            col := { s.col with
              armed := false
              aliveA := true
              aliveB := false } })) ∧
    (Runs s m 0x0401 r →
      (s.ben.calSource = 2 → no (exec (.timeSet m) s) stState) ∧
      (s.ben.calSource ≠ 2 → ok (exec (.timeSet m) s) fun y => y.ben.tai = BitVec.ofNat 64 (bytesAt r 0 8) ∧
        y.ben.taiNs = word 8 ∧ y.ben.utcOff = half 12 ∧ y.ben.calSource = 1 ∧ y.ben.calValid = true ∧ y.now = s.now ∧
        ∃ e ∈ y.ben.ram, e.typ = 8 ∧ e.lseq = s.ben.lseq + 1)) ∧
    (Runs s m 0x0701 r → let n := BitVec.ofNat 5 (bytesAt r 0 1)
      let given (b : Mailbox) : Prop := b.state = mbIdle ∧ b.owner = BitVec.ofNat 8 (bytesAt r 3 1) ∧
        b.part = BitVec.ofNat 6 (bytesAt r 4 1) ∧ b.classes = BitVec.ofNat 16 (bytesAt r 2 1) ∧ b.request = [] ∧ b.response = [] ∧
        b.transport = ([some .svc, some (.pcie 0), some (.pcie 1), some (.mgt 0), some .mbx, some .fabric] :
          List (Option Transport)).getD (bytesAt r 1 1) none ∧
        b.fingerprint = if bytesAt r 1 1 = 3 then BitVec.ofNat 384 (bytesAt r 8 48) else 0
      (n ≠ m → (s.mbx n).state = mbIdle ∨ (s.mbx n).state = mbDone → ok (exec (.mbxAssign m) s) fun y => given (y.mbx n) ∧
        (∀ k, k ≠ n → y.mbx k = s.mbx k) ∧ (∀ e ∈ y.ben.tls, e.2 ≠ some (s.mbx n).fingerprint)) ∧
      (n ≠ m → (s.mbx n).state = mbRunning → ok (exec (.mbxAssign m) s) fun y =>
        y.mbx n = { (s.mbx n) with newOwner := r }) ∧
      (n = m → r ≠ [] → Completes (exec (.mbxAssign m) s) fun u => given (u.mbx m) ∧
        u.out = s.out ++ [.response m (responseBytes (s.mbx m).request stOk 0 [])])) ∧
    (Runs s m 0x0702 r → let role := BitVec.ofNat 2 (bytesAt r 0 1)
      let modn := BitVec.ofNat 12 (bytesAt r 2 2)
      s.hier.pendingRole = none →
      (s.confirms role modn = some true → ok (exec (.roleSet m) s) fun y => y.hier.role = role ∧ y.hier.modn = modn ∧
        y.hier.numbered = true ∧ y.hier.pendingRole = none ∧
        y.hier.standbyOf = (if bytesAt r 4 2 = 0xFFFF then none else some (BitVec.ofNat 12 (bytesAt r 4 2))) ∧
        ∃ e ∈ y.ben.ram, e.typ = 10) ∧
      (s.confirms role modn = some false → ∃ y, y.hier = s.hier ∧ (∃ e ∈ y.ben.ram, e.typ = 10) ∧
        Answers (exec (.roleSet m) s) y m stState 0 []) ∧
      (s.confirms role modn = none → Completes (exec (.roleSet m) s) fun u => u.hier.role = s.hier.role ∧
        u.hier.modn = s.hier.modn ∧ u.hier.pendingRole.isSome = true ∧ u = { s with hier := u.hier })) ∧
    (Runs s m 0x0703 r → let w := bytesAt r 0 2
      (w = 0xFFFF → ok (exec (.ledgerPair m) s) fun y => y = { s with hier := { s.hier with partner := none } }) ∧
      (w < 4096 → w / 64 = s.hier.modn.toNat / 64 → w ≠ s.hier.modn.toNat → ok (exec (.ledgerPair m) s) fun y =>
        y = { s with hier := { s.hier with partner := some (BitVec.ofNat 12 w) } })) ∧
    (Runs s m 0x0704 r → let a := bytesAt r 0 4
      (isConfig a = false → no (exec (.modConfigSet m) s) stField) ∧
      (isConfig a = true → bytesAt r 8 1 ≠ 1 → oneValue a = false → ok (exec (.modConfigSet m) s) fun y =>
        Map.get none y.ben.config a = some (word 4) ∧ y.regs = s.regs)) ∧
    (Runs s m 0x0705 r →
      (s.plat.protect ≠ 0 → no (exec (.modReset m) s) stState) ∧
      (s.plat.protect = 0 → Completes (exec (.modReset m) s) fun u => u.ben.ready = false ∧ u.plat.standbyOnly = false ∧
        u.frames = [] ∧ u.mem = [] ∧ (∀ c k, (u.slot c k).state = .idle) ∧ (∀ a, u.reg a = regReset a) ∧
        .response m (responseBytes (s.mbx m).request stOk 0 []) ∈ u.out)) ∧
    (Runs s m 0x0706 r → (∀ n, n ≠ m → (s.mbx n).state ≠ mbRunning) → Completes (exec (.modZeroize m) s) fun u =>
      u.ben.rootKey = [] ∧ u.ben.bootKey = [] ∧ u.ben.bootImages = [] ∧ u.ben.tls = [] ∧ u.mbx 0 = firstMailbox ∧
      (∀ n, n ≠ 0 → (u.mbx n).transport = none) ∧ ∀ k, (u.key k).inUse = false) ∧
    (Runs s m 0x0707 r → ok (exec (.bootKeySet m) s) fun y => y = { s with ben := { s.ben with bootKey := r } })

/-! ### Debug and the TAP (15 R654 to R661) -/

/-- The authorisation opens on a good signature and ends with what it had set; each operation answers over its transport and
changes only what it names, and what is not authorised, malformed or out of scope changes nothing; the TAP shifts out its
registers. What a malformed request answers rests on assumption 56. -/
def Obligations.DebugAccess : Prop :=
  (∀ (s : State) (m : BitVec 5) (r : List Byte), let scope := bytesAt r 0 2
    let keyId := bytesAt r 2 2
    let seconds := bytesAt r 4 4
    let closed (y : State) : Prop := y.dbg.isOpen = false ∧ y.dbg.breaks = [] ∧ y.dbg.tbreaks = [] ∧ y.dbg.watches = [] ∧
      (∀ c k, (y.slot c k).halted = none ∧ (y.slot c k).stepping = 0) ∧ (∀ f, (y.frame f).tracing = false) ∧
      ∀ a, tstBase ≤ a → a < tstBase + 0x1000 → y.reg a = regReset a
    let slotsOk : Prop := (∀ e ∈ s.slots, e.1 < 2048 ∧ (s.slot (BitVec.ofNat 8 (e.1 / 8)) (BitVec.ofNat 3 (e.1 % 8))) = e.2)
    (Runs s m 0x0601 r → ∃ (n : List Byte) (y : State), n.length = 32 ∧
      y = { s with
        free := y.free
        dbg := { s.dbg with nonce := some (n, BitVec.ofNat 16 scope, s.now) } } ∧
      Answers (exec (.debugChallenge m) s) y m stOk 0 n) ∧
    (Runs s m 0x0602 r → ∀ n t, s.dbg.nonce = some (n, BitVec.ofNat 16 scope, t) → scope < 65536 →
      let good := unlockOk n scope keyId seconds (r.drop 8)
      ((s.now - t).toNat ≤ 60000000000 → good = true → s.dbg.isOpen = false →
        ∃ y, y.dbg = { s.dbg with
            isOpen := true
            scope := BitVec.ofNat 16 scope
            keyId := BitVec.ofNat 16 keyId
            expiry := s.now + BitVec.ofNat 64 (seconds * 1000000000)
            nonce := none } ∧
          (scope.testBit 3 = true → y.regField tstBase 0 0 = 1) ∧ (scope.testBit 3 = false → y.regs = s.regs) ∧
          (∃ e ∈ y.ben.ram, e.typ = 11 ∧ e.lseq = s.ben.lseq + 1) ∧ y.slots = s.slots ∧
          Answers (exec (.debugUnlock m) s) y m stOk 0 []) ∧
      (60000000000 < (s.now - t).toNat ∨ good = false →
        ∃ y, y.dbg = { s.dbg with nonce := none } ∧ (∃ e ∈ y.ben.ram, e.typ = 11 ∧ e.lseq = s.ben.lseq + 1) ∧ y = { s with
            dbg := y.dbg
            ben := y.ben } ∧ Answers (exec (.debugUnlock m) s) y m stAuth 0 [])) ∧
    (slotsOk → s.dbg.isOpen = true →
      (Runs s m 0x0603 r → ∃ y, closed y ∧ Answers (exec (.debugLock m) s) y m stOk 0 []) ∧
      (s.dbg.expiry ≤ s.now → Completes (exec .debugAuthExpiry s) closed)) ∧
    (s.now < s.dbg.expiry → exec .debugAuthExpiry s = .next s)) ∧
  (∀ (s : State) (q : DbgReq), let c := q.cell
    let k := q.slot
    let t := s.slot c k
    let allowed (op : Nat) : Prop := s.dbg.grants (if q.tap = true then 4 else 5) = true ∧ s.dbg.grants (dbgGrant q op) = true ∧
      dbgMalformed q op = false ∧ s.inScope q op = true
    let replies (o : Outcome) (y : State) (op : Nat) (a : DbgAns) : Prop := o = .next (y.debugReply q.tap (responseOf op q.tag a))
    let does (o : Outcome) (op : Nat) (a : DbgAns) (post : State → Prop) : Prop := ∃ y, post y ∧ replies o y op a
    let slotIs (v : Slot) (y : State) : Prop := y.slot c k = v ∧ y = { s with slots := y.slots } ∧
      ∀ d j, d ≠ c ∨ j ≠ k → y.slot d j = s.slot d j
    let rows : List (Instr × Nat) := [(.halt q, opHalt), (.resume q, opResume), (.step q, opStep), (.breakpoint q, opBreak),
      (.tbreak q, opTbreak), (.watch q, opWatch), (.regrd q, opRegrd), (.regwr q, opRegwr), (.memrd q, opMemrd),
      (.memwr q, opMemwr), (.trace q, opTrace), (.trcrd q, opTrcrd), (.status q, opStatus)]
    (∀ r ∈ rows,
      (s.dbg.isOpen = false → replies (exec r.1 s) s r.2 ⟨1, ⟨0, 0⟩, 0⟩) ∧
      (s.dbg.grants (if q.tap = true then 4 else 5) = true → s.dbg.grants (dbgGrant q r.2) = true →
        (dbgMalformed q r.2 = true → replies (exec r.1 s) s r.2 ⟨6, ⟨0, 0⟩, 0⟩) ∧
        (dbgMalformed q r.2 = false → s.inScope q r.2 = false → replies (exec r.1 s) s r.2 ⟨2, ⟨0, 0⟩, 0⟩))) ∧
    (allowed opHalt → q.flags.getLsbD 0 = false → s.twinned c = false → t.halted = none →
      (t.state = .idle → does (exec (.halt q) s) opHalt ⟨0, ⟨0, 0⟩, 0⟩ (slotIs { t with
          halted := some (1, s.now)
          stepping := 0 })) ∧
      (t.state = .run → t.wait = .none → t.iter = none → t.dueMc = none → does (exec (.halt q) s) opHalt ⟨0, ⟨0, 0⟩, 0⟩ (slotIs { t with
          halted := some (1, s.now)
          stepping := 0
          dueDbg := none }))) ∧
    (allowed opResume → q.flags.getLsbD 0 = false → t.state = .idle →
      does (exec (.resume q) s) opResume ⟨0, ⟨0, 0⟩, 0⟩ fun y => (y.slot c k).halted = none ∧ (y.slot c k).stepping = 0 ∧
        y = { s with slots := y.slots }) ∧
    (allowed opStep → q.flags.getLsbD 1 = false →
      (t.halted = none → replies (exec (.step q) s) s opStep ⟨2, ⟨0, 0⟩, 0⟩) ∧
      (t.halted.isSome = true → t.state ≠ .idle → does (exec (.step q) s) opStep ⟨0, ⟨0, 0⟩, 0⟩ fun y =>
        y.slot c k = { t with
          halted := none
          stepping := 1 })) ∧
    (let toHandler : Word := if q.flags.getLsbD 0 = true then 0x40000000 else 0
      let at_ (x : Word) : DbgPoint := { sid := q.sid, addr := q.addr.setWidth 32, spec := x }
      (allowed opBreak → does (exec (.breakpoint q) s) opBreak ⟨0, ⟨0, 0⟩, 0⟩ fun y => y = { s with dbg := { s.dbg with
        breaks := Map.set none s.dbg.breaks q.unit.toNat (if q.data = 0 then none else some (at_ toHandler)) } }) ∧
      (allowed opTbreak → does (exec (.tbreak q) s) opTbreak ⟨0, ⟨0, 0⟩, 0⟩ fun y => y = { s with dbg := { s.dbg with
        tbreaks := Map.set none s.dbg.tbreaks q.unit.toNat
          (if q.flags.getLsbD 7 = true then some (at_ (toHandler ||| (q.data &&& 0xFFFF))) else none) } }) ∧
      (allowed opWatch → does (exec (.watch q) s) opWatch ⟨0, ⟨0, 0⟩, 0⟩ fun y => y = { s with dbg := { s.dbg with
        watches := Map.set none s.dbg.watches q.unit.toNat
          (if field q.data 6 5 = 0 then none else some (at_ (toHandler ||| (q.data &&& 0x7F)))) } })) ∧
    (t.halted = none → (allowed opRegrd → replies (exec (.regrd q) s) s opRegrd ⟨2, ⟨0, 0⟩, 0⟩) ∧
      (allowed opRegwr → replies (exec (.regwr q) s) s opRegwr ⟨2, ⟨0, 0⟩, 0⟩)) ∧
    (t.halted.isSome = true → q.unit.toNat < 32 → let n := BitVec.ofNat 5 q.unit.toNat
      (allowed opRegrd → replies (exec (.regrd q) s) s opRegrd ⟨0, t.g n, 0⟩) ∧
      (allowed opRegwr → does (exec (.regwr q) s) opRegwr ⟨0, ⟨0, 0⟩, 0⟩ fun y => y = { s with slots := y.slots } ∧
        ∀ g, (y.slot c k).g g = if g = n then written n ⟨q.dtag, q.data⟩ else t.g g)) ∧
    (q.sid = 0 → q.addr.getLsbD 63 = false → q.addr.toNat < 2 ^ 52 → let w := q.addr.toNat / 4
      s.isOwn w = true → 2 ^ 30 ≤ localWord w * 4 →
      localWord w * 4 < contextMapAt ∨ contextMapAt + 2 ^ 22 ≤ localWord w * 4 →
      (allowed opMemrd → replies (exec (.memrd q) s) s opMemrd ⟨0, s.shownWord w, 0⟩ ∧
        ((s.peek w).tag ≠ Tag.empty → s.shownWord w = s.peek w)) ∧
      (allowed opMemwr → replies (exec (.memwr q) s) (s.poke w ⟨q.dtag, q.data⟩) opMemwr ⟨0, ⟨0, 0⟩, 0⟩)) ∧
    (∀ f, s.dbgFrame q = some f → allowed opTrace → does (exec (.trace q) s) opTrace ⟨0, ⟨0, 0⟩, 0⟩ fun y =>
      y.frame f = { (s.frame f) with tracing := q.flags.getLsbD 0 } ∧ y = { s with frames := y.frames }) ∧
    (s.dbgFrame q = none → allowed opTrace → replies (exec (.trace q) s) s opTrace ⟨2, ⟨0, 0⟩, 0⟩) ∧
    (let g := clusterOf c
      let ring := (s.cluster g).trace
      let a := q.addr.toNat
      a / 4 % 1024 < ring.length → allowed opTrcrd →
      does (exec (.trcrd q) s) opTrcrd ⟨0, TWord.int (BitVec.ofNat 32 (bytesAt (ring.getD (a / 4 % 1024) []) (4 * (a % 4)) 4)), ring.length⟩
        fun y => (q.flags.getLsbD 0 = false → y = s) ∧
          (q.flags.getLsbD 0 = true → (y.cluster g).trace = [] ∧ y = { s with clusters := y.clusters })) ∧
    (allowed opStatus → replies (exec (.status q) s) s opStatus
      ⟨0, TWord.int (BitVec.ofNat 32 (stateNumber t.shown)), (t.halted.map fun h => h.1.toNat).getD 0⟩)) ∧
  ∀ s : State,
    let drives : Prop := s.plat.standbyOnly = true ∧ s.dbg.grants 2 = true
    let shifts (o : Outcome) (ir : Byte) (bits : List Bool) (d : Dbg) : Prop :=
      o = .next { s with
        out := s.out ++ [.tdo bits]
        dbg := { d with ir := ir } }
    let only (o : Outcome) (ir : Byte) : Prop := o = .next { s with dbg := { s.dbg with ir := ir } }
    (∀ pins, (drives → shifts (exec (.extest pins) s) 0x00 s.dbg.boundary { s.dbg with boundary := pins }) ∧
      (¬drives → only (exec (.extest pins) s) 0x00) ∧
      shifts (exec (.samplePreload pins) s) 0x02 s.dbg.boundary { s.dbg with boundary := pins }) ∧
    shifts (exec .idcode s) 0x01 (bitsLe 32 0x2B9D0A6D) s.dbg ∧
    (drives → shifts (exec .clamp s) 0x04 s.dbg.boundary s.dbg ∧ shifts (exec .highz s) 0x05 [] s.dbg) ∧
    (¬drives → only (exec .clamp s) 0x04 ∧ only (exec .highz s) 0x05) ∧
    (∀ b, shifts (exec (.bypass b) s) 0xFF [s.dbg.bypassBit] { s.dbg with bypassBit := b }) ∧
    shifts (exec (.dbgpkt none) s) 0x20 (bitsLe 192 (leNat (s.dbg.responses.headD [])))
      { s.dbg with responses := s.dbg.responses.drop 1 } ∧
    ∀ w : BitVec 192, s.dbg.isOpen = false → let first := s.dbg.responses.headD []
      shifts (exec (.dbgpkt (some w)) s) 0x20 (bitsLe 192 (leNat first)) { s.dbg with responses := s.dbg.responses.drop 1 ++
        [responseOf (w.toNat % 256) (BitVec.ofNat 16 (w.toNat / 2 ^ 16)) ⟨1, ⟨0, 0⟩, 0⟩] }

/-! ### The module in its system, and system time (15 R628 to R651) -/

/-- Fabric identity, epochs, decisions, leases, fail-over and dead modules; offsets, PTP, PPS, holdover and pulses; and the
performance counters that wrap and dump. What a role takes over when a standby does rests on assumption 54, and that a Hart
issues the decision of its own epoch on assumption 127; that a module with PPS_EN 1 which takes no external time counts the
edges outside its window (16 R678) on assumption 55. -/
def Obligations.Hierarchy : Prop :=
  (∀ (s : State) (p : BitVec 3), let n := p.toNat
    let x := s.fab n
    let hierOnly (u : State) : Prop := u = { s with hier := u.hier }
    let fabOnly (u : State) (v : FabPort) : Prop := u.fab n = v ∧ ∀ k, k ≠ n → u.fab k = s.fab k
    (∀ b, Completes (exec (.fabricLinkTrained p b) s) fun u => fabOnly u { fabPort0 with up := true } ∧
      (b = true → (u.source (ledgerSource (3 + n))).raw = true) ∧ (b = false → u.col = s.col) ∧ u = { s with
        hier := u.hier
        col := u.col }) ∧
    (x.up = true → exec (.identSend p) s = .next { s with out := s.out ++ [.ident p
      { system := s.hier.system, numbered := s.hier.numbered, module := if s.hier.numbered = true then s.hier.modn else 0
        port := p, role := s.hier.role, gepoch := s.hier.gepoch, sepoch := s.hier.sepoch, holder := none }] }) ∧
    (x.up = true → s.ben.exchanging = true → s.hier.pendingRole = none →
      (∀ k, k < 8 → k ≠ n → (s.fab k).up = true → (s.fab k).peer.isSome = true) →
      let started (u : State) : Prop := u.ben.ready = true ∧ u.ben.exchanging = false
      (∀ m, Completes (exec (.ident p m) s) started) ∧ Completes (exec (.fabricLinkLoss p) s) started) ∧
    (∀ m : Ident, x.up = true → s.ben.exchanging = false → s.hier.pendingRole = none → s.hier.numbered = true →
      m.numbered = true → (m.module ∈ s.hier.deadMods → x.state ≠ 2 → x.state ≠ 3 → s.hier.role = 0 ∨ s.hier.role = 3 →
        let resolved := s.hier.partner ≠ some m.module ∨ ∀ e ∈ s.copies, e.state = ldClosed
        Completes (exec (.ident p m) s) fun u => (resolved → u.hier.deadMods = s.hier.deadMods.filter (· != m.module)) ∧
          (¬resolved → u.hier.deadMods = s.hier.deadMods)) ∧
      (m.module ∉ s.hier.deadMods → m.module ∉ s.hier.gone → (m.system = s.hier.system → m.module = partnerOf s.hier.modn n → m.port = p → x.state ≠ 3 →
        s.hier.role = 0 ∨ s.hier.role = 3 → Completes (exec (.ident p m) s) fun u =>
          fabOnly u { x with
            state := 2
            peer := some m } ∧
          u.hier.gepoch = (if m.module.toNat / 64 = s.hier.modn.toNat / 64 ∧ s.hier.gepoch < m.gepoch then m.gepoch else s.hier.gepoch) ∧
          u.hier.sepoch = (if s.hier.sepoch < m.sepoch then m.sepoch else s.hier.sepoch) ∧ hierOnly u) ∧
      (m.system ≠ s.hier.system ∨ m.module ≠ partnerOf s.hier.modn n ∨ m.port ≠ p → x.state ≠ 2 → x.state ≠ 3 →
        Completes (exec (.ident p m) s) fun u => fabOnly u { x with
            state := 3
            peer := some m } ∧ (u.source (ledgerSource 11)).raw = true ∧ u = { s with
          hier := u.hier
          col := u.col }))) ∧
    (x.up = true → (s.port (fabLink n)).link ≠ linkUp → s.hier.pendingRole = none → s.ben.exchanging = false →
      Completes (exec (.fabricLinkLoss p) s) fun u => fabOnly u fabPort0 ∧ (u.port (fabLink n)).link = linkDown ∧
        ((∀ k, k < 8 → k ≠ n → (s.fab k).up = false) → s.hier.role ≠ 2 → u.hier.locked = false) ∧ u = { s with
          hier := u.hier
          ports := u.ports }) ∧
    (∀ off : BitVec 64, s.upstreamPort = some n → s.hier.role ≠ 2 → -32768 ≤ off.toInt → off.toInt ≤ 32767 →
      exec (.linkDelayMeasure p off) s = .next { s with hier := { s.hier with
        offset := BitVec.ofInt 16 off.toInt
        locked := decide (-1000 ≤ off.toInt ∧ off.toInt ≤ 1000) } })) ∧
  (∀ (s : State) (g : Bool) (e : Word), let high := if g = true then s.hier.gepoch else s.hier.sepoch
    let fits (q : Option (BitVec 12)) : Bool := q.all fun w => w != s.hier.modn && w.toNat / 64 == s.hier.modn.toNat / 64
    (∀ d, e < high → exec (.hartDecision g e d) s = .next s) ∧
    (s.hier.role = 0 → high ≤ e → let seen (h : Hier) : Hier := if g = true then { h with gepoch := e } else { h with sepoch := e }
      (∀ q, exec (.hartDecision g e (.pair q)) s = .next { s with hier := { (seen s.hier) with
        partner := if fits q = true then q else s.hier.partner } }) ∧
      (∀ m r, exec (.hartDecision g e (.role m r)) s = .next { s with hier := seen s.hier }) ∧
      (∀ o, exec (.hartDecision g e (.time o)) s = .next { s with hier := { (seen s.hier) with
        offset := BitVec.ofInt 16 (max (-32768) (min 32767 o.toInt))
        locked := decide (-1000 ≤ o.toInt ∧ o.toInt ≤ 1000) } }) ∧
      (∀ p ws, (s.part p).isLive = true → Completes (exec (.hartDecision g e (.placement p ws)) s) fun u =>
        u.part p = { (s.part p) with
          weights := (s.part p).span.zip ws
          epoch := e } ∧ u = { s with
          hier := seen s.hier
          parts := u.parts }) ∧
      ∀ m, m ∉ s.hier.deadMods → Completes (exec (.hartDecision g e (.dead m)) s) fun u =>
        u.hier.deadMods = s.hier.deadMods ++ [m]) ∧
    (s.hier.role = 3 → high ≤ e → ∀ q, fits q = true → Completes (exec (.hartDecision g e (.pair q)) s) fun u =>
      u.hier.partner = q ∧ (g, e, Decision.pair q) ∈ u.hier.decisions) ∧
    (s.hier.role = 2 ∨ s.hier.role = 1 ∧ g = true →
      (s.hier.heartbeat = false ∨ s.hier.lease = true → ∀ q, fits q = true →
        Completes (exec (.hartDecision g high (.pair q)) s) fun u => u.hier.partner = q ∧
          u.out = s.out ++ [.decision g high (.pair q)] ∧ (g, high, Decision.pair q) ∈ u.hier.decisions) ∧
      (s.hier.heartbeat = true → s.hier.lease = false → ∀ d, exec (.hartDecision g high d) s = .next s))) ∧
  (∀ s : State,
    (s.hier.role = 1 ∨ s.hier.role = 2 →
      exec (.hartHeartbeat true) s = .next { s with
        out := s.out ++ [.hart 0 0]
        hier := { s.hier with
          lease := true
          heartbeat := true } } ∧
      exec (.hartHeartbeat false) s = .next { s with out := s.out ++ [.hart 0 0] } ∧
      (s.hier.lease = true → exec .hartLeaseEnd s = .next { s with hier := { s.hier with lease := false } }) ∧
      (∀ m, m.toNat / 64 = s.hier.modn.toNat / 64 → m ≠ s.hier.modn → m ∉ s.hier.deadMods →
        (s.hier.heartbeat = false ∨ s.hier.lease = true → Completes (exec (.moduleDeadDeclare m) s) fun u =>
          u.hier.deadMods = s.hier.deadMods ++ [m] ∧ .decision true s.hier.gepoch (.dead m) ∈ u.out ∧
          (true, s.hier.gepoch, Decision.dead m) ∈ u.hier.decisions) ∧
        (s.hier.heartbeat = true → s.hier.lease = false → exec (.moduleDeadDeclare m) s = .next s))) ∧
    (s.hier.role = 3 → exec (.hartHeartbeat false) s = .next { s with out := s.out ++ [.hart 1 0] } ∧
      Completes (exec .standbyTakeover s) fun u => let r := s.standsFor
        u.hier.role = r ∧ u.hier.gepoch = s.hier.gepoch + 1 ∧ u.hier.standbyOf = none ∧
        u.hier.sepoch = (if r = 2 then s.hier.sepoch + 1 else s.hier.sepoch) ∧ .hart 2 (s.hier.gepoch + 1) ∈ u.out ∧
        (∀ d ∈ s.hier.decisions, .decision d.1 (if d.1 = true then u.hier.gepoch else u.hier.sepoch) d.2.2 ∈ u.out) ∧
        (∃ e ∈ u.ben.ram, e.typ = 10 ∧ e.lseq = s.ben.lseq + 1) ∧ u.mem = s.mem) ∧
    (s.hier.role = 2 ∨ s.hier.role = 3 →
      (bit (s.reg (clcBase 0 + 0xE40)) 9 = true → ∀ (off : BitVec 64) (utc : BitVec 16), let ref := (s.now + off).toNat
        Completes (exec (.ptpMessage true off utc) s) fun u => u.hier.ptpMaster = true ∧ u.hier.holdover = false ∧
          u.ben.tai = BitVec.ofNat 64 (ref / 1000000000) ∧ u.ben.taiNs = BitVec.ofNat 32 (ref % 1000000000) ∧
          u.ben.calValid = true ∧ u.ben.calSource = 2 ∧ u.ben.utcOff = s.ben.utcOff ∧
          (bit (s.reg (clcBase 0 + 0xE40)) 8 = false → u.hier.locked = decide (-1000 ≤ off.toInt ∧ off.toInt ≤ 1000)) ∧
          u = { s with
            hier := u.hier
            ben := u.ben }) ∧
      (bit (s.reg (clcBase 0 + 0xE40)) 8 = true → ∀ off : BitVec 64, let h := s.hier
        ((off.toInt - h.ppsCentre.toInt).natAbs ≤ 100000 → Completes (exec (.ppsEdge off) s) fun u =>
          u.hier.ppsOffsets = [] ∧ u.hier.lastPps = s.now ∧ u.hier.holdover = false ∧
          u.hier.locked = decide (-1000 ≤ off.toInt ∧ off.toInt ≤ 1000) ∧ u = { s with hier := u.hier }) ∧
        (100000 < (off.toInt - h.ppsCentre.toInt).natAbs →
          (h.ppsOffsets.length < 7 → Completes (exec (.ppsEdge off) s) fun u =>
            u.hier = { h with ppsOffsets := h.ppsOffsets ++ [off] } ∧ (u.source (platSource 12)).raw = true ∧ u = { s with
              hier := u.hier
              col := u.col }) ∧
          (h.ppsOffsets.length = 7 → within1us (h.ppsOffsets ++ [off]) = true → Completes (exec (.ppsEdge off) s) fun u =>
            u.hier.ppsOffsets = [] ∧ u.hier.ppsCentre = off ∧ u.hier.lastPps = h.lastPps ∧
            u.hier.locked = decide (-1000 ≤ off.toInt ∧ off.toInt ≤ 1000) ∧
            (u.source (platSource 12)).raw = true)))) ∧
    (s.hier.role = 0 ∨ s.hier.role = 1 → bit (s.reg (clcBase 0 + 0xE40)) 8 = true → ∀ off : BitVec 64,
      100000 < (off.toInt - s.hier.ppsCentre.toInt).natAbs → Completes (exec (.ppsEdge off) s) fun u =>
        (u.source (platSource 12)).raw = true ∧ u.hier = s.hier) ∧
    (s.hier.role = 2 → s.hier.holdover = false → s.hier.ptpMaster = false → 2000000000 ≤ (s.now - s.hier.lastPps).toNat →
      Completes (exec .holdoverEntry s) fun u => u.hier = { s.hier with holdover := true } ∧
        (∃ e ∈ u.ben.ram, e.typ = 8 ∧ e.lseq = s.ben.lseq + 1) ∧ u = { s with
          hier := u.hier
          ben := u.ben }) ∧
    (s.now.toNat % 1000000000 = 0 → exec .ppsOutPulse s = .next { s with out := s.out ++ [.pps] })) ∧
  (∀ (s : State) (c : CellId) (n : BitVec 4), let b := pmcCell c
    let sel := s.reg (b + 4 * n.toNat)
    bit (s.reg (b + 0xC0)) 0 = true → bit (s.reg (b + 0xC0)) 1 = false → field sel 7 0 ≠ 0 → bit sel 14 = false →
    s.reg64 (b + 0x40 + 8 * n.toNat) = 2 ^ 48 - 1 → Completes (exec (.pmcWrap c n) s) fun u =>
      u.reg64 (b + 0x40 + 8 * n.toNat) = 0 ∧ bit (u.reg (b + 0xC4)) n.toNat = true ∧
      bit (u.reg (b + 0xC0)) 1 = bit sel 15 ∧ u = { s with regs := u.regs }) ∧
  ∀ s : State, Completes (exec .pmcDump s) fun u => u = { s with regs := u.regs } ∧ ∀ g, g < 16 → let b := pmcBase g
    let sel := min 24 (s.regField (b + 0x2000) 4 0)
    (sel < 10 ∨ s.now.toNat % (2 ^ sel * 1000) ≠ 0 → u.reg (b + 0x2004) = s.reg (b + 0x2004)) ∧
    (10 ≤ sel → s.now.toNat % (2 ^ sel * 1000) = 0 → u.reg (b + 0x2004) = s.reg (b + 0x2004) + 1 ∧
      u.reg64 (b + 0x2008) = s.now.toNat ∧ ∀ x n, x < 16 → n < 16 →
        u.reg64 (b + 0x1000 + 0x100 * x + 8 * n) = s.reg64 (b + 0x100 * x + 0x40 + 8 * n))

/-! ### The platform (16; 14 R626) -/

/-- Event inputs are debounced, send tokens 10 µs apart and are masked when stuck; outputs report shorts and open loads; feeds,
the flush, rails, the sequencer and protection; droop control, fitted modules and the calendar's backup. EDGE 3, what holds
back a token, and what a sequencing fault and a restart leave rest on assumptions 57 to 61. -/
def Obligations.Platform : Prop :=
  (∀ (s : State) (q : BitVec 2), let n := q.toNat
    let x := s.evt n
    let cfg := s.reg (evtCfgAt n)
    let p : BitVec 6 := cfg.setWidth 6
    let evtOnly (u : State) (y : EvtIn) : Prop := u.evt n = y ∧ (∀ k, k ≠ n → u.evt k = s.evt k) ∧
      u.plat = { s.plat with evts := u.plat.evts }
    let tokens : Prop := bit cfg 31 = true ∧ bit cfg 7 = true ∧ (s.part p).isLive = true ∧ isNullCtx (s.eventCtx p) = false
    let sent (u : State) (v : EvtIn) : Prop := ∃ r ∈ u.retained, r.snd.who = .collector ∧
      r.tok = mkToken (s.eventCtx p) (s.eventStmt p) 0 portControl flEvt (s.ringSid p) (v.value n)
    (∀ b, x.raw ≠ b → Completes (exec (.evtInChange q b) s) fun u => evtOnly u { x with
        raw := b
        since := s.now } ∧ u = { s with plat := u.plat }) ∧
    (x.raw ≠ x.level → s.debounceNs n ≤ (s.now - x.since).toNat → x.stuck = false → x.rearmDue = false →
      let y : EvtIn := { x with
        level := x.raw
        risen := if x.raw = true then s.now else x.risen }
      let matched : Prop := s.regField (evtCfgAt n) 30 29 = (if x.raw = true then 0 else 1) ∨ s.regField (evtCfgAt n) 30 29 = 2
      (bit cfg 31 = false ∨ ¬matched → Completes (exec (.evtInAccept q) s) fun u => evtOnly u y ∧ u = { s with plat := u.plat }) ∧
      (bit cfg 31 = true → matched →
        let counted (u : State) : Prop := u.regField (evtCntAt n) 31 16 = min 65535 (s.regField (evtCntAt n) 31 16 + 1)
        (bit cfg 7 = false → Completes (exec (.evtInAccept q) s) fun u => evtOnly u y ∧ counted u) ∧
        (tokens → x.spacing = false → x.coalesced = 0 → x.stuckDue = false → Completes (exec (.evtInAccept q) s) fun u =>
          evtOnly u { y with spacing := true } ∧ counted u ∧ sent u y) ∧
        (tokens → x.spacing = true → Completes (exec (.evtInAccept q) s) fun u => evtOnly u { y with
          coalesced := if x.coalesced = 0xFFFF then x.coalesced else x.coalesced + 1 } ∧ counted u ∧
          u.regField (evtCntAt n) 15 0 = min 65535 (s.regField (evtCntAt n) 15 0 + 1) ∧ u.retained = s.retained))) ∧
    (x.spacing = true →
      (x.coalesced = 0 → x.stuckDue = false → x.rearmDue = false → Completes (exec (.evtCoalesceEnd q) s) fun u =>
        evtOnly u { x with spacing := false } ∧ u = { s with plat := u.plat }) ∧
      (x.coalesced ≠ 0 → tokens → Completes (exec (.evtCoalesceEnd q) s) fun u => evtOnly u { x with
          coalesced := 0
          stuckDue := false
          rearmDue := false } ∧ sent u { x with spacing := false })) ∧
    (∀ t, s.stuckNs n = some t → x.level = true → x.stuck = false → t < (s.now - x.risen).toNat →
      Completes (exec (.evtStuck q) s) fun u => (u.evt n).stuck = true ∧ (u.source (platSource 11)).raw = true ∧
        (tokens → x.spacing = false → sent u { x with
          stuck := true
          stuckDue := true }))) ∧
  (∀ (s : State) (o : BitVec 2), s.outputOn o = true → let b : BitVec 3 := 1 <<< o.toNat
    (Completes (exec (.outputShort o) s) fun u => u.plat = { s.plat with
        shortOut := s.plat.shortOut ||| b
        openOut := s.plat.openOut &&& ~~~b } ∧ u.outputOn o = false ∧ (u.source (platSource 10)).raw = true) ∧
    Completes (exec (.outputOpen o) s) fun u => u.plat = { s.plat with openOut := s.plat.openOut ||| b } ∧
      (u.source (platSource 10)).raw = true) ∧
  (∀ (s : State) (o : BitVec 2), exec (.outputShortRetry o) s = .next { s with plat := { s.plat with
    shortOut := s.plat.shortOut &&& ~~~((1 : BitVec 3) <<< o.toNat) } }) ∧
  (∀ (s : State) (f : BitVec 1), let logged (u : State) (event : Byte) : Prop :=
      ∃ e ∈ u.ben.ram, e.typ = 9 ∧ e.body = [event, f.setWidth 8] ∧ e.lseq = s.ben.lseq + 1
    let only (u : State) (v : BitVec 2) : Prop := u.feed f.toNat = v ∧ (∀ k, k ≠ f.toNat → u.feed k = s.feed k) ∧ u = { s with
        plat := { s.plat with feeds := u.plat.feeds }
        ben := u.ben }
    (s.feed f.toNat = 0 → Completes (exec (.feedLoss f) s) (fun u => only u 1 ∧ logged u 0) ∧
      Completes (exec (.feedOvervoltage f) s) fun u => only u 2 ∧ logged u 0) ∧
    (s.feed f.toNat ≠ 0 → Completes (exec (.feedOvervoltage f) s) (fun u => only u 2 ∧ u.ben = s.ben) ∧
      Completes (exec (.feedReturn f) s) fun u => only u 0 ∧ logged u 1)) ∧
  (∀ s : State,
    let wiped (u : State) : Prop := u.mem = [] ∧ u.frames = [] ∧ (∀ c k, (u.slot c k).state = .idle) ∧
      (∀ a, u.reg a = regReset a) ∧ u.ben.ready = false ∧ u.ledger = s.ledger ∧ u.tn = s.tn
    (∀ k : BitVec 3, s.plat.flushed = none → Completes (exec (.bothFeedsLost k) s) fun u => u.plat.flushed = some k ∧
      u.feed 0 ≠ 0 ∧ u.feed 1 ≠ 0 ∧ (1 ≤ k.toNat → u.plat.ledgerClosed = true) ∧
      (3 ≤ k.toNat → u.ben.ram = [] ∧ u.ben.calStored = s.ben.tai) ∧ (k.toNat < 3 → u.ben.ram = s.ben.ram) ∧
      u.slots = s.slots ∧ u.mem = s.mem) ∧
    (∀ k, s.plat.flushed = some k → s.feed 0 = 0 ∨ s.feed 1 = 0 → Completes (exec .restartAfterFlush s) fun u => wiped u ∧
      u.plat.flushed = none ∧ u.plat.rails = 0 ∧ u.ben.running = false ∧ (k < 5 → ∃ e ∈ u.ben.ram, e.typ = 9) ∧
      (5 ≤ k → u.ben.ram = [])) ∧
    (s.plat.standbyOnly = false → s.plat.seqHold = false → s.plat.flushed = none → ∀ r : BitVec 3, r.toNat ≤ 3 →
      s.plat.rails = railsBelow r → Completes (exec (.railStart r) s) fun u => u.plat.rails = s.plat.rails ||| railBit r ∧
        (r ≠ 0 → u = { s with plat := { s.plat with rails := u.plat.rails } }) ∧ (r = 0 → u.plat.capSince = none)) ∧
    (∀ r : BitVec 3, r.toNat ≤ 3 → s.ben.ready = false → s.plat.rails = railsBelow r ||| railBit r →
      Completes (exec (.railSequencingFault r) s) fun u => wiped u ∧ u.plat.seqTries = s.plat.seqTries + 1 ∧
        u.plat.seqHold = true ∧ u.plat.rails = (if r = 0 then 0 else 1) ∧ (u.source (platSource 4)).raw = true ∧
        (1 ≤ s.plat.seqTries → u.plat.standbyOnly = true) ∧ (s.plat.seqTries = 0 → u.plat.standbyOnly = s.plat.standbyOnly)) ∧
    (s.plat.seqHold = true → s.plat.standbyOnly = false →
      exec .sequenceRetry s = .next { s with plat := { s.plat with seqHold := false } }) ∧
    (∀ r : BitVec 3, r ≠ 0 → r.toNat ≤ 3 → s.plat.rails.getLsbD r.toNat = true →
      Completes (exec (.railOutOfRange r) s) fun u => wiped u ∧ u.plat.rails = s.plat.rails &&& railsBelow r ∧
        u.ben.running = s.ben.running ∧ (u.source (platSource 3)).raw = true) ∧
    (s.plat.rails.getLsbD 0 = true → Completes (exec .standbyRailLoss s) fun u => wiped u ∧ u.plat.rails = 0 ∧
      u.ben.running = false) ∧
    (let protects (o : Outcome) (i : Nat) : Prop := Completes o fun u => wiped u ∧ u.plat.standbyOnly = true ∧ u.plat.rails = 1 ∧
        u.plat.protect = s.plat.protect ||| 1 <<< i ∧ u.ben.running = s.ben.running ∧ u.ben.calStored = s.ben.tai
     s.dbg.isOpen = false → (∀ g, protects (exec (.overtemperatureProtect g) s) g.toNat) ∧ protects (exec .noFlowProtect s) 16) ∧
    (∀ (g : BitVec 4) (f : BitVec 16), 1200 ≤ f.toNat → f.toNat ≤ 2600 → Completes (exec (.droopControl g f) s) fun u =>
      u.cluster g = { (s.cluster g) with cellMhz := f } ∧ (∀ h, h ≠ g → u.cluster h = s.cluster h) ∧
      u = { s with clusters := u.clusters }) ∧
    (∀ (fabric : Bool) (cage : BitVec 3) (w : BitVec 8), let at_ := cage.toNat + if fabric = true then 8 else 0
      let most := if fabric = true then 16 else 14
      (w.toNat ≤ most → exec (.fittedModuleInsert fabric cage w) s = .next { s with plat := { s.plat with
        cages := Map.set 0 s.plat.cages at_ w } }) ∧
      (most < w.toNat → exec (.fittedModuleInsert fabric cage w) s = .next { s with
        out := s.out ++ [.notify 0x57 (BitVec.ofNat 32 (at_ * 256 + w.toNat))] })) ∧
    ∀ b, Completes (exec (.externalBackupChange b) s) fun u => u.ben = { s.ben with backup := b } ∧
      (s.plat.rails.getLsbD 0 = true → s.plat.flushed = none → u.plat.capSince = s.plat.capSince) ∧
      (s.plat.rails.getLsbD 0 = false → u.plat.capSince = if b = true then none else some s.now) ∧
      (s.plat.capSince = none → u.plat.clockStopped = s.plat.clockStopped) ∧ u.regs = s.regs)

/-! ### The system window (00 R10 to R16; 05 R241, 09 R377, 13 R570 to R579, 15 R650 to R652) -/

/-- A write through the window changes one register, bit by bit as its access types say; a 64-bit pair is read and written
whole; vector registers load, an LFSR is never written 0, and the perturbation block acts only while it is open. -/
def Obligations.RegisterCommands : Prop :=
  (∀ (r : RegSpec) (lk : Bool) (old v : Word) (k : Nat), k < 32 → let new := bit (regWritten r lk old v) k
    (bit r.rw k = true → bit r.w1c k = false → bit r.w1s k = false → new = bit v k) ∧
    (bit r.rw k = false → bit r.rwl k = true → bit r.w1c k = false → bit r.w1s k = false →
      new = if lk = true then bit old k else bit v k) ∧
    (bit r.rw k = false → bit r.rwl k = false →
      (bit r.w1c k = true → bit r.w1s k = false → new = (bit old k && !bit v k)) ∧
      (bit r.w1c k = false → bit r.w1s k = true → new = (bit old k || bit v k)) ∧
      (bit r.w1c k = false → bit r.w1s k = false → new = bit old k))) ∧
  (∀ (s : State) (w : Writer) (a : BitVec 24) (v : Word) (r : RegSpec), w ≠ .benus → (∀ p, w ≠ .pcie p) →
    regSpec a.toNat = some r →
    let n := a.toNat
    let wrote (u : State) : Prop := u.reg n = regWritten r (s.locked r) (s.reg n) v ∧ ∀ b, b ≠ n → u.reg b = s.reg b
    let writes (o : Outcome) : Prop := Completes o fun u => wrote u ∧ u = { s with regs := u.regs }
    (mayWrite w n = false → exec (.registerWrite w a v) s = .next s) ∧
    (mayWrite w n = true →
      (plainReg n → writes (exec (.registerWrite w a v) s) ∧
        (r.w1s ≠ 0 → bit v 31 = true → writes (exec (.lockWrite w a v) s)) ∧
        (r.w1c ≠ 0 → writes (exec (.w1cWrite w a v) s)) ∧
        ((pmcOwner n).isSome = true → n % 0x100 = 0xC0 → bit v 1 = true → writes (exec (.pmcFrozenRelease w a v) s))) ∧
      (isLo n = true → Completes (exec (.registerWrite w a v) s) fun u => Map.get 0 u.loHold n = v ∧
        u = { s with loHold := u.loHold }) ∧
      (isLfsr n = true → (v.setWidth 16 = (0 : BitVec 16) → exec (.lfsrWrite w a v) s = .next s) ∧
        (v.setWidth 16 ≠ (0 : BitVec 16) → writes (exec (.lfsrWrite w a v) s))) ∧
      (∀ c : CellId, n = clcCell c 0xB40 → let v' := regWritten r (s.locked r) (s.reg n) v
        let y := s.setReg n v'
        y.touches (s.esid c) (v' + 1) 7 = y → ∀ vs, y.spaceReads (s.esid c) (v' + 1) 7 = .ok vs →
        ((∀ x ∈ vs, x.tag = Tag.code ∧ y.touches (s.esid c) x.data 4 = y) → Completes (exec (.evecWrite w a v) s) fun u => wrote u ∧
          (∀ k, k < 7 → Map.get 0 (u.cell c).vectors (k + 1) = (vs.getD k TWord.empty).data ∧
            ∀ ws, y.spaceReads (s.esid c) (vs.getD k TWord.empty).data 4 = .ok ws → ∀ j, j < 4 →
              Map.get TWord.empty (u.cell c).prefetch (4 * k + j) = ws.getD j TWord.empty) ∧ u = { s with
            regs := u.regs
            cells := u.cells }) ∧
        ((∃ x ∈ vs, x.tag ≠ Tag.code) → writes (exec (.evecWrite w a v) s))) ∧
      (isHi n = true → ∀ lo, regSpec (n - 4) = some lo → let low := Map.get 0 s.loHold (n - 4)
        Completes (exec (.reg64HiWrite w a v) s) fun u =>
          u.reg (n - 4) = regWritten lo (s.locked lo) (s.reg (n - 4)) low ∧
          u.reg n = regWritten r (s.locked r) (s.reg n) v ∧ (∀ b, b ≠ n → b ≠ n - 4 → u.reg b = s.reg b) ∧
          u = { s with regs := u.regs })) ∧
    (isLo n = true → Completes (exec (.reg64LoRead w a) s) fun u => Map.get none u.hiLatch (n + 4) = some (s.regNow (n + 4)) ∧
      u = { s with hiLatch := u.hiLatch })) ∧
  (∀ (s : State) (a : BitVec 24) (v : Word) (r : RegSpec), regSpec a.toNat = some r → plainReg a.toNat →
    let written (o : Outcome) : Prop := Completes o fun u => (∀ b, b ≠ a.toNat → u.reg b = s.reg b) ∧ u = { s with regs := u.regs } ∧
      ∀ k, k < 32 → bit (u.reg a.toNat) k = if bit r.busSet k && bit v k then true
        else if bit r.bus k && !s.locked r then bit v k else bit (regWritten r (s.locked r) (s.reg a.toNat) v) k
    written (exec (.registerWrite .benus a v) s) ∧
    (bit r.busSet 31 = true → bit v 31 = true → written (exec (.lockWrite .benus a v) s))) ∧
  (∀ (s : State) (p : BitVec 1) (m : BitVec 5) (v : Word), (s.mbx m).transport = some (.pcie p) →
    let at_ (o : Nat) : BitVec 24 := BitVec.ofNat 24 (0x20000 + 16 * m.toNat + o)
    let only (b : Mailbox) (u : State) : Prop := u.mbx m = b ∧ (∀ k, k ≠ m → u.mbx k = s.mbx k) ∧ u = { s with
      ben := { s.ben with mbx := u.ben.mbx } }
    (v &&& 3 = 0 → Completes (exec (.registerWrite (.pcie p) (at_ 0) v) s) (only { (s.mbx m) with irqEn := bit v 2 })) ∧
    Completes (exec (.w1cWrite (.pcie p) (at_ 4) v) s) (only { (s.mbx m) with
      overrun := (s.mbx m).overrun && !bit v 3 })) ∧
  (∀ (s : State) (w : Writer) (a : BitVec 24) (v : Word), (∀ p, w ≠ .pcie p) → regSpec a.toNat = none →
    let stops (o : Outcome) : Prop := o = .refused (.deviceNotDescribed a)
    stops (exec (.registerWrite w a v) s) ∧ stops (exec (.lockWrite w a v) s) ∧ stops (exec (.w1cWrite w a v) s) ∧
      stops (exec (.reg64LoRead w a) s) ∧ stops (exec (.reg64HiWrite w a v) s) ∧ stops (exec (.evecWrite w a v) s) ∧
      stops (exec (.lfsrWrite w a v) s) ∧ stops (exec (.pmcFrozenRelease w a v) s)) ∧
  ∀ (s : State) (w : Writer) (c : BitVec 4) (v : Word), w ≠ .benus → (∀ p, w ≠ .pcie p) →
    let at_ := if bit v 31 = true then dirBase c.toNat + 8 else cchBase c.toNat + 8
    (s.tstOpen = false → exec (.tstInjWrite w v) s = .next s ∧ exec (.tstLfsrForce w c v) s = .next s ∧
      exec (.tstLfsrStep w c v) s = .next s) ∧
    (s.tstOpen = true →
      (Completes (exec (.tstInjWrite w v) s) fun u => ∃ r, regSpec (tstBase + 4) = some r ∧
        u.reg (tstBase + 4) = regWritten r (s.locked r) (s.reg (tstBase + 4)) v ∧ u = { s with regs := u.regs }) ∧
      (bit v 30 = true → field v 15 0 ≠ 0 → field v 23 16 = 0 → Completes (exec (.tstLfsrForce w c v) s) fun u =>
        u.reg at_ = BitVec.ofNat 32 (field v 15 0) ∧ u = { s with regs := u.regs }) ∧
      (bit v 30 = false → field v 23 16 ≠ 0 → Completes (exec (.tstLfsrStep w c v) s) fun u =>
        u.reg at_ = (lfsrSteps (field v 23 16) ((s.reg at_).setWidth 16)).setWidth 32 ∧ u = { s with regs := u.regs }))
end

