-- ==== Sys2Proof/Laws/Map.lean ====
section
/-! SUPPORT. The laws of the sparse tables: reading after writing, and the canonical form that every write keeps. -/

namespace Sys2Proof.Machine

variable {α : Type}

@[simp] theorem Map.get_nil (d : α) (k : Nat) : Map.get d [] k = d := rfl

@[simp] theorem Map.get_cons (d : α) (i : Nat) (v : α) (m : Map α) (k : Nat) :
    Map.get d ((i, v) :: m) k = if i = k then v else Map.get d m k := rfl

/-- Taking the entries of a key out makes it read as unlisted. -/
theorem Map.get_del_same (d : α) (m : Map α) (k : Nat) : Map.get d (Map.del m k) k = d := by
  induction m with
  | nil => rfl
  | cons e m ih =>
    obtain ⟨i, v⟩ := e
    by_cases h : i = k
    · simpa [Map.del, h] using ih
    · simpa [Map.del, h] using ih

/-- Taking a key out leaves every other key as it was. -/
theorem Map.get_del_ne (d : α) (m : Map α) {k j : Nat} (h : j ≠ k) :
    Map.get d (Map.del m k) j = Map.get d m j := by
  induction m with
  | nil => rfl
  | cons e m ih =>
    obtain ⟨i, v⟩ := e
    by_cases hi : i = k
    · have : i ≠ j := fun e => h (e.symm.trans hi)
      simpa [Map.del, hi, this, h.symm] using ih
    · have ih' : Map.get d (List.filter (fun e => e.1 != k) m) j = Map.get d m j := ih
      simp [Map.del, hi, ih']

theorem Map.get_insert_ne (d : α) (m : Map α) {k j : Nat} (v : α) (h : j ≠ k) :
    Map.get d (Map.insert k v m) j = Map.get d m j := by
  induction m with
  | nil => simp [Map.insert, h.symm]
  | cons e m ih =>
    obtain ⟨i, w⟩ := e
    unfold Map.insert
    split
    · simp [h.symm]
    · simp [ih]

theorem Map.get_insert_same (d : α) (m : Map α) (k : Nat) (v : α) (h : ∀ e ∈ m, e.1 ≠ k) :
    Map.get d (Map.insert k v m) k = v := by
  induction m with
  | nil => simp [Map.insert]
  | cons e m ih =>
    obtain ⟨i, w⟩ := e
    have hi : i ≠ k := h (i, w) (by simp)
    unfold Map.insert
    split
    · simp
    · simp [hi, ih fun e he => h e (List.mem_cons_of_mem _ he)]

theorem Map.del_ne (m : Map α) (k : Nat) : ∀ e ∈ Map.del m k, e.1 ≠ k := by
  intro e he
  simpa [Map.del] using (List.mem_filter.1 he).2

/-- A key reads as what was written last. -/
@[simp] theorem Map.get_set_same [DecidableEq α] (d : α) (m : Map α) (k : Nat) (v : α) :
    Map.get d (Map.set d m k v) k = v := by
  unfold Map.set
  split
  · next h => rw [Map.get_del_same, h]
  · exact Map.get_insert_same d _ k v (Map.del_ne m k)

/-- A write leaves every other key as it was. -/
theorem Map.get_set_ne [DecidableEq α] (d : α) (m : Map α) {k j : Nat} (v : α) (h : j ≠ k) :
    Map.get d (Map.set d m k v) j = Map.get d m j := by
  unfold Map.set
  split
  · exact Map.get_del_ne d m h
  · rw [Map.get_insert_ne d _ v h, Map.get_del_ne d m h]

/-- Reading after writing, in one. -/
theorem Map.get_set [DecidableEq α] (d : α) (m : Map α) (k j : Nat) (v : α) :
    Map.get d (Map.set d m k v) j = if j = k then v else Map.get d m j := by
  split
  · next h => rw [h, Map.get_set_same]
  · next h => exact Map.get_set_ne d m v h

/-! ### The canonical form -/

/-- Rising keys, as a pairwise fact. -/
theorem Map.rising_iff (m : Map α) : Map.rising m = true ↔ m.Pairwise (fun a b => a.1 < b.1) := by
  induction m with
  | nil => simp [Map.rising]
  | cons e m ih =>
    cases m with
    | nil => simp [Map.rising]
    | cons f m =>
      simp only [Map.rising, Bool.and_eq_true, decide_eq_true_eq, ih]
      constructor
      · rintro ⟨h, hp⟩
        refine List.pairwise_cons.2 ⟨fun g hg => ?_, hp⟩
        rcases List.mem_cons.1 hg with rfl | hg
        · exact h
        · exact lt_trans h ((List.pairwise_cons.1 hp).1 g hg)
      · intro hp
        exact ⟨(List.pairwise_cons.1 hp).1 f (by simp), (List.pairwise_cons.1 hp).2⟩

theorem Map.wf_iff [DecidableEq α] (d : α) (m : Map α) :
    Map.wf d m = true ↔ m.Pairwise (fun a b => a.1 < b.1) ∧ ∀ e ∈ m, e.2 ≠ d := by
  simp [Map.wf, Map.rising_iff]

/-- What is left of a canonical table after entries are taken out is canonical. -/
theorem Map.wf_filter [DecidableEq α] {d : α} {m : Map α} (p : Nat × α → Bool) (h : Map.wf d m = true) :
    Map.wf d (m.filter p) = true := by
  rw [Map.wf_iff] at h ⊢
  exact ⟨h.1.filter p, fun e he => h.2 e (List.mem_filter.1 he).1⟩

theorem Map.wf_del [DecidableEq α] {d : α} {m : Map α} (k : Nat) (h : Map.wf d m = true) :
    Map.wf d (Map.del m k) = true := Map.wf_filter _ h

theorem Map.mem_insert {k : Nat} {v : α} {m : Map α} {e : Nat × α} :
    e ∈ Map.insert k v m ↔ e = (k, v) ∨ e ∈ m := by
  induction m with
  | nil => simp [Map.insert]
  | cons f m ih =>
    obtain ⟨i, w⟩ := f
    unfold Map.insert
    split
    · simp
    · simp only [List.mem_cons, ih]; tauto

theorem Map.pairwise_insert {k : Nat} {v : α} {m : Map α} (hk : ∀ e ∈ m, e.1 ≠ k)
    (h : m.Pairwise (fun a b => a.1 < b.1)) : (Map.insert k v m).Pairwise (fun a b => a.1 < b.1) := by
  induction m with
  | nil => simp [Map.insert]
  | cons f m ih =>
    obtain ⟨i, w⟩ := f
    have hp := List.pairwise_cons.1 h
    unfold Map.insert
    split
    · next hlt =>
      refine List.pairwise_cons.2 ⟨fun g hg => ?_, h⟩
      rcases List.mem_cons.1 hg with rfl | hg
      · exact hlt
      · exact lt_trans hlt (hp.1 g hg)
    · next hge =>
      have hi : i ≠ k := hk (i, w) (by simp)
      refine List.pairwise_cons.2 ⟨fun g hg => ?_, ih (fun e he => hk e (List.mem_cons_of_mem _ he)) hp.2⟩
      rcases Map.mem_insert.1 hg with rfl | hg
      · show i < k
        omega
      · exact hp.1 g hg

/-- Every write keeps the canonical form. -/
theorem Map.wf_set [DecidableEq α] {d : α} {m : Map α} (k : Nat) (v : α) (h : Map.wf d m = true) :
    Map.wf d (Map.set d m k v) = true := by
  unfold Map.set
  split
  · exact Map.wf_del k h
  · next hv =>
    have hd := (Map.wf_iff d _).1 (Map.wf_del k h)
    rw [Map.wf_iff]
    refine ⟨Map.pairwise_insert (Map.del_ne m k) hd.1, fun e he => ?_⟩
    rcases Map.mem_insert.1 he with rfl | he
    · exact hv
    · exact hd.2 e he

end Sys2Proof.Machine
end

