-- ==== Sys2Proof/Laws/State.lean ====
section
/-! SUPPORT. What each update of the state leaves as it was: one lemma per field and per table read, all true by
definition, so that no proof unfolds a record update. -/

namespace Sys2Proof.Machine

/-! ### setCell -/

@[simp] theorem State.setCell_pending (s : State) (c : CellId) (v : CellSt) : (s.setCell c v).pending = s.pending := rfl
@[simp] theorem State.setCell_regs (s : State) (c : CellId) (v : CellSt) : (s.setCell c v).regs = s.regs := rfl
@[simp] theorem State.setCell_hiLatch (s : State) (c : CellId) (v : CellSt) : (s.setCell c v).hiLatch = s.hiLatch := rfl
@[simp] theorem State.setCell_loHold (s : State) (c : CellId) (v : CellSt) : (s.setCell c v).loHold = s.loHold := rfl
@[simp] theorem State.setCell_mem (s : State) (c : CellId) (v : CellSt) : (s.setCell c v).mem = s.mem := rfl
@[simp] theorem State.setCell_frames (s : State) (c : CellId) (v : CellSt) : (s.setCell c v).frames = s.frames := rfl
@[simp] theorem State.setCell_ctxMap (s : State) (c : CellId) (v : CellSt) : (s.setCell c v).ctxMap = s.ctxMap := rfl
@[simp] theorem State.setCell_slots (s : State) (c : CellId) (v : CellSt) : (s.setCell c v).slots = s.slots := rfl
@[simp] theorem State.setCell_retained (s : State) (c : CellId) (v : CellSt) : (s.setCell c v).retained = s.retained := rfl
@[simp] theorem State.setCell_waitRecs (s : State) (c : CellId) (v : CellSt) : (s.setCell c v).waitRecs = s.waitRecs := rfl
@[simp] theorem State.setCell_clusters (s : State) (c : CellId) (v : CellSt) : (s.setCell c v).clusters = s.clusters := rfl
@[simp] theorem State.setCell_homes (s : State) (c : CellId) (v : CellSt) : (s.setCell c v).homes = s.homes := rfl
@[simp] theorem State.setCell_parts (s : State) (c : CellId) (v : CellSt) : (s.setCell c v).parts = s.parts := rfl
@[simp] theorem State.setCell_workqs (s : State) (c : CellId) (v : CellSt) : (s.setCell c v).workqs = s.workqs := rfl
@[simp] theorem State.setCell_flows (s : State) (c : CellId) (v : CellSt) : (s.setCell c v).flows = s.flows := rfl
@[simp] theorem State.setCell_items (s : State) (c : CellId) (v : CellSt) : (s.setCell c v).items = s.items := rfl
@[simp] theorem State.setCell_memErrs (s : State) (c : CellId) (v : CellSt) : (s.setCell c v).memErrs = s.memErrs := rfl
@[simp] theorem State.setCell_inMove (s : State) (c : CellId) (v : CellSt) : (s.setCell c v).inMove = s.inMove := rfl
@[simp] theorem State.setCell_moves (s : State) (c : CellId) (v : CellSt) : (s.setCell c v).moves = s.moves := rfl
@[simp] theorem State.setCell_samples (s : State) (c : CellId) (v : CellSt) : (s.setCell c v).samples = s.samples := rfl
@[simp] theorem State.setCell_placePtr (s : State) (c : CellId) (v : CellSt) : (s.setCell c v).placePtr = s.placePtr := rfl
@[simp] theorem State.setCell_ports (s : State) (c : CellId) (v : CellSt) : (s.setCell c v).ports = s.ports := rfl
@[simp] theorem State.setCell_outTx (s : State) (c : CellId) (v : CellSt) : (s.setCell c v).outTx = s.outTx := rfl
@[simp] theorem State.setCell_copies (s : State) (c : CellId) (v : CellSt) : (s.setCell c v).copies = s.copies := rfl
@[simp] theorem State.setCell_ledger (s : State) (c : CellId) (v : CellSt) : (s.setCell c v).ledger = s.ledger := rfl
@[simp] theorem State.setCell_dups (s : State) (c : CellId) (v : CellSt) : (s.setCell c v).dups = s.dups := rfl
@[simp] theorem State.setCell_tn (s : State) (c : CellId) (v : CellSt) : (s.setCell c v).tn = s.tn := rfl
@[simp] theorem State.setCell_classes (s : State) (c : CellId) (v : CellSt) : (s.setCell c v).classes = s.classes := rfl
@[simp] theorem State.setCell_keys (s : State) (c : CellId) (v : CellSt) : (s.setCell c v).keys = s.keys := rfl
@[simp] theorem State.setCell_wraps (s : State) (c : CellId) (v : CellSt) : (s.setCell c v).wraps = s.wraps := rfl
@[simp] theorem State.setCell_drbg (s : State) (c : CellId) (v : CellSt) : (s.setCell c v).drbg = s.drbg := rfl
@[simp] theorem State.setCell_col (s : State) (c : CellId) (v : CellSt) : (s.setCell c v).col = s.col := rfl
@[simp] theorem State.setCell_ben (s : State) (c : CellId) (v : CellSt) : (s.setCell c v).ben = s.ben := rfl
@[simp] theorem State.setCell_hier (s : State) (c : CellId) (v : CellSt) : (s.setCell c v).hier = s.hier := rfl
@[simp] theorem State.setCell_dbg (s : State) (c : CellId) (v : CellSt) : (s.setCell c v).dbg = s.dbg := rfl
@[simp] theorem State.setCell_plat (s : State) (c : CellId) (v : CellSt) : (s.setCell c v).plat = s.plat := rfl
@[simp] theorem State.setCell_wire (s : State) (c : CellId) (v : CellSt) : (s.setCell c v).wire = s.wire := rfl
@[simp] theorem State.setCell_out (s : State) (c : CellId) (v : CellSt) : (s.setCell c v).out = s.out := rfl
@[simp] theorem State.setCell_now (s : State) (c : CellId) (v : CellSt) : (s.setCell c v).now = s.now := rfl
@[simp] theorem State.setCell_ids (s : State) (c : CellId) (v : CellSt) : (s.setCell c v).ids = s.ids := rfl
@[simp] theorem State.setCell_free (s : State) (c : CellId) (v : CellSt) : (s.setCell c v).free = s.free := rfl
@[simp] theorem State.setCell_slot (s : State) (c : CellId) (v : CellSt) (c' : CellId) (k' : SlotId) :
    (s.setCell c v).slot c' k' = s.slot c' k' := rfl
@[simp] theorem State.setCell_frame (s : State) (c : CellId) (v : CellSt) (f' : BitVec 20) :
    (s.setCell c v).frame f' = s.frame f' := rfl
@[simp] theorem State.setCell_ctxEnt (s : State) (c : CellId) (v : CellSt) (f' : BitVec 20) :
    (s.setCell c v).ctxEnt f' = s.ctxEnt f' := rfl
@[simp] theorem State.setCell_cluster (s : State) (c : CellId) (v : CellSt) (g' : BitVec 4) :
    (s.setCell c v).cluster g' = s.cluster g' := rfl
@[simp] theorem State.setCell_home (s : State) (c : CellId) (v : CellSt) (h' : BitVec 4) :
    (s.setCell c v).home h' = s.home h' := rfl
@[simp] theorem State.setCell_part (s : State) (c : CellId) (v : CellSt) (p' : BitVec 6) :
    (s.setCell c v).part p' = s.part p' := rfl
@[simp] theorem State.setCell_workq (s : State) (c : CellId) (v : CellSt) (p' q' : BitVec 6) :
    (s.setCell c v).workq p' q' = s.workq p' q' := rfl
@[simp] theorem State.setCell_flow (s : State) (c : CellId) (v : CellSt) (f' : BitVec 12) :
    (s.setCell c v).flow f' = s.flow f' := rfl
@[simp] theorem State.setCell_move (s : State) (c : CellId) (v : CellSt) (m' : BitVec 2) :
    (s.setCell c v).move m' = s.move m' := rfl
@[simp] theorem State.setCell_port (s : State) (c : CellId) (v : CellSt) (p' : BitVec 4) :
    (s.setCell c v).port p' = s.port p' := rfl
@[simp] theorem State.setCell_entry (s : State) (c : CellId) (v : CellSt) (i' : Nat) :
    (s.setCell c v).entry i' = s.entry i' := rfl
@[simp] theorem State.setCell_dup (s : State) (c : CellId) (v : CellSt) (o' : Nat) :
    (s.setCell c v).dup o' = s.dup o' := rfl
@[simp] theorem State.setCell_eclass (s : State) (c : CellId) (v : CellSt) (k' : BitVec 3) :
    (s.setCell c v).eclass k' = s.eclass k' := rfl
@[simp] theorem State.setCell_key (s : State) (c : CellId) (v : CellSt) (i' : Nat) :
    (s.setCell c v).key i' = s.key i' := rfl
@[simp] theorem State.setCell_reg (s : State) (c : CellId) (v : CellSt) (a' : Nat) :
    (s.setCell c v).reg a' = s.reg a' := rfl

/-! ### setSlot -/

@[simp] theorem State.setSlot_pending (s : State) (c : CellId) (k : SlotId) (v : Slot) : (s.setSlot c k v).pending = s.pending := rfl
@[simp] theorem State.setSlot_regs (s : State) (c : CellId) (k : SlotId) (v : Slot) : (s.setSlot c k v).regs = s.regs := rfl
@[simp] theorem State.setSlot_hiLatch (s : State) (c : CellId) (k : SlotId) (v : Slot) : (s.setSlot c k v).hiLatch = s.hiLatch := rfl
@[simp] theorem State.setSlot_loHold (s : State) (c : CellId) (k : SlotId) (v : Slot) : (s.setSlot c k v).loHold = s.loHold := rfl
@[simp] theorem State.setSlot_mem (s : State) (c : CellId) (k : SlotId) (v : Slot) : (s.setSlot c k v).mem = s.mem := rfl
@[simp] theorem State.setSlot_frames (s : State) (c : CellId) (k : SlotId) (v : Slot) : (s.setSlot c k v).frames = s.frames := rfl
@[simp] theorem State.setSlot_ctxMap (s : State) (c : CellId) (k : SlotId) (v : Slot) : (s.setSlot c k v).ctxMap = s.ctxMap := rfl
@[simp] theorem State.setSlot_cells (s : State) (c : CellId) (k : SlotId) (v : Slot) : (s.setSlot c k v).cells = s.cells := rfl
@[simp] theorem State.setSlot_retained (s : State) (c : CellId) (k : SlotId) (v : Slot) : (s.setSlot c k v).retained = s.retained := rfl
@[simp] theorem State.setSlot_waitRecs (s : State) (c : CellId) (k : SlotId) (v : Slot) : (s.setSlot c k v).waitRecs = s.waitRecs := rfl
@[simp] theorem State.setSlot_clusters (s : State) (c : CellId) (k : SlotId) (v : Slot) : (s.setSlot c k v).clusters = s.clusters := rfl
@[simp] theorem State.setSlot_homes (s : State) (c : CellId) (k : SlotId) (v : Slot) : (s.setSlot c k v).homes = s.homes := rfl
@[simp] theorem State.setSlot_parts (s : State) (c : CellId) (k : SlotId) (v : Slot) : (s.setSlot c k v).parts = s.parts := rfl
@[simp] theorem State.setSlot_workqs (s : State) (c : CellId) (k : SlotId) (v : Slot) : (s.setSlot c k v).workqs = s.workqs := rfl
@[simp] theorem State.setSlot_flows (s : State) (c : CellId) (k : SlotId) (v : Slot) : (s.setSlot c k v).flows = s.flows := rfl
@[simp] theorem State.setSlot_items (s : State) (c : CellId) (k : SlotId) (v : Slot) : (s.setSlot c k v).items = s.items := rfl
@[simp] theorem State.setSlot_memErrs (s : State) (c : CellId) (k : SlotId) (v : Slot) : (s.setSlot c k v).memErrs = s.memErrs := rfl
@[simp] theorem State.setSlot_inMove (s : State) (c : CellId) (k : SlotId) (v : Slot) : (s.setSlot c k v).inMove = s.inMove := rfl
@[simp] theorem State.setSlot_moves (s : State) (c : CellId) (k : SlotId) (v : Slot) : (s.setSlot c k v).moves = s.moves := rfl
@[simp] theorem State.setSlot_samples (s : State) (c : CellId) (k : SlotId) (v : Slot) : (s.setSlot c k v).samples = s.samples := rfl
@[simp] theorem State.setSlot_placePtr (s : State) (c : CellId) (k : SlotId) (v : Slot) : (s.setSlot c k v).placePtr = s.placePtr := rfl
@[simp] theorem State.setSlot_ports (s : State) (c : CellId) (k : SlotId) (v : Slot) : (s.setSlot c k v).ports = s.ports := rfl
@[simp] theorem State.setSlot_outTx (s : State) (c : CellId) (k : SlotId) (v : Slot) : (s.setSlot c k v).outTx = s.outTx := rfl
@[simp] theorem State.setSlot_copies (s : State) (c : CellId) (k : SlotId) (v : Slot) : (s.setSlot c k v).copies = s.copies := rfl
@[simp] theorem State.setSlot_ledger (s : State) (c : CellId) (k : SlotId) (v : Slot) : (s.setSlot c k v).ledger = s.ledger := rfl
@[simp] theorem State.setSlot_dups (s : State) (c : CellId) (k : SlotId) (v : Slot) : (s.setSlot c k v).dups = s.dups := rfl
@[simp] theorem State.setSlot_tn (s : State) (c : CellId) (k : SlotId) (v : Slot) : (s.setSlot c k v).tn = s.tn := rfl
@[simp] theorem State.setSlot_classes (s : State) (c : CellId) (k : SlotId) (v : Slot) : (s.setSlot c k v).classes = s.classes := rfl
@[simp] theorem State.setSlot_keys (s : State) (c : CellId) (k : SlotId) (v : Slot) : (s.setSlot c k v).keys = s.keys := rfl
@[simp] theorem State.setSlot_wraps (s : State) (c : CellId) (k : SlotId) (v : Slot) : (s.setSlot c k v).wraps = s.wraps := rfl
@[simp] theorem State.setSlot_drbg (s : State) (c : CellId) (k : SlotId) (v : Slot) : (s.setSlot c k v).drbg = s.drbg := rfl
@[simp] theorem State.setSlot_col (s : State) (c : CellId) (k : SlotId) (v : Slot) : (s.setSlot c k v).col = s.col := rfl
@[simp] theorem State.setSlot_ben (s : State) (c : CellId) (k : SlotId) (v : Slot) : (s.setSlot c k v).ben = s.ben := rfl
@[simp] theorem State.setSlot_hier (s : State) (c : CellId) (k : SlotId) (v : Slot) : (s.setSlot c k v).hier = s.hier := rfl
@[simp] theorem State.setSlot_dbg (s : State) (c : CellId) (k : SlotId) (v : Slot) : (s.setSlot c k v).dbg = s.dbg := rfl
@[simp] theorem State.setSlot_plat (s : State) (c : CellId) (k : SlotId) (v : Slot) : (s.setSlot c k v).plat = s.plat := rfl
@[simp] theorem State.setSlot_wire (s : State) (c : CellId) (k : SlotId) (v : Slot) : (s.setSlot c k v).wire = s.wire := rfl
@[simp] theorem State.setSlot_out (s : State) (c : CellId) (k : SlotId) (v : Slot) : (s.setSlot c k v).out = s.out := rfl
@[simp] theorem State.setSlot_now (s : State) (c : CellId) (k : SlotId) (v : Slot) : (s.setSlot c k v).now = s.now := rfl
@[simp] theorem State.setSlot_ids (s : State) (c : CellId) (k : SlotId) (v : Slot) : (s.setSlot c k v).ids = s.ids := rfl
@[simp] theorem State.setSlot_free (s : State) (c : CellId) (k : SlotId) (v : Slot) : (s.setSlot c k v).free = s.free := rfl
@[simp] theorem State.setSlot_cell (s : State) (c : CellId) (k : SlotId) (v : Slot) (c' : CellId) :
    (s.setSlot c k v).cell c' = s.cell c' := rfl
@[simp] theorem State.setSlot_frame (s : State) (c : CellId) (k : SlotId) (v : Slot) (f' : BitVec 20) :
    (s.setSlot c k v).frame f' = s.frame f' := rfl
@[simp] theorem State.setSlot_ctxEnt (s : State) (c : CellId) (k : SlotId) (v : Slot) (f' : BitVec 20) :
    (s.setSlot c k v).ctxEnt f' = s.ctxEnt f' := rfl
@[simp] theorem State.setSlot_cluster (s : State) (c : CellId) (k : SlotId) (v : Slot) (g' : BitVec 4) :
    (s.setSlot c k v).cluster g' = s.cluster g' := rfl
@[simp] theorem State.setSlot_home (s : State) (c : CellId) (k : SlotId) (v : Slot) (h' : BitVec 4) :
    (s.setSlot c k v).home h' = s.home h' := rfl
@[simp] theorem State.setSlot_part (s : State) (c : CellId) (k : SlotId) (v : Slot) (p' : BitVec 6) :
    (s.setSlot c k v).part p' = s.part p' := rfl
@[simp] theorem State.setSlot_workq (s : State) (c : CellId) (k : SlotId) (v : Slot) (p' q' : BitVec 6) :
    (s.setSlot c k v).workq p' q' = s.workq p' q' := rfl
@[simp] theorem State.setSlot_flow (s : State) (c : CellId) (k : SlotId) (v : Slot) (f' : BitVec 12) :
    (s.setSlot c k v).flow f' = s.flow f' := rfl
@[simp] theorem State.setSlot_move (s : State) (c : CellId) (k : SlotId) (v : Slot) (m' : BitVec 2) :
    (s.setSlot c k v).move m' = s.move m' := rfl
@[simp] theorem State.setSlot_port (s : State) (c : CellId) (k : SlotId) (v : Slot) (p' : BitVec 4) :
    (s.setSlot c k v).port p' = s.port p' := rfl
@[simp] theorem State.setSlot_entry (s : State) (c : CellId) (k : SlotId) (v : Slot) (i' : Nat) :
    (s.setSlot c k v).entry i' = s.entry i' := rfl
@[simp] theorem State.setSlot_dup (s : State) (c : CellId) (k : SlotId) (v : Slot) (o' : Nat) :
    (s.setSlot c k v).dup o' = s.dup o' := rfl
@[simp] theorem State.setSlot_eclass (s : State) (c : CellId) (k : SlotId) (v : Slot) (k' : BitVec 3) :
    (s.setSlot c k v).eclass k' = s.eclass k' := rfl
@[simp] theorem State.setSlot_key (s : State) (c : CellId) (k : SlotId) (v : Slot) (i' : Nat) :
    (s.setSlot c k v).key i' = s.key i' := rfl
@[simp] theorem State.setSlot_reg (s : State) (c : CellId) (k : SlotId) (v : Slot) (a' : Nat) :
    (s.setSlot c k v).reg a' = s.reg a' := rfl

/-! ### setFrame -/

@[simp] theorem State.setFrame_pending (s : State) (f : BitVec 20) (v : Frame) : (s.setFrame f v).pending = s.pending := rfl
@[simp] theorem State.setFrame_regs (s : State) (f : BitVec 20) (v : Frame) : (s.setFrame f v).regs = s.regs := rfl
@[simp] theorem State.setFrame_hiLatch (s : State) (f : BitVec 20) (v : Frame) : (s.setFrame f v).hiLatch = s.hiLatch := rfl
@[simp] theorem State.setFrame_loHold (s : State) (f : BitVec 20) (v : Frame) : (s.setFrame f v).loHold = s.loHold := rfl
@[simp] theorem State.setFrame_mem (s : State) (f : BitVec 20) (v : Frame) : (s.setFrame f v).mem = s.mem := rfl
@[simp] theorem State.setFrame_ctxMap (s : State) (f : BitVec 20) (v : Frame) : (s.setFrame f v).ctxMap = s.ctxMap := rfl
@[simp] theorem State.setFrame_cells (s : State) (f : BitVec 20) (v : Frame) : (s.setFrame f v).cells = s.cells := rfl
@[simp] theorem State.setFrame_slots (s : State) (f : BitVec 20) (v : Frame) : (s.setFrame f v).slots = s.slots := rfl
@[simp] theorem State.setFrame_retained (s : State) (f : BitVec 20) (v : Frame) : (s.setFrame f v).retained = s.retained := rfl
@[simp] theorem State.setFrame_waitRecs (s : State) (f : BitVec 20) (v : Frame) : (s.setFrame f v).waitRecs = s.waitRecs := rfl
@[simp] theorem State.setFrame_clusters (s : State) (f : BitVec 20) (v : Frame) : (s.setFrame f v).clusters = s.clusters := rfl
@[simp] theorem State.setFrame_homes (s : State) (f : BitVec 20) (v : Frame) : (s.setFrame f v).homes = s.homes := rfl
@[simp] theorem State.setFrame_parts (s : State) (f : BitVec 20) (v : Frame) : (s.setFrame f v).parts = s.parts := rfl
@[simp] theorem State.setFrame_workqs (s : State) (f : BitVec 20) (v : Frame) : (s.setFrame f v).workqs = s.workqs := rfl
@[simp] theorem State.setFrame_flows (s : State) (f : BitVec 20) (v : Frame) : (s.setFrame f v).flows = s.flows := rfl
@[simp] theorem State.setFrame_items (s : State) (f : BitVec 20) (v : Frame) : (s.setFrame f v).items = s.items := rfl
@[simp] theorem State.setFrame_memErrs (s : State) (f : BitVec 20) (v : Frame) : (s.setFrame f v).memErrs = s.memErrs := rfl
@[simp] theorem State.setFrame_inMove (s : State) (f : BitVec 20) (v : Frame) : (s.setFrame f v).inMove = s.inMove := rfl
@[simp] theorem State.setFrame_moves (s : State) (f : BitVec 20) (v : Frame) : (s.setFrame f v).moves = s.moves := rfl
@[simp] theorem State.setFrame_samples (s : State) (f : BitVec 20) (v : Frame) : (s.setFrame f v).samples = s.samples := rfl
@[simp] theorem State.setFrame_placePtr (s : State) (f : BitVec 20) (v : Frame) : (s.setFrame f v).placePtr = s.placePtr := rfl
@[simp] theorem State.setFrame_ports (s : State) (f : BitVec 20) (v : Frame) : (s.setFrame f v).ports = s.ports := rfl
@[simp] theorem State.setFrame_outTx (s : State) (f : BitVec 20) (v : Frame) : (s.setFrame f v).outTx = s.outTx := rfl
@[simp] theorem State.setFrame_copies (s : State) (f : BitVec 20) (v : Frame) : (s.setFrame f v).copies = s.copies := rfl
@[simp] theorem State.setFrame_ledger (s : State) (f : BitVec 20) (v : Frame) : (s.setFrame f v).ledger = s.ledger := rfl
@[simp] theorem State.setFrame_dups (s : State) (f : BitVec 20) (v : Frame) : (s.setFrame f v).dups = s.dups := rfl
@[simp] theorem State.setFrame_tn (s : State) (f : BitVec 20) (v : Frame) : (s.setFrame f v).tn = s.tn := rfl
@[simp] theorem State.setFrame_classes (s : State) (f : BitVec 20) (v : Frame) : (s.setFrame f v).classes = s.classes := rfl
@[simp] theorem State.setFrame_keys (s : State) (f : BitVec 20) (v : Frame) : (s.setFrame f v).keys = s.keys := rfl
@[simp] theorem State.setFrame_wraps (s : State) (f : BitVec 20) (v : Frame) : (s.setFrame f v).wraps = s.wraps := rfl
@[simp] theorem State.setFrame_drbg (s : State) (f : BitVec 20) (v : Frame) : (s.setFrame f v).drbg = s.drbg := rfl
@[simp] theorem State.setFrame_col (s : State) (f : BitVec 20) (v : Frame) : (s.setFrame f v).col = s.col := rfl
@[simp] theorem State.setFrame_ben (s : State) (f : BitVec 20) (v : Frame) : (s.setFrame f v).ben = s.ben := rfl
@[simp] theorem State.setFrame_hier (s : State) (f : BitVec 20) (v : Frame) : (s.setFrame f v).hier = s.hier := rfl
@[simp] theorem State.setFrame_dbg (s : State) (f : BitVec 20) (v : Frame) : (s.setFrame f v).dbg = s.dbg := rfl
@[simp] theorem State.setFrame_plat (s : State) (f : BitVec 20) (v : Frame) : (s.setFrame f v).plat = s.plat := rfl
@[simp] theorem State.setFrame_wire (s : State) (f : BitVec 20) (v : Frame) : (s.setFrame f v).wire = s.wire := rfl
@[simp] theorem State.setFrame_out (s : State) (f : BitVec 20) (v : Frame) : (s.setFrame f v).out = s.out := rfl
@[simp] theorem State.setFrame_now (s : State) (f : BitVec 20) (v : Frame) : (s.setFrame f v).now = s.now := rfl
@[simp] theorem State.setFrame_ids (s : State) (f : BitVec 20) (v : Frame) : (s.setFrame f v).ids = s.ids := rfl
@[simp] theorem State.setFrame_free (s : State) (f : BitVec 20) (v : Frame) : (s.setFrame f v).free = s.free := rfl
@[simp] theorem State.setFrame_cell (s : State) (f : BitVec 20) (v : Frame) (c' : CellId) :
    (s.setFrame f v).cell c' = s.cell c' := rfl
@[simp] theorem State.setFrame_slot (s : State) (f : BitVec 20) (v : Frame) (c' : CellId) (k' : SlotId) :
    (s.setFrame f v).slot c' k' = s.slot c' k' := rfl
@[simp] theorem State.setFrame_ctxEnt (s : State) (f : BitVec 20) (v : Frame) (f' : BitVec 20) :
    (s.setFrame f v).ctxEnt f' = s.ctxEnt f' := rfl
@[simp] theorem State.setFrame_cluster (s : State) (f : BitVec 20) (v : Frame) (g' : BitVec 4) :
    (s.setFrame f v).cluster g' = s.cluster g' := rfl
@[simp] theorem State.setFrame_home (s : State) (f : BitVec 20) (v : Frame) (h' : BitVec 4) :
    (s.setFrame f v).home h' = s.home h' := rfl
@[simp] theorem State.setFrame_part (s : State) (f : BitVec 20) (v : Frame) (p' : BitVec 6) :
    (s.setFrame f v).part p' = s.part p' := rfl
@[simp] theorem State.setFrame_workq (s : State) (f : BitVec 20) (v : Frame) (p' q' : BitVec 6) :
    (s.setFrame f v).workq p' q' = s.workq p' q' := rfl
@[simp] theorem State.setFrame_flow (s : State) (f : BitVec 20) (v : Frame) (f' : BitVec 12) :
    (s.setFrame f v).flow f' = s.flow f' := rfl
@[simp] theorem State.setFrame_move (s : State) (f : BitVec 20) (v : Frame) (m' : BitVec 2) :
    (s.setFrame f v).move m' = s.move m' := rfl
@[simp] theorem State.setFrame_port (s : State) (f : BitVec 20) (v : Frame) (p' : BitVec 4) :
    (s.setFrame f v).port p' = s.port p' := rfl
@[simp] theorem State.setFrame_entry (s : State) (f : BitVec 20) (v : Frame) (i' : Nat) :
    (s.setFrame f v).entry i' = s.entry i' := rfl
@[simp] theorem State.setFrame_dup (s : State) (f : BitVec 20) (v : Frame) (o' : Nat) :
    (s.setFrame f v).dup o' = s.dup o' := rfl
@[simp] theorem State.setFrame_eclass (s : State) (f : BitVec 20) (v : Frame) (k' : BitVec 3) :
    (s.setFrame f v).eclass k' = s.eclass k' := rfl
@[simp] theorem State.setFrame_key (s : State) (f : BitVec 20) (v : Frame) (i' : Nat) :
    (s.setFrame f v).key i' = s.key i' := rfl
@[simp] theorem State.setFrame_reg (s : State) (f : BitVec 20) (v : Frame) (a' : Nat) :
    (s.setFrame f v).reg a' = s.reg a' := rfl

/-! ### setCtxEnt -/

@[simp] theorem State.setCtxEnt_pending (s : State) (f : BitVec 20) (v : CtxEnt) : (s.setCtxEnt f v).pending = s.pending := rfl
@[simp] theorem State.setCtxEnt_regs (s : State) (f : BitVec 20) (v : CtxEnt) : (s.setCtxEnt f v).regs = s.regs := rfl
@[simp] theorem State.setCtxEnt_hiLatch (s : State) (f : BitVec 20) (v : CtxEnt) : (s.setCtxEnt f v).hiLatch = s.hiLatch := rfl
@[simp] theorem State.setCtxEnt_loHold (s : State) (f : BitVec 20) (v : CtxEnt) : (s.setCtxEnt f v).loHold = s.loHold := rfl
@[simp] theorem State.setCtxEnt_mem (s : State) (f : BitVec 20) (v : CtxEnt) : (s.setCtxEnt f v).mem = s.mem := rfl
@[simp] theorem State.setCtxEnt_frames (s : State) (f : BitVec 20) (v : CtxEnt) : (s.setCtxEnt f v).frames = s.frames := rfl
@[simp] theorem State.setCtxEnt_cells (s : State) (f : BitVec 20) (v : CtxEnt) : (s.setCtxEnt f v).cells = s.cells := rfl
@[simp] theorem State.setCtxEnt_slots (s : State) (f : BitVec 20) (v : CtxEnt) : (s.setCtxEnt f v).slots = s.slots := rfl
@[simp] theorem State.setCtxEnt_retained (s : State) (f : BitVec 20) (v : CtxEnt) : (s.setCtxEnt f v).retained = s.retained := rfl
@[simp] theorem State.setCtxEnt_waitRecs (s : State) (f : BitVec 20) (v : CtxEnt) : (s.setCtxEnt f v).waitRecs = s.waitRecs := rfl
@[simp] theorem State.setCtxEnt_clusters (s : State) (f : BitVec 20) (v : CtxEnt) : (s.setCtxEnt f v).clusters = s.clusters := rfl
@[simp] theorem State.setCtxEnt_homes (s : State) (f : BitVec 20) (v : CtxEnt) : (s.setCtxEnt f v).homes = s.homes := rfl
@[simp] theorem State.setCtxEnt_parts (s : State) (f : BitVec 20) (v : CtxEnt) : (s.setCtxEnt f v).parts = s.parts := rfl
@[simp] theorem State.setCtxEnt_workqs (s : State) (f : BitVec 20) (v : CtxEnt) : (s.setCtxEnt f v).workqs = s.workqs := rfl
@[simp] theorem State.setCtxEnt_flows (s : State) (f : BitVec 20) (v : CtxEnt) : (s.setCtxEnt f v).flows = s.flows := rfl
@[simp] theorem State.setCtxEnt_items (s : State) (f : BitVec 20) (v : CtxEnt) : (s.setCtxEnt f v).items = s.items := rfl
@[simp] theorem State.setCtxEnt_memErrs (s : State) (f : BitVec 20) (v : CtxEnt) : (s.setCtxEnt f v).memErrs = s.memErrs := rfl
@[simp] theorem State.setCtxEnt_inMove (s : State) (f : BitVec 20) (v : CtxEnt) : (s.setCtxEnt f v).inMove = s.inMove := rfl
@[simp] theorem State.setCtxEnt_moves (s : State) (f : BitVec 20) (v : CtxEnt) : (s.setCtxEnt f v).moves = s.moves := rfl
@[simp] theorem State.setCtxEnt_samples (s : State) (f : BitVec 20) (v : CtxEnt) : (s.setCtxEnt f v).samples = s.samples := rfl
@[simp] theorem State.setCtxEnt_placePtr (s : State) (f : BitVec 20) (v : CtxEnt) : (s.setCtxEnt f v).placePtr = s.placePtr := rfl
@[simp] theorem State.setCtxEnt_ports (s : State) (f : BitVec 20) (v : CtxEnt) : (s.setCtxEnt f v).ports = s.ports := rfl
@[simp] theorem State.setCtxEnt_outTx (s : State) (f : BitVec 20) (v : CtxEnt) : (s.setCtxEnt f v).outTx = s.outTx := rfl
@[simp] theorem State.setCtxEnt_copies (s : State) (f : BitVec 20) (v : CtxEnt) : (s.setCtxEnt f v).copies = s.copies := rfl
@[simp] theorem State.setCtxEnt_ledger (s : State) (f : BitVec 20) (v : CtxEnt) : (s.setCtxEnt f v).ledger = s.ledger := rfl
@[simp] theorem State.setCtxEnt_dups (s : State) (f : BitVec 20) (v : CtxEnt) : (s.setCtxEnt f v).dups = s.dups := rfl
@[simp] theorem State.setCtxEnt_tn (s : State) (f : BitVec 20) (v : CtxEnt) : (s.setCtxEnt f v).tn = s.tn := rfl
@[simp] theorem State.setCtxEnt_classes (s : State) (f : BitVec 20) (v : CtxEnt) : (s.setCtxEnt f v).classes = s.classes := rfl
@[simp] theorem State.setCtxEnt_keys (s : State) (f : BitVec 20) (v : CtxEnt) : (s.setCtxEnt f v).keys = s.keys := rfl
@[simp] theorem State.setCtxEnt_wraps (s : State) (f : BitVec 20) (v : CtxEnt) : (s.setCtxEnt f v).wraps = s.wraps := rfl
@[simp] theorem State.setCtxEnt_drbg (s : State) (f : BitVec 20) (v : CtxEnt) : (s.setCtxEnt f v).drbg = s.drbg := rfl
@[simp] theorem State.setCtxEnt_col (s : State) (f : BitVec 20) (v : CtxEnt) : (s.setCtxEnt f v).col = s.col := rfl
@[simp] theorem State.setCtxEnt_ben (s : State) (f : BitVec 20) (v : CtxEnt) : (s.setCtxEnt f v).ben = s.ben := rfl
@[simp] theorem State.setCtxEnt_hier (s : State) (f : BitVec 20) (v : CtxEnt) : (s.setCtxEnt f v).hier = s.hier := rfl
@[simp] theorem State.setCtxEnt_dbg (s : State) (f : BitVec 20) (v : CtxEnt) : (s.setCtxEnt f v).dbg = s.dbg := rfl
@[simp] theorem State.setCtxEnt_plat (s : State) (f : BitVec 20) (v : CtxEnt) : (s.setCtxEnt f v).plat = s.plat := rfl
@[simp] theorem State.setCtxEnt_wire (s : State) (f : BitVec 20) (v : CtxEnt) : (s.setCtxEnt f v).wire = s.wire := rfl
@[simp] theorem State.setCtxEnt_out (s : State) (f : BitVec 20) (v : CtxEnt) : (s.setCtxEnt f v).out = s.out := rfl
@[simp] theorem State.setCtxEnt_now (s : State) (f : BitVec 20) (v : CtxEnt) : (s.setCtxEnt f v).now = s.now := rfl
@[simp] theorem State.setCtxEnt_ids (s : State) (f : BitVec 20) (v : CtxEnt) : (s.setCtxEnt f v).ids = s.ids := rfl
@[simp] theorem State.setCtxEnt_free (s : State) (f : BitVec 20) (v : CtxEnt) : (s.setCtxEnt f v).free = s.free := rfl
@[simp] theorem State.setCtxEnt_cell (s : State) (f : BitVec 20) (v : CtxEnt) (c' : CellId) :
    (s.setCtxEnt f v).cell c' = s.cell c' := rfl
@[simp] theorem State.setCtxEnt_slot (s : State) (f : BitVec 20) (v : CtxEnt) (c' : CellId) (k' : SlotId) :
    (s.setCtxEnt f v).slot c' k' = s.slot c' k' := rfl
@[simp] theorem State.setCtxEnt_frame (s : State) (f : BitVec 20) (v : CtxEnt) (f' : BitVec 20) :
    (s.setCtxEnt f v).frame f' = s.frame f' := rfl
@[simp] theorem State.setCtxEnt_cluster (s : State) (f : BitVec 20) (v : CtxEnt) (g' : BitVec 4) :
    (s.setCtxEnt f v).cluster g' = s.cluster g' := rfl
@[simp] theorem State.setCtxEnt_home (s : State) (f : BitVec 20) (v : CtxEnt) (h' : BitVec 4) :
    (s.setCtxEnt f v).home h' = s.home h' := rfl
@[simp] theorem State.setCtxEnt_part (s : State) (f : BitVec 20) (v : CtxEnt) (p' : BitVec 6) :
    (s.setCtxEnt f v).part p' = s.part p' := rfl
@[simp] theorem State.setCtxEnt_workq (s : State) (f : BitVec 20) (v : CtxEnt) (p' q' : BitVec 6) :
    (s.setCtxEnt f v).workq p' q' = s.workq p' q' := rfl
@[simp] theorem State.setCtxEnt_flow (s : State) (f : BitVec 20) (v : CtxEnt) (f' : BitVec 12) :
    (s.setCtxEnt f v).flow f' = s.flow f' := rfl
@[simp] theorem State.setCtxEnt_move (s : State) (f : BitVec 20) (v : CtxEnt) (m' : BitVec 2) :
    (s.setCtxEnt f v).move m' = s.move m' := rfl
@[simp] theorem State.setCtxEnt_port (s : State) (f : BitVec 20) (v : CtxEnt) (p' : BitVec 4) :
    (s.setCtxEnt f v).port p' = s.port p' := rfl
@[simp] theorem State.setCtxEnt_entry (s : State) (f : BitVec 20) (v : CtxEnt) (i' : Nat) :
    (s.setCtxEnt f v).entry i' = s.entry i' := rfl
@[simp] theorem State.setCtxEnt_dup (s : State) (f : BitVec 20) (v : CtxEnt) (o' : Nat) :
    (s.setCtxEnt f v).dup o' = s.dup o' := rfl
@[simp] theorem State.setCtxEnt_eclass (s : State) (f : BitVec 20) (v : CtxEnt) (k' : BitVec 3) :
    (s.setCtxEnt f v).eclass k' = s.eclass k' := rfl
@[simp] theorem State.setCtxEnt_key (s : State) (f : BitVec 20) (v : CtxEnt) (i' : Nat) :
    (s.setCtxEnt f v).key i' = s.key i' := rfl
@[simp] theorem State.setCtxEnt_reg (s : State) (f : BitVec 20) (v : CtxEnt) (a' : Nat) :
    (s.setCtxEnt f v).reg a' = s.reg a' := rfl

/-! ### setCluster -/

@[simp] theorem State.setCluster_pending (s : State) (g : BitVec 4) (v : Cluster) : (s.setCluster g v).pending = s.pending := rfl
@[simp] theorem State.setCluster_regs (s : State) (g : BitVec 4) (v : Cluster) : (s.setCluster g v).regs = s.regs := rfl
@[simp] theorem State.setCluster_hiLatch (s : State) (g : BitVec 4) (v : Cluster) : (s.setCluster g v).hiLatch = s.hiLatch := rfl
@[simp] theorem State.setCluster_loHold (s : State) (g : BitVec 4) (v : Cluster) : (s.setCluster g v).loHold = s.loHold := rfl
@[simp] theorem State.setCluster_mem (s : State) (g : BitVec 4) (v : Cluster) : (s.setCluster g v).mem = s.mem := rfl
@[simp] theorem State.setCluster_frames (s : State) (g : BitVec 4) (v : Cluster) : (s.setCluster g v).frames = s.frames := rfl
@[simp] theorem State.setCluster_ctxMap (s : State) (g : BitVec 4) (v : Cluster) : (s.setCluster g v).ctxMap = s.ctxMap := rfl
@[simp] theorem State.setCluster_cells (s : State) (g : BitVec 4) (v : Cluster) : (s.setCluster g v).cells = s.cells := rfl
@[simp] theorem State.setCluster_slots (s : State) (g : BitVec 4) (v : Cluster) : (s.setCluster g v).slots = s.slots := rfl
@[simp] theorem State.setCluster_retained (s : State) (g : BitVec 4) (v : Cluster) : (s.setCluster g v).retained = s.retained := rfl
@[simp] theorem State.setCluster_waitRecs (s : State) (g : BitVec 4) (v : Cluster) : (s.setCluster g v).waitRecs = s.waitRecs := rfl
@[simp] theorem State.setCluster_homes (s : State) (g : BitVec 4) (v : Cluster) : (s.setCluster g v).homes = s.homes := rfl
@[simp] theorem State.setCluster_parts (s : State) (g : BitVec 4) (v : Cluster) : (s.setCluster g v).parts = s.parts := rfl
@[simp] theorem State.setCluster_workqs (s : State) (g : BitVec 4) (v : Cluster) : (s.setCluster g v).workqs = s.workqs := rfl
@[simp] theorem State.setCluster_flows (s : State) (g : BitVec 4) (v : Cluster) : (s.setCluster g v).flows = s.flows := rfl
@[simp] theorem State.setCluster_items (s : State) (g : BitVec 4) (v : Cluster) : (s.setCluster g v).items = s.items := rfl
@[simp] theorem State.setCluster_memErrs (s : State) (g : BitVec 4) (v : Cluster) : (s.setCluster g v).memErrs = s.memErrs := rfl
@[simp] theorem State.setCluster_inMove (s : State) (g : BitVec 4) (v : Cluster) : (s.setCluster g v).inMove = s.inMove := rfl
@[simp] theorem State.setCluster_moves (s : State) (g : BitVec 4) (v : Cluster) : (s.setCluster g v).moves = s.moves := rfl
@[simp] theorem State.setCluster_samples (s : State) (g : BitVec 4) (v : Cluster) : (s.setCluster g v).samples = s.samples := rfl
@[simp] theorem State.setCluster_placePtr (s : State) (g : BitVec 4) (v : Cluster) : (s.setCluster g v).placePtr = s.placePtr := rfl
@[simp] theorem State.setCluster_ports (s : State) (g : BitVec 4) (v : Cluster) : (s.setCluster g v).ports = s.ports := rfl
@[simp] theorem State.setCluster_outTx (s : State) (g : BitVec 4) (v : Cluster) : (s.setCluster g v).outTx = s.outTx := rfl
@[simp] theorem State.setCluster_copies (s : State) (g : BitVec 4) (v : Cluster) : (s.setCluster g v).copies = s.copies := rfl
@[simp] theorem State.setCluster_ledger (s : State) (g : BitVec 4) (v : Cluster) : (s.setCluster g v).ledger = s.ledger := rfl
@[simp] theorem State.setCluster_dups (s : State) (g : BitVec 4) (v : Cluster) : (s.setCluster g v).dups = s.dups := rfl
@[simp] theorem State.setCluster_tn (s : State) (g : BitVec 4) (v : Cluster) : (s.setCluster g v).tn = s.tn := rfl
@[simp] theorem State.setCluster_classes (s : State) (g : BitVec 4) (v : Cluster) : (s.setCluster g v).classes = s.classes := rfl
@[simp] theorem State.setCluster_keys (s : State) (g : BitVec 4) (v : Cluster) : (s.setCluster g v).keys = s.keys := rfl
@[simp] theorem State.setCluster_wraps (s : State) (g : BitVec 4) (v : Cluster) : (s.setCluster g v).wraps = s.wraps := rfl
@[simp] theorem State.setCluster_drbg (s : State) (g : BitVec 4) (v : Cluster) : (s.setCluster g v).drbg = s.drbg := rfl
@[simp] theorem State.setCluster_col (s : State) (g : BitVec 4) (v : Cluster) : (s.setCluster g v).col = s.col := rfl
@[simp] theorem State.setCluster_ben (s : State) (g : BitVec 4) (v : Cluster) : (s.setCluster g v).ben = s.ben := rfl
@[simp] theorem State.setCluster_hier (s : State) (g : BitVec 4) (v : Cluster) : (s.setCluster g v).hier = s.hier := rfl
@[simp] theorem State.setCluster_dbg (s : State) (g : BitVec 4) (v : Cluster) : (s.setCluster g v).dbg = s.dbg := rfl
@[simp] theorem State.setCluster_plat (s : State) (g : BitVec 4) (v : Cluster) : (s.setCluster g v).plat = s.plat := rfl
@[simp] theorem State.setCluster_wire (s : State) (g : BitVec 4) (v : Cluster) : (s.setCluster g v).wire = s.wire := rfl
@[simp] theorem State.setCluster_out (s : State) (g : BitVec 4) (v : Cluster) : (s.setCluster g v).out = s.out := rfl
@[simp] theorem State.setCluster_now (s : State) (g : BitVec 4) (v : Cluster) : (s.setCluster g v).now = s.now := rfl
@[simp] theorem State.setCluster_ids (s : State) (g : BitVec 4) (v : Cluster) : (s.setCluster g v).ids = s.ids := rfl
@[simp] theorem State.setCluster_free (s : State) (g : BitVec 4) (v : Cluster) : (s.setCluster g v).free = s.free := rfl
@[simp] theorem State.setCluster_cell (s : State) (g : BitVec 4) (v : Cluster) (c' : CellId) :
    (s.setCluster g v).cell c' = s.cell c' := rfl
@[simp] theorem State.setCluster_slot (s : State) (g : BitVec 4) (v : Cluster) (c' : CellId) (k' : SlotId) :
    (s.setCluster g v).slot c' k' = s.slot c' k' := rfl
@[simp] theorem State.setCluster_frame (s : State) (g : BitVec 4) (v : Cluster) (f' : BitVec 20) :
    (s.setCluster g v).frame f' = s.frame f' := rfl
@[simp] theorem State.setCluster_ctxEnt (s : State) (g : BitVec 4) (v : Cluster) (f' : BitVec 20) :
    (s.setCluster g v).ctxEnt f' = s.ctxEnt f' := rfl
@[simp] theorem State.setCluster_home (s : State) (g : BitVec 4) (v : Cluster) (h' : BitVec 4) :
    (s.setCluster g v).home h' = s.home h' := rfl
@[simp] theorem State.setCluster_part (s : State) (g : BitVec 4) (v : Cluster) (p' : BitVec 6) :
    (s.setCluster g v).part p' = s.part p' := rfl
@[simp] theorem State.setCluster_workq (s : State) (g : BitVec 4) (v : Cluster) (p' q' : BitVec 6) :
    (s.setCluster g v).workq p' q' = s.workq p' q' := rfl
@[simp] theorem State.setCluster_flow (s : State) (g : BitVec 4) (v : Cluster) (f' : BitVec 12) :
    (s.setCluster g v).flow f' = s.flow f' := rfl
@[simp] theorem State.setCluster_move (s : State) (g : BitVec 4) (v : Cluster) (m' : BitVec 2) :
    (s.setCluster g v).move m' = s.move m' := rfl
@[simp] theorem State.setCluster_port (s : State) (g : BitVec 4) (v : Cluster) (p' : BitVec 4) :
    (s.setCluster g v).port p' = s.port p' := rfl
@[simp] theorem State.setCluster_entry (s : State) (g : BitVec 4) (v : Cluster) (i' : Nat) :
    (s.setCluster g v).entry i' = s.entry i' := rfl
@[simp] theorem State.setCluster_dup (s : State) (g : BitVec 4) (v : Cluster) (o' : Nat) :
    (s.setCluster g v).dup o' = s.dup o' := rfl
@[simp] theorem State.setCluster_eclass (s : State) (g : BitVec 4) (v : Cluster) (k' : BitVec 3) :
    (s.setCluster g v).eclass k' = s.eclass k' := rfl
@[simp] theorem State.setCluster_key (s : State) (g : BitVec 4) (v : Cluster) (i' : Nat) :
    (s.setCluster g v).key i' = s.key i' := rfl
@[simp] theorem State.setCluster_reg (s : State) (g : BitVec 4) (v : Cluster) (a' : Nat) :
    (s.setCluster g v).reg a' = s.reg a' := rfl

/-! ### setHome -/

@[simp] theorem State.setHome_pending (s : State) (h : BitVec 4) (v : Home) : (s.setHome h v).pending = s.pending := rfl
@[simp] theorem State.setHome_regs (s : State) (h : BitVec 4) (v : Home) : (s.setHome h v).regs = s.regs := rfl
@[simp] theorem State.setHome_hiLatch (s : State) (h : BitVec 4) (v : Home) : (s.setHome h v).hiLatch = s.hiLatch := rfl
@[simp] theorem State.setHome_loHold (s : State) (h : BitVec 4) (v : Home) : (s.setHome h v).loHold = s.loHold := rfl
@[simp] theorem State.setHome_mem (s : State) (h : BitVec 4) (v : Home) : (s.setHome h v).mem = s.mem := rfl
@[simp] theorem State.setHome_frames (s : State) (h : BitVec 4) (v : Home) : (s.setHome h v).frames = s.frames := rfl
@[simp] theorem State.setHome_ctxMap (s : State) (h : BitVec 4) (v : Home) : (s.setHome h v).ctxMap = s.ctxMap := rfl
@[simp] theorem State.setHome_cells (s : State) (h : BitVec 4) (v : Home) : (s.setHome h v).cells = s.cells := rfl
@[simp] theorem State.setHome_slots (s : State) (h : BitVec 4) (v : Home) : (s.setHome h v).slots = s.slots := rfl
@[simp] theorem State.setHome_retained (s : State) (h : BitVec 4) (v : Home) : (s.setHome h v).retained = s.retained := rfl
@[simp] theorem State.setHome_waitRecs (s : State) (h : BitVec 4) (v : Home) : (s.setHome h v).waitRecs = s.waitRecs := rfl
@[simp] theorem State.setHome_clusters (s : State) (h : BitVec 4) (v : Home) : (s.setHome h v).clusters = s.clusters := rfl
@[simp] theorem State.setHome_parts (s : State) (h : BitVec 4) (v : Home) : (s.setHome h v).parts = s.parts := rfl
@[simp] theorem State.setHome_workqs (s : State) (h : BitVec 4) (v : Home) : (s.setHome h v).workqs = s.workqs := rfl
@[simp] theorem State.setHome_flows (s : State) (h : BitVec 4) (v : Home) : (s.setHome h v).flows = s.flows := rfl
@[simp] theorem State.setHome_items (s : State) (h : BitVec 4) (v : Home) : (s.setHome h v).items = s.items := rfl
@[simp] theorem State.setHome_memErrs (s : State) (h : BitVec 4) (v : Home) : (s.setHome h v).memErrs = s.memErrs := rfl
@[simp] theorem State.setHome_inMove (s : State) (h : BitVec 4) (v : Home) : (s.setHome h v).inMove = s.inMove := rfl
@[simp] theorem State.setHome_moves (s : State) (h : BitVec 4) (v : Home) : (s.setHome h v).moves = s.moves := rfl
@[simp] theorem State.setHome_samples (s : State) (h : BitVec 4) (v : Home) : (s.setHome h v).samples = s.samples := rfl
@[simp] theorem State.setHome_placePtr (s : State) (h : BitVec 4) (v : Home) : (s.setHome h v).placePtr = s.placePtr := rfl
@[simp] theorem State.setHome_ports (s : State) (h : BitVec 4) (v : Home) : (s.setHome h v).ports = s.ports := rfl
@[simp] theorem State.setHome_outTx (s : State) (h : BitVec 4) (v : Home) : (s.setHome h v).outTx = s.outTx := rfl
@[simp] theorem State.setHome_copies (s : State) (h : BitVec 4) (v : Home) : (s.setHome h v).copies = s.copies := rfl
@[simp] theorem State.setHome_ledger (s : State) (h : BitVec 4) (v : Home) : (s.setHome h v).ledger = s.ledger := rfl
@[simp] theorem State.setHome_dups (s : State) (h : BitVec 4) (v : Home) : (s.setHome h v).dups = s.dups := rfl
@[simp] theorem State.setHome_tn (s : State) (h : BitVec 4) (v : Home) : (s.setHome h v).tn = s.tn := rfl
@[simp] theorem State.setHome_classes (s : State) (h : BitVec 4) (v : Home) : (s.setHome h v).classes = s.classes := rfl
@[simp] theorem State.setHome_keys (s : State) (h : BitVec 4) (v : Home) : (s.setHome h v).keys = s.keys := rfl
@[simp] theorem State.setHome_wraps (s : State) (h : BitVec 4) (v : Home) : (s.setHome h v).wraps = s.wraps := rfl
@[simp] theorem State.setHome_drbg (s : State) (h : BitVec 4) (v : Home) : (s.setHome h v).drbg = s.drbg := rfl
@[simp] theorem State.setHome_col (s : State) (h : BitVec 4) (v : Home) : (s.setHome h v).col = s.col := rfl
@[simp] theorem State.setHome_ben (s : State) (h : BitVec 4) (v : Home) : (s.setHome h v).ben = s.ben := rfl
@[simp] theorem State.setHome_hier (s : State) (h : BitVec 4) (v : Home) : (s.setHome h v).hier = s.hier := rfl
@[simp] theorem State.setHome_dbg (s : State) (h : BitVec 4) (v : Home) : (s.setHome h v).dbg = s.dbg := rfl
@[simp] theorem State.setHome_plat (s : State) (h : BitVec 4) (v : Home) : (s.setHome h v).plat = s.plat := rfl
@[simp] theorem State.setHome_wire (s : State) (h : BitVec 4) (v : Home) : (s.setHome h v).wire = s.wire := rfl
@[simp] theorem State.setHome_out (s : State) (h : BitVec 4) (v : Home) : (s.setHome h v).out = s.out := rfl
@[simp] theorem State.setHome_now (s : State) (h : BitVec 4) (v : Home) : (s.setHome h v).now = s.now := rfl
@[simp] theorem State.setHome_ids (s : State) (h : BitVec 4) (v : Home) : (s.setHome h v).ids = s.ids := rfl
@[simp] theorem State.setHome_free (s : State) (h : BitVec 4) (v : Home) : (s.setHome h v).free = s.free := rfl
@[simp] theorem State.setHome_cell (s : State) (h : BitVec 4) (v : Home) (c' : CellId) :
    (s.setHome h v).cell c' = s.cell c' := rfl
@[simp] theorem State.setHome_slot (s : State) (h : BitVec 4) (v : Home) (c' : CellId) (k' : SlotId) :
    (s.setHome h v).slot c' k' = s.slot c' k' := rfl
@[simp] theorem State.setHome_frame (s : State) (h : BitVec 4) (v : Home) (f' : BitVec 20) :
    (s.setHome h v).frame f' = s.frame f' := rfl
@[simp] theorem State.setHome_ctxEnt (s : State) (h : BitVec 4) (v : Home) (f' : BitVec 20) :
    (s.setHome h v).ctxEnt f' = s.ctxEnt f' := rfl
@[simp] theorem State.setHome_cluster (s : State) (h : BitVec 4) (v : Home) (g' : BitVec 4) :
    (s.setHome h v).cluster g' = s.cluster g' := rfl
@[simp] theorem State.setHome_part (s : State) (h : BitVec 4) (v : Home) (p' : BitVec 6) :
    (s.setHome h v).part p' = s.part p' := rfl
@[simp] theorem State.setHome_workq (s : State) (h : BitVec 4) (v : Home) (p' q' : BitVec 6) :
    (s.setHome h v).workq p' q' = s.workq p' q' := rfl
@[simp] theorem State.setHome_flow (s : State) (h : BitVec 4) (v : Home) (f' : BitVec 12) :
    (s.setHome h v).flow f' = s.flow f' := rfl
@[simp] theorem State.setHome_move (s : State) (h : BitVec 4) (v : Home) (m' : BitVec 2) :
    (s.setHome h v).move m' = s.move m' := rfl
@[simp] theorem State.setHome_port (s : State) (h : BitVec 4) (v : Home) (p' : BitVec 4) :
    (s.setHome h v).port p' = s.port p' := rfl
@[simp] theorem State.setHome_entry (s : State) (h : BitVec 4) (v : Home) (i' : Nat) :
    (s.setHome h v).entry i' = s.entry i' := rfl
@[simp] theorem State.setHome_dup (s : State) (h : BitVec 4) (v : Home) (o' : Nat) :
    (s.setHome h v).dup o' = s.dup o' := rfl
@[simp] theorem State.setHome_eclass (s : State) (h : BitVec 4) (v : Home) (k' : BitVec 3) :
    (s.setHome h v).eclass k' = s.eclass k' := rfl
@[simp] theorem State.setHome_key (s : State) (h : BitVec 4) (v : Home) (i' : Nat) :
    (s.setHome h v).key i' = s.key i' := rfl
@[simp] theorem State.setHome_reg (s : State) (h : BitVec 4) (v : Home) (a' : Nat) :
    (s.setHome h v).reg a' = s.reg a' := rfl

/-! ### setPart -/

@[simp] theorem State.setPart_pending (s : State) (p : BitVec 6) (v : Part) : (s.setPart p v).pending = s.pending := rfl
@[simp] theorem State.setPart_regs (s : State) (p : BitVec 6) (v : Part) : (s.setPart p v).regs = s.regs := rfl
@[simp] theorem State.setPart_hiLatch (s : State) (p : BitVec 6) (v : Part) : (s.setPart p v).hiLatch = s.hiLatch := rfl
@[simp] theorem State.setPart_loHold (s : State) (p : BitVec 6) (v : Part) : (s.setPart p v).loHold = s.loHold := rfl
@[simp] theorem State.setPart_mem (s : State) (p : BitVec 6) (v : Part) : (s.setPart p v).mem = s.mem := rfl
@[simp] theorem State.setPart_frames (s : State) (p : BitVec 6) (v : Part) : (s.setPart p v).frames = s.frames := rfl
@[simp] theorem State.setPart_ctxMap (s : State) (p : BitVec 6) (v : Part) : (s.setPart p v).ctxMap = s.ctxMap := rfl
@[simp] theorem State.setPart_cells (s : State) (p : BitVec 6) (v : Part) : (s.setPart p v).cells = s.cells := rfl
@[simp] theorem State.setPart_slots (s : State) (p : BitVec 6) (v : Part) : (s.setPart p v).slots = s.slots := rfl
@[simp] theorem State.setPart_retained (s : State) (p : BitVec 6) (v : Part) : (s.setPart p v).retained = s.retained := rfl
@[simp] theorem State.setPart_waitRecs (s : State) (p : BitVec 6) (v : Part) : (s.setPart p v).waitRecs = s.waitRecs := rfl
@[simp] theorem State.setPart_clusters (s : State) (p : BitVec 6) (v : Part) : (s.setPart p v).clusters = s.clusters := rfl
@[simp] theorem State.setPart_homes (s : State) (p : BitVec 6) (v : Part) : (s.setPart p v).homes = s.homes := rfl
@[simp] theorem State.setPart_workqs (s : State) (p : BitVec 6) (v : Part) : (s.setPart p v).workqs = s.workqs := rfl
@[simp] theorem State.setPart_flows (s : State) (p : BitVec 6) (v : Part) : (s.setPart p v).flows = s.flows := rfl
@[simp] theorem State.setPart_items (s : State) (p : BitVec 6) (v : Part) : (s.setPart p v).items = s.items := rfl
@[simp] theorem State.setPart_memErrs (s : State) (p : BitVec 6) (v : Part) : (s.setPart p v).memErrs = s.memErrs := rfl
@[simp] theorem State.setPart_inMove (s : State) (p : BitVec 6) (v : Part) : (s.setPart p v).inMove = s.inMove := rfl
@[simp] theorem State.setPart_moves (s : State) (p : BitVec 6) (v : Part) : (s.setPart p v).moves = s.moves := rfl
@[simp] theorem State.setPart_samples (s : State) (p : BitVec 6) (v : Part) : (s.setPart p v).samples = s.samples := rfl
@[simp] theorem State.setPart_placePtr (s : State) (p : BitVec 6) (v : Part) : (s.setPart p v).placePtr = s.placePtr := rfl
@[simp] theorem State.setPart_ports (s : State) (p : BitVec 6) (v : Part) : (s.setPart p v).ports = s.ports := rfl
@[simp] theorem State.setPart_outTx (s : State) (p : BitVec 6) (v : Part) : (s.setPart p v).outTx = s.outTx := rfl
@[simp] theorem State.setPart_copies (s : State) (p : BitVec 6) (v : Part) : (s.setPart p v).copies = s.copies := rfl
@[simp] theorem State.setPart_ledger (s : State) (p : BitVec 6) (v : Part) : (s.setPart p v).ledger = s.ledger := rfl
@[simp] theorem State.setPart_dups (s : State) (p : BitVec 6) (v : Part) : (s.setPart p v).dups = s.dups := rfl
@[simp] theorem State.setPart_tn (s : State) (p : BitVec 6) (v : Part) : (s.setPart p v).tn = s.tn := rfl
@[simp] theorem State.setPart_classes (s : State) (p : BitVec 6) (v : Part) : (s.setPart p v).classes = s.classes := rfl
@[simp] theorem State.setPart_keys (s : State) (p : BitVec 6) (v : Part) : (s.setPart p v).keys = s.keys := rfl
@[simp] theorem State.setPart_wraps (s : State) (p : BitVec 6) (v : Part) : (s.setPart p v).wraps = s.wraps := rfl
@[simp] theorem State.setPart_drbg (s : State) (p : BitVec 6) (v : Part) : (s.setPart p v).drbg = s.drbg := rfl
@[simp] theorem State.setPart_col (s : State) (p : BitVec 6) (v : Part) : (s.setPart p v).col = s.col := rfl
@[simp] theorem State.setPart_ben (s : State) (p : BitVec 6) (v : Part) : (s.setPart p v).ben = s.ben := rfl
@[simp] theorem State.setPart_hier (s : State) (p : BitVec 6) (v : Part) : (s.setPart p v).hier = s.hier := rfl
@[simp] theorem State.setPart_dbg (s : State) (p : BitVec 6) (v : Part) : (s.setPart p v).dbg = s.dbg := rfl
@[simp] theorem State.setPart_plat (s : State) (p : BitVec 6) (v : Part) : (s.setPart p v).plat = s.plat := rfl
@[simp] theorem State.setPart_wire (s : State) (p : BitVec 6) (v : Part) : (s.setPart p v).wire = s.wire := rfl
@[simp] theorem State.setPart_out (s : State) (p : BitVec 6) (v : Part) : (s.setPart p v).out = s.out := rfl
@[simp] theorem State.setPart_now (s : State) (p : BitVec 6) (v : Part) : (s.setPart p v).now = s.now := rfl
@[simp] theorem State.setPart_ids (s : State) (p : BitVec 6) (v : Part) : (s.setPart p v).ids = s.ids := rfl
@[simp] theorem State.setPart_free (s : State) (p : BitVec 6) (v : Part) : (s.setPart p v).free = s.free := rfl
@[simp] theorem State.setPart_cell (s : State) (p : BitVec 6) (v : Part) (c' : CellId) :
    (s.setPart p v).cell c' = s.cell c' := rfl
@[simp] theorem State.setPart_slot (s : State) (p : BitVec 6) (v : Part) (c' : CellId) (k' : SlotId) :
    (s.setPart p v).slot c' k' = s.slot c' k' := rfl
@[simp] theorem State.setPart_frame (s : State) (p : BitVec 6) (v : Part) (f' : BitVec 20) :
    (s.setPart p v).frame f' = s.frame f' := rfl
@[simp] theorem State.setPart_ctxEnt (s : State) (p : BitVec 6) (v : Part) (f' : BitVec 20) :
    (s.setPart p v).ctxEnt f' = s.ctxEnt f' := rfl
@[simp] theorem State.setPart_cluster (s : State) (p : BitVec 6) (v : Part) (g' : BitVec 4) :
    (s.setPart p v).cluster g' = s.cluster g' := rfl
@[simp] theorem State.setPart_home (s : State) (p : BitVec 6) (v : Part) (h' : BitVec 4) :
    (s.setPart p v).home h' = s.home h' := rfl
@[simp] theorem State.setPart_workq (s : State) (p : BitVec 6) (v : Part) (p' q' : BitVec 6) :
    (s.setPart p v).workq p' q' = s.workq p' q' := rfl
@[simp] theorem State.setPart_flow (s : State) (p : BitVec 6) (v : Part) (f' : BitVec 12) :
    (s.setPart p v).flow f' = s.flow f' := rfl
@[simp] theorem State.setPart_move (s : State) (p : BitVec 6) (v : Part) (m' : BitVec 2) :
    (s.setPart p v).move m' = s.move m' := rfl
@[simp] theorem State.setPart_port (s : State) (p : BitVec 6) (v : Part) (p' : BitVec 4) :
    (s.setPart p v).port p' = s.port p' := rfl
@[simp] theorem State.setPart_entry (s : State) (p : BitVec 6) (v : Part) (i' : Nat) :
    (s.setPart p v).entry i' = s.entry i' := rfl
@[simp] theorem State.setPart_dup (s : State) (p : BitVec 6) (v : Part) (o' : Nat) :
    (s.setPart p v).dup o' = s.dup o' := rfl
@[simp] theorem State.setPart_eclass (s : State) (p : BitVec 6) (v : Part) (k' : BitVec 3) :
    (s.setPart p v).eclass k' = s.eclass k' := rfl
@[simp] theorem State.setPart_key (s : State) (p : BitVec 6) (v : Part) (i' : Nat) :
    (s.setPart p v).key i' = s.key i' := rfl
@[simp] theorem State.setPart_reg (s : State) (p : BitVec 6) (v : Part) (a' : Nat) :
    (s.setPart p v).reg a' = s.reg a' := rfl

/-! ### setWorkq -/

@[simp] theorem State.setWorkq_pending (s : State) (p q : BitVec 6) (v : WorkQ) : (s.setWorkq p q v).pending = s.pending := rfl
@[simp] theorem State.setWorkq_regs (s : State) (p q : BitVec 6) (v : WorkQ) : (s.setWorkq p q v).regs = s.regs := rfl
@[simp] theorem State.setWorkq_hiLatch (s : State) (p q : BitVec 6) (v : WorkQ) : (s.setWorkq p q v).hiLatch = s.hiLatch := rfl
@[simp] theorem State.setWorkq_loHold (s : State) (p q : BitVec 6) (v : WorkQ) : (s.setWorkq p q v).loHold = s.loHold := rfl
@[simp] theorem State.setWorkq_mem (s : State) (p q : BitVec 6) (v : WorkQ) : (s.setWorkq p q v).mem = s.mem := rfl
@[simp] theorem State.setWorkq_frames (s : State) (p q : BitVec 6) (v : WorkQ) : (s.setWorkq p q v).frames = s.frames := rfl
@[simp] theorem State.setWorkq_ctxMap (s : State) (p q : BitVec 6) (v : WorkQ) : (s.setWorkq p q v).ctxMap = s.ctxMap := rfl
@[simp] theorem State.setWorkq_cells (s : State) (p q : BitVec 6) (v : WorkQ) : (s.setWorkq p q v).cells = s.cells := rfl
@[simp] theorem State.setWorkq_slots (s : State) (p q : BitVec 6) (v : WorkQ) : (s.setWorkq p q v).slots = s.slots := rfl
@[simp] theorem State.setWorkq_retained (s : State) (p q : BitVec 6) (v : WorkQ) : (s.setWorkq p q v).retained = s.retained := rfl
@[simp] theorem State.setWorkq_waitRecs (s : State) (p q : BitVec 6) (v : WorkQ) : (s.setWorkq p q v).waitRecs = s.waitRecs := rfl
@[simp] theorem State.setWorkq_clusters (s : State) (p q : BitVec 6) (v : WorkQ) : (s.setWorkq p q v).clusters = s.clusters := rfl
@[simp] theorem State.setWorkq_homes (s : State) (p q : BitVec 6) (v : WorkQ) : (s.setWorkq p q v).homes = s.homes := rfl
@[simp] theorem State.setWorkq_parts (s : State) (p q : BitVec 6) (v : WorkQ) : (s.setWorkq p q v).parts = s.parts := rfl
@[simp] theorem State.setWorkq_flows (s : State) (p q : BitVec 6) (v : WorkQ) : (s.setWorkq p q v).flows = s.flows := rfl
@[simp] theorem State.setWorkq_items (s : State) (p q : BitVec 6) (v : WorkQ) : (s.setWorkq p q v).items = s.items := rfl
@[simp] theorem State.setWorkq_memErrs (s : State) (p q : BitVec 6) (v : WorkQ) : (s.setWorkq p q v).memErrs = s.memErrs := rfl
@[simp] theorem State.setWorkq_inMove (s : State) (p q : BitVec 6) (v : WorkQ) : (s.setWorkq p q v).inMove = s.inMove := rfl
@[simp] theorem State.setWorkq_moves (s : State) (p q : BitVec 6) (v : WorkQ) : (s.setWorkq p q v).moves = s.moves := rfl
@[simp] theorem State.setWorkq_samples (s : State) (p q : BitVec 6) (v : WorkQ) : (s.setWorkq p q v).samples = s.samples := rfl
@[simp] theorem State.setWorkq_placePtr (s : State) (p q : BitVec 6) (v : WorkQ) : (s.setWorkq p q v).placePtr = s.placePtr := rfl
@[simp] theorem State.setWorkq_ports (s : State) (p q : BitVec 6) (v : WorkQ) : (s.setWorkq p q v).ports = s.ports := rfl
@[simp] theorem State.setWorkq_outTx (s : State) (p q : BitVec 6) (v : WorkQ) : (s.setWorkq p q v).outTx = s.outTx := rfl
@[simp] theorem State.setWorkq_copies (s : State) (p q : BitVec 6) (v : WorkQ) : (s.setWorkq p q v).copies = s.copies := rfl
@[simp] theorem State.setWorkq_ledger (s : State) (p q : BitVec 6) (v : WorkQ) : (s.setWorkq p q v).ledger = s.ledger := rfl
@[simp] theorem State.setWorkq_dups (s : State) (p q : BitVec 6) (v : WorkQ) : (s.setWorkq p q v).dups = s.dups := rfl
@[simp] theorem State.setWorkq_tn (s : State) (p q : BitVec 6) (v : WorkQ) : (s.setWorkq p q v).tn = s.tn := rfl
@[simp] theorem State.setWorkq_classes (s : State) (p q : BitVec 6) (v : WorkQ) : (s.setWorkq p q v).classes = s.classes := rfl
@[simp] theorem State.setWorkq_keys (s : State) (p q : BitVec 6) (v : WorkQ) : (s.setWorkq p q v).keys = s.keys := rfl
@[simp] theorem State.setWorkq_wraps (s : State) (p q : BitVec 6) (v : WorkQ) : (s.setWorkq p q v).wraps = s.wraps := rfl
@[simp] theorem State.setWorkq_drbg (s : State) (p q : BitVec 6) (v : WorkQ) : (s.setWorkq p q v).drbg = s.drbg := rfl
@[simp] theorem State.setWorkq_col (s : State) (p q : BitVec 6) (v : WorkQ) : (s.setWorkq p q v).col = s.col := rfl
@[simp] theorem State.setWorkq_ben (s : State) (p q : BitVec 6) (v : WorkQ) : (s.setWorkq p q v).ben = s.ben := rfl
@[simp] theorem State.setWorkq_hier (s : State) (p q : BitVec 6) (v : WorkQ) : (s.setWorkq p q v).hier = s.hier := rfl
@[simp] theorem State.setWorkq_dbg (s : State) (p q : BitVec 6) (v : WorkQ) : (s.setWorkq p q v).dbg = s.dbg := rfl
@[simp] theorem State.setWorkq_plat (s : State) (p q : BitVec 6) (v : WorkQ) : (s.setWorkq p q v).plat = s.plat := rfl
@[simp] theorem State.setWorkq_wire (s : State) (p q : BitVec 6) (v : WorkQ) : (s.setWorkq p q v).wire = s.wire := rfl
@[simp] theorem State.setWorkq_out (s : State) (p q : BitVec 6) (v : WorkQ) : (s.setWorkq p q v).out = s.out := rfl
@[simp] theorem State.setWorkq_now (s : State) (p q : BitVec 6) (v : WorkQ) : (s.setWorkq p q v).now = s.now := rfl
@[simp] theorem State.setWorkq_ids (s : State) (p q : BitVec 6) (v : WorkQ) : (s.setWorkq p q v).ids = s.ids := rfl
@[simp] theorem State.setWorkq_free (s : State) (p q : BitVec 6) (v : WorkQ) : (s.setWorkq p q v).free = s.free := rfl
@[simp] theorem State.setWorkq_cell (s : State) (p q : BitVec 6) (v : WorkQ) (c' : CellId) :
    (s.setWorkq p q v).cell c' = s.cell c' := rfl
@[simp] theorem State.setWorkq_slot (s : State) (p q : BitVec 6) (v : WorkQ) (c' : CellId) (k' : SlotId) :
    (s.setWorkq p q v).slot c' k' = s.slot c' k' := rfl
@[simp] theorem State.setWorkq_frame (s : State) (p q : BitVec 6) (v : WorkQ) (f' : BitVec 20) :
    (s.setWorkq p q v).frame f' = s.frame f' := rfl
@[simp] theorem State.setWorkq_ctxEnt (s : State) (p q : BitVec 6) (v : WorkQ) (f' : BitVec 20) :
    (s.setWorkq p q v).ctxEnt f' = s.ctxEnt f' := rfl
@[simp] theorem State.setWorkq_cluster (s : State) (p q : BitVec 6) (v : WorkQ) (g' : BitVec 4) :
    (s.setWorkq p q v).cluster g' = s.cluster g' := rfl
@[simp] theorem State.setWorkq_home (s : State) (p q : BitVec 6) (v : WorkQ) (h' : BitVec 4) :
    (s.setWorkq p q v).home h' = s.home h' := rfl
@[simp] theorem State.setWorkq_part (s : State) (p q : BitVec 6) (v : WorkQ) (p' : BitVec 6) :
    (s.setWorkq p q v).part p' = s.part p' := rfl
@[simp] theorem State.setWorkq_flow (s : State) (p q : BitVec 6) (v : WorkQ) (f' : BitVec 12) :
    (s.setWorkq p q v).flow f' = s.flow f' := rfl
@[simp] theorem State.setWorkq_move (s : State) (p q : BitVec 6) (v : WorkQ) (m' : BitVec 2) :
    (s.setWorkq p q v).move m' = s.move m' := rfl
@[simp] theorem State.setWorkq_port (s : State) (p q : BitVec 6) (v : WorkQ) (p' : BitVec 4) :
    (s.setWorkq p q v).port p' = s.port p' := rfl
@[simp] theorem State.setWorkq_entry (s : State) (p q : BitVec 6) (v : WorkQ) (i' : Nat) :
    (s.setWorkq p q v).entry i' = s.entry i' := rfl
@[simp] theorem State.setWorkq_dup (s : State) (p q : BitVec 6) (v : WorkQ) (o' : Nat) :
    (s.setWorkq p q v).dup o' = s.dup o' := rfl
@[simp] theorem State.setWorkq_eclass (s : State) (p q : BitVec 6) (v : WorkQ) (k' : BitVec 3) :
    (s.setWorkq p q v).eclass k' = s.eclass k' := rfl
@[simp] theorem State.setWorkq_key (s : State) (p q : BitVec 6) (v : WorkQ) (i' : Nat) :
    (s.setWorkq p q v).key i' = s.key i' := rfl
@[simp] theorem State.setWorkq_reg (s : State) (p q : BitVec 6) (v : WorkQ) (a' : Nat) :
    (s.setWorkq p q v).reg a' = s.reg a' := rfl

/-! ### setFlow -/

@[simp] theorem State.setFlow_pending (s : State) (f : BitVec 12) (v : Flow) : (s.setFlow f v).pending = s.pending := rfl
@[simp] theorem State.setFlow_regs (s : State) (f : BitVec 12) (v : Flow) : (s.setFlow f v).regs = s.regs := rfl
@[simp] theorem State.setFlow_hiLatch (s : State) (f : BitVec 12) (v : Flow) : (s.setFlow f v).hiLatch = s.hiLatch := rfl
@[simp] theorem State.setFlow_loHold (s : State) (f : BitVec 12) (v : Flow) : (s.setFlow f v).loHold = s.loHold := rfl
@[simp] theorem State.setFlow_mem (s : State) (f : BitVec 12) (v : Flow) : (s.setFlow f v).mem = s.mem := rfl
@[simp] theorem State.setFlow_frames (s : State) (f : BitVec 12) (v : Flow) : (s.setFlow f v).frames = s.frames := rfl
@[simp] theorem State.setFlow_ctxMap (s : State) (f : BitVec 12) (v : Flow) : (s.setFlow f v).ctxMap = s.ctxMap := rfl
@[simp] theorem State.setFlow_cells (s : State) (f : BitVec 12) (v : Flow) : (s.setFlow f v).cells = s.cells := rfl
@[simp] theorem State.setFlow_slots (s : State) (f : BitVec 12) (v : Flow) : (s.setFlow f v).slots = s.slots := rfl
@[simp] theorem State.setFlow_retained (s : State) (f : BitVec 12) (v : Flow) : (s.setFlow f v).retained = s.retained := rfl
@[simp] theorem State.setFlow_waitRecs (s : State) (f : BitVec 12) (v : Flow) : (s.setFlow f v).waitRecs = s.waitRecs := rfl
@[simp] theorem State.setFlow_clusters (s : State) (f : BitVec 12) (v : Flow) : (s.setFlow f v).clusters = s.clusters := rfl
@[simp] theorem State.setFlow_homes (s : State) (f : BitVec 12) (v : Flow) : (s.setFlow f v).homes = s.homes := rfl
@[simp] theorem State.setFlow_parts (s : State) (f : BitVec 12) (v : Flow) : (s.setFlow f v).parts = s.parts := rfl
@[simp] theorem State.setFlow_workqs (s : State) (f : BitVec 12) (v : Flow) : (s.setFlow f v).workqs = s.workqs := rfl
@[simp] theorem State.setFlow_items (s : State) (f : BitVec 12) (v : Flow) : (s.setFlow f v).items = s.items := rfl
@[simp] theorem State.setFlow_memErrs (s : State) (f : BitVec 12) (v : Flow) : (s.setFlow f v).memErrs = s.memErrs := rfl
@[simp] theorem State.setFlow_inMove (s : State) (f : BitVec 12) (v : Flow) : (s.setFlow f v).inMove = s.inMove := rfl
@[simp] theorem State.setFlow_moves (s : State) (f : BitVec 12) (v : Flow) : (s.setFlow f v).moves = s.moves := rfl
@[simp] theorem State.setFlow_samples (s : State) (f : BitVec 12) (v : Flow) : (s.setFlow f v).samples = s.samples := rfl
@[simp] theorem State.setFlow_placePtr (s : State) (f : BitVec 12) (v : Flow) : (s.setFlow f v).placePtr = s.placePtr := rfl
@[simp] theorem State.setFlow_ports (s : State) (f : BitVec 12) (v : Flow) : (s.setFlow f v).ports = s.ports := rfl
@[simp] theorem State.setFlow_outTx (s : State) (f : BitVec 12) (v : Flow) : (s.setFlow f v).outTx = s.outTx := rfl
@[simp] theorem State.setFlow_copies (s : State) (f : BitVec 12) (v : Flow) : (s.setFlow f v).copies = s.copies := rfl
@[simp] theorem State.setFlow_ledger (s : State) (f : BitVec 12) (v : Flow) : (s.setFlow f v).ledger = s.ledger := rfl
@[simp] theorem State.setFlow_dups (s : State) (f : BitVec 12) (v : Flow) : (s.setFlow f v).dups = s.dups := rfl
@[simp] theorem State.setFlow_tn (s : State) (f : BitVec 12) (v : Flow) : (s.setFlow f v).tn = s.tn := rfl
@[simp] theorem State.setFlow_classes (s : State) (f : BitVec 12) (v : Flow) : (s.setFlow f v).classes = s.classes := rfl
@[simp] theorem State.setFlow_keys (s : State) (f : BitVec 12) (v : Flow) : (s.setFlow f v).keys = s.keys := rfl
@[simp] theorem State.setFlow_wraps (s : State) (f : BitVec 12) (v : Flow) : (s.setFlow f v).wraps = s.wraps := rfl
@[simp] theorem State.setFlow_drbg (s : State) (f : BitVec 12) (v : Flow) : (s.setFlow f v).drbg = s.drbg := rfl
@[simp] theorem State.setFlow_col (s : State) (f : BitVec 12) (v : Flow) : (s.setFlow f v).col = s.col := rfl
@[simp] theorem State.setFlow_ben (s : State) (f : BitVec 12) (v : Flow) : (s.setFlow f v).ben = s.ben := rfl
@[simp] theorem State.setFlow_hier (s : State) (f : BitVec 12) (v : Flow) : (s.setFlow f v).hier = s.hier := rfl
@[simp] theorem State.setFlow_dbg (s : State) (f : BitVec 12) (v : Flow) : (s.setFlow f v).dbg = s.dbg := rfl
@[simp] theorem State.setFlow_plat (s : State) (f : BitVec 12) (v : Flow) : (s.setFlow f v).plat = s.plat := rfl
@[simp] theorem State.setFlow_wire (s : State) (f : BitVec 12) (v : Flow) : (s.setFlow f v).wire = s.wire := rfl
@[simp] theorem State.setFlow_out (s : State) (f : BitVec 12) (v : Flow) : (s.setFlow f v).out = s.out := rfl
@[simp] theorem State.setFlow_now (s : State) (f : BitVec 12) (v : Flow) : (s.setFlow f v).now = s.now := rfl
@[simp] theorem State.setFlow_ids (s : State) (f : BitVec 12) (v : Flow) : (s.setFlow f v).ids = s.ids := rfl
@[simp] theorem State.setFlow_free (s : State) (f : BitVec 12) (v : Flow) : (s.setFlow f v).free = s.free := rfl
@[simp] theorem State.setFlow_cell (s : State) (f : BitVec 12) (v : Flow) (c' : CellId) :
    (s.setFlow f v).cell c' = s.cell c' := rfl
@[simp] theorem State.setFlow_slot (s : State) (f : BitVec 12) (v : Flow) (c' : CellId) (k' : SlotId) :
    (s.setFlow f v).slot c' k' = s.slot c' k' := rfl
@[simp] theorem State.setFlow_frame (s : State) (f : BitVec 12) (v : Flow) (f' : BitVec 20) :
    (s.setFlow f v).frame f' = s.frame f' := rfl
@[simp] theorem State.setFlow_ctxEnt (s : State) (f : BitVec 12) (v : Flow) (f' : BitVec 20) :
    (s.setFlow f v).ctxEnt f' = s.ctxEnt f' := rfl
@[simp] theorem State.setFlow_cluster (s : State) (f : BitVec 12) (v : Flow) (g' : BitVec 4) :
    (s.setFlow f v).cluster g' = s.cluster g' := rfl
@[simp] theorem State.setFlow_home (s : State) (f : BitVec 12) (v : Flow) (h' : BitVec 4) :
    (s.setFlow f v).home h' = s.home h' := rfl
@[simp] theorem State.setFlow_part (s : State) (f : BitVec 12) (v : Flow) (p' : BitVec 6) :
    (s.setFlow f v).part p' = s.part p' := rfl
@[simp] theorem State.setFlow_workq (s : State) (f : BitVec 12) (v : Flow) (p' q' : BitVec 6) :
    (s.setFlow f v).workq p' q' = s.workq p' q' := rfl
@[simp] theorem State.setFlow_move (s : State) (f : BitVec 12) (v : Flow) (m' : BitVec 2) :
    (s.setFlow f v).move m' = s.move m' := rfl
@[simp] theorem State.setFlow_port (s : State) (f : BitVec 12) (v : Flow) (p' : BitVec 4) :
    (s.setFlow f v).port p' = s.port p' := rfl
@[simp] theorem State.setFlow_entry (s : State) (f : BitVec 12) (v : Flow) (i' : Nat) :
    (s.setFlow f v).entry i' = s.entry i' := rfl
@[simp] theorem State.setFlow_dup (s : State) (f : BitVec 12) (v : Flow) (o' : Nat) :
    (s.setFlow f v).dup o' = s.dup o' := rfl
@[simp] theorem State.setFlow_eclass (s : State) (f : BitVec 12) (v : Flow) (k' : BitVec 3) :
    (s.setFlow f v).eclass k' = s.eclass k' := rfl
@[simp] theorem State.setFlow_key (s : State) (f : BitVec 12) (v : Flow) (i' : Nat) :
    (s.setFlow f v).key i' = s.key i' := rfl
@[simp] theorem State.setFlow_reg (s : State) (f : BitVec 12) (v : Flow) (a' : Nat) :
    (s.setFlow f v).reg a' = s.reg a' := rfl

/-! ### setMove -/

@[simp] theorem State.setMove_pending (s : State) (m : BitVec 2) (v : PageMove) : (s.setMove m v).pending = s.pending := rfl
@[simp] theorem State.setMove_regs (s : State) (m : BitVec 2) (v : PageMove) : (s.setMove m v).regs = s.regs := rfl
@[simp] theorem State.setMove_hiLatch (s : State) (m : BitVec 2) (v : PageMove) : (s.setMove m v).hiLatch = s.hiLatch := rfl
@[simp] theorem State.setMove_loHold (s : State) (m : BitVec 2) (v : PageMove) : (s.setMove m v).loHold = s.loHold := rfl
@[simp] theorem State.setMove_mem (s : State) (m : BitVec 2) (v : PageMove) : (s.setMove m v).mem = s.mem := rfl
@[simp] theorem State.setMove_frames (s : State) (m : BitVec 2) (v : PageMove) : (s.setMove m v).frames = s.frames := rfl
@[simp] theorem State.setMove_ctxMap (s : State) (m : BitVec 2) (v : PageMove) : (s.setMove m v).ctxMap = s.ctxMap := rfl
@[simp] theorem State.setMove_cells (s : State) (m : BitVec 2) (v : PageMove) : (s.setMove m v).cells = s.cells := rfl
@[simp] theorem State.setMove_slots (s : State) (m : BitVec 2) (v : PageMove) : (s.setMove m v).slots = s.slots := rfl
@[simp] theorem State.setMove_retained (s : State) (m : BitVec 2) (v : PageMove) : (s.setMove m v).retained = s.retained := rfl
@[simp] theorem State.setMove_waitRecs (s : State) (m : BitVec 2) (v : PageMove) : (s.setMove m v).waitRecs = s.waitRecs := rfl
@[simp] theorem State.setMove_clusters (s : State) (m : BitVec 2) (v : PageMove) : (s.setMove m v).clusters = s.clusters := rfl
@[simp] theorem State.setMove_homes (s : State) (m : BitVec 2) (v : PageMove) : (s.setMove m v).homes = s.homes := rfl
@[simp] theorem State.setMove_parts (s : State) (m : BitVec 2) (v : PageMove) : (s.setMove m v).parts = s.parts := rfl
@[simp] theorem State.setMove_workqs (s : State) (m : BitVec 2) (v : PageMove) : (s.setMove m v).workqs = s.workqs := rfl
@[simp] theorem State.setMove_flows (s : State) (m : BitVec 2) (v : PageMove) : (s.setMove m v).flows = s.flows := rfl
@[simp] theorem State.setMove_items (s : State) (m : BitVec 2) (v : PageMove) : (s.setMove m v).items = s.items := rfl
@[simp] theorem State.setMove_memErrs (s : State) (m : BitVec 2) (v : PageMove) : (s.setMove m v).memErrs = s.memErrs := rfl
@[simp] theorem State.setMove_inMove (s : State) (m : BitVec 2) (v : PageMove) : (s.setMove m v).inMove = s.inMove := rfl
@[simp] theorem State.setMove_samples (s : State) (m : BitVec 2) (v : PageMove) : (s.setMove m v).samples = s.samples := rfl
@[simp] theorem State.setMove_placePtr (s : State) (m : BitVec 2) (v : PageMove) : (s.setMove m v).placePtr = s.placePtr := rfl
@[simp] theorem State.setMove_ports (s : State) (m : BitVec 2) (v : PageMove) : (s.setMove m v).ports = s.ports := rfl
@[simp] theorem State.setMove_outTx (s : State) (m : BitVec 2) (v : PageMove) : (s.setMove m v).outTx = s.outTx := rfl
@[simp] theorem State.setMove_copies (s : State) (m : BitVec 2) (v : PageMove) : (s.setMove m v).copies = s.copies := rfl
@[simp] theorem State.setMove_ledger (s : State) (m : BitVec 2) (v : PageMove) : (s.setMove m v).ledger = s.ledger := rfl
@[simp] theorem State.setMove_dups (s : State) (m : BitVec 2) (v : PageMove) : (s.setMove m v).dups = s.dups := rfl
@[simp] theorem State.setMove_tn (s : State) (m : BitVec 2) (v : PageMove) : (s.setMove m v).tn = s.tn := rfl
@[simp] theorem State.setMove_classes (s : State) (m : BitVec 2) (v : PageMove) : (s.setMove m v).classes = s.classes := rfl
@[simp] theorem State.setMove_keys (s : State) (m : BitVec 2) (v : PageMove) : (s.setMove m v).keys = s.keys := rfl
@[simp] theorem State.setMove_wraps (s : State) (m : BitVec 2) (v : PageMove) : (s.setMove m v).wraps = s.wraps := rfl
@[simp] theorem State.setMove_drbg (s : State) (m : BitVec 2) (v : PageMove) : (s.setMove m v).drbg = s.drbg := rfl
@[simp] theorem State.setMove_col (s : State) (m : BitVec 2) (v : PageMove) : (s.setMove m v).col = s.col := rfl
@[simp] theorem State.setMove_ben (s : State) (m : BitVec 2) (v : PageMove) : (s.setMove m v).ben = s.ben := rfl
@[simp] theorem State.setMove_hier (s : State) (m : BitVec 2) (v : PageMove) : (s.setMove m v).hier = s.hier := rfl
@[simp] theorem State.setMove_dbg (s : State) (m : BitVec 2) (v : PageMove) : (s.setMove m v).dbg = s.dbg := rfl
@[simp] theorem State.setMove_plat (s : State) (m : BitVec 2) (v : PageMove) : (s.setMove m v).plat = s.plat := rfl
@[simp] theorem State.setMove_wire (s : State) (m : BitVec 2) (v : PageMove) : (s.setMove m v).wire = s.wire := rfl
@[simp] theorem State.setMove_out (s : State) (m : BitVec 2) (v : PageMove) : (s.setMove m v).out = s.out := rfl
@[simp] theorem State.setMove_now (s : State) (m : BitVec 2) (v : PageMove) : (s.setMove m v).now = s.now := rfl
@[simp] theorem State.setMove_ids (s : State) (m : BitVec 2) (v : PageMove) : (s.setMove m v).ids = s.ids := rfl
@[simp] theorem State.setMove_free (s : State) (m : BitVec 2) (v : PageMove) : (s.setMove m v).free = s.free := rfl
@[simp] theorem State.setMove_cell (s : State) (m : BitVec 2) (v : PageMove) (c' : CellId) :
    (s.setMove m v).cell c' = s.cell c' := rfl
@[simp] theorem State.setMove_slot (s : State) (m : BitVec 2) (v : PageMove) (c' : CellId) (k' : SlotId) :
    (s.setMove m v).slot c' k' = s.slot c' k' := rfl
@[simp] theorem State.setMove_frame (s : State) (m : BitVec 2) (v : PageMove) (f' : BitVec 20) :
    (s.setMove m v).frame f' = s.frame f' := rfl
@[simp] theorem State.setMove_ctxEnt (s : State) (m : BitVec 2) (v : PageMove) (f' : BitVec 20) :
    (s.setMove m v).ctxEnt f' = s.ctxEnt f' := rfl
@[simp] theorem State.setMove_cluster (s : State) (m : BitVec 2) (v : PageMove) (g' : BitVec 4) :
    (s.setMove m v).cluster g' = s.cluster g' := rfl
@[simp] theorem State.setMove_home (s : State) (m : BitVec 2) (v : PageMove) (h' : BitVec 4) :
    (s.setMove m v).home h' = s.home h' := rfl
@[simp] theorem State.setMove_part (s : State) (m : BitVec 2) (v : PageMove) (p' : BitVec 6) :
    (s.setMove m v).part p' = s.part p' := rfl
@[simp] theorem State.setMove_workq (s : State) (m : BitVec 2) (v : PageMove) (p' q' : BitVec 6) :
    (s.setMove m v).workq p' q' = s.workq p' q' := rfl
@[simp] theorem State.setMove_flow (s : State) (m : BitVec 2) (v : PageMove) (f' : BitVec 12) :
    (s.setMove m v).flow f' = s.flow f' := rfl
@[simp] theorem State.setMove_port (s : State) (m : BitVec 2) (v : PageMove) (p' : BitVec 4) :
    (s.setMove m v).port p' = s.port p' := rfl
@[simp] theorem State.setMove_entry (s : State) (m : BitVec 2) (v : PageMove) (i' : Nat) :
    (s.setMove m v).entry i' = s.entry i' := rfl
@[simp] theorem State.setMove_dup (s : State) (m : BitVec 2) (v : PageMove) (o' : Nat) :
    (s.setMove m v).dup o' = s.dup o' := rfl
@[simp] theorem State.setMove_eclass (s : State) (m : BitVec 2) (v : PageMove) (k' : BitVec 3) :
    (s.setMove m v).eclass k' = s.eclass k' := rfl
@[simp] theorem State.setMove_key (s : State) (m : BitVec 2) (v : PageMove) (i' : Nat) :
    (s.setMove m v).key i' = s.key i' := rfl
@[simp] theorem State.setMove_reg (s : State) (m : BitVec 2) (v : PageMove) (a' : Nat) :
    (s.setMove m v).reg a' = s.reg a' := rfl

/-! ### setPort -/

@[simp] theorem State.setPort_pending (s : State) (p : BitVec 4) (v : Port) : (s.setPort p v).pending = s.pending := rfl
@[simp] theorem State.setPort_regs (s : State) (p : BitVec 4) (v : Port) : (s.setPort p v).regs = s.regs := rfl
@[simp] theorem State.setPort_hiLatch (s : State) (p : BitVec 4) (v : Port) : (s.setPort p v).hiLatch = s.hiLatch := rfl
@[simp] theorem State.setPort_loHold (s : State) (p : BitVec 4) (v : Port) : (s.setPort p v).loHold = s.loHold := rfl
@[simp] theorem State.setPort_mem (s : State) (p : BitVec 4) (v : Port) : (s.setPort p v).mem = s.mem := rfl
@[simp] theorem State.setPort_frames (s : State) (p : BitVec 4) (v : Port) : (s.setPort p v).frames = s.frames := rfl
@[simp] theorem State.setPort_ctxMap (s : State) (p : BitVec 4) (v : Port) : (s.setPort p v).ctxMap = s.ctxMap := rfl
@[simp] theorem State.setPort_cells (s : State) (p : BitVec 4) (v : Port) : (s.setPort p v).cells = s.cells := rfl
@[simp] theorem State.setPort_slots (s : State) (p : BitVec 4) (v : Port) : (s.setPort p v).slots = s.slots := rfl
@[simp] theorem State.setPort_retained (s : State) (p : BitVec 4) (v : Port) : (s.setPort p v).retained = s.retained := rfl
@[simp] theorem State.setPort_waitRecs (s : State) (p : BitVec 4) (v : Port) : (s.setPort p v).waitRecs = s.waitRecs := rfl
@[simp] theorem State.setPort_clusters (s : State) (p : BitVec 4) (v : Port) : (s.setPort p v).clusters = s.clusters := rfl
@[simp] theorem State.setPort_homes (s : State) (p : BitVec 4) (v : Port) : (s.setPort p v).homes = s.homes := rfl
@[simp] theorem State.setPort_parts (s : State) (p : BitVec 4) (v : Port) : (s.setPort p v).parts = s.parts := rfl
@[simp] theorem State.setPort_workqs (s : State) (p : BitVec 4) (v : Port) : (s.setPort p v).workqs = s.workqs := rfl
@[simp] theorem State.setPort_flows (s : State) (p : BitVec 4) (v : Port) : (s.setPort p v).flows = s.flows := rfl
@[simp] theorem State.setPort_items (s : State) (p : BitVec 4) (v : Port) : (s.setPort p v).items = s.items := rfl
@[simp] theorem State.setPort_memErrs (s : State) (p : BitVec 4) (v : Port) : (s.setPort p v).memErrs = s.memErrs := rfl
@[simp] theorem State.setPort_inMove (s : State) (p : BitVec 4) (v : Port) : (s.setPort p v).inMove = s.inMove := rfl
@[simp] theorem State.setPort_moves (s : State) (p : BitVec 4) (v : Port) : (s.setPort p v).moves = s.moves := rfl
@[simp] theorem State.setPort_samples (s : State) (p : BitVec 4) (v : Port) : (s.setPort p v).samples = s.samples := rfl
@[simp] theorem State.setPort_placePtr (s : State) (p : BitVec 4) (v : Port) : (s.setPort p v).placePtr = s.placePtr := rfl
@[simp] theorem State.setPort_outTx (s : State) (p : BitVec 4) (v : Port) : (s.setPort p v).outTx = s.outTx := rfl
@[simp] theorem State.setPort_copies (s : State) (p : BitVec 4) (v : Port) : (s.setPort p v).copies = s.copies := rfl
@[simp] theorem State.setPort_ledger (s : State) (p : BitVec 4) (v : Port) : (s.setPort p v).ledger = s.ledger := rfl
@[simp] theorem State.setPort_dups (s : State) (p : BitVec 4) (v : Port) : (s.setPort p v).dups = s.dups := rfl
@[simp] theorem State.setPort_tn (s : State) (p : BitVec 4) (v : Port) : (s.setPort p v).tn = s.tn := rfl
@[simp] theorem State.setPort_classes (s : State) (p : BitVec 4) (v : Port) : (s.setPort p v).classes = s.classes := rfl
@[simp] theorem State.setPort_keys (s : State) (p : BitVec 4) (v : Port) : (s.setPort p v).keys = s.keys := rfl
@[simp] theorem State.setPort_wraps (s : State) (p : BitVec 4) (v : Port) : (s.setPort p v).wraps = s.wraps := rfl
@[simp] theorem State.setPort_drbg (s : State) (p : BitVec 4) (v : Port) : (s.setPort p v).drbg = s.drbg := rfl
@[simp] theorem State.setPort_col (s : State) (p : BitVec 4) (v : Port) : (s.setPort p v).col = s.col := rfl
@[simp] theorem State.setPort_ben (s : State) (p : BitVec 4) (v : Port) : (s.setPort p v).ben = s.ben := rfl
@[simp] theorem State.setPort_hier (s : State) (p : BitVec 4) (v : Port) : (s.setPort p v).hier = s.hier := rfl
@[simp] theorem State.setPort_dbg (s : State) (p : BitVec 4) (v : Port) : (s.setPort p v).dbg = s.dbg := rfl
@[simp] theorem State.setPort_plat (s : State) (p : BitVec 4) (v : Port) : (s.setPort p v).plat = s.plat := rfl
@[simp] theorem State.setPort_wire (s : State) (p : BitVec 4) (v : Port) : (s.setPort p v).wire = s.wire := rfl
@[simp] theorem State.setPort_out (s : State) (p : BitVec 4) (v : Port) : (s.setPort p v).out = s.out := rfl
@[simp] theorem State.setPort_now (s : State) (p : BitVec 4) (v : Port) : (s.setPort p v).now = s.now := rfl
@[simp] theorem State.setPort_ids (s : State) (p : BitVec 4) (v : Port) : (s.setPort p v).ids = s.ids := rfl
@[simp] theorem State.setPort_free (s : State) (p : BitVec 4) (v : Port) : (s.setPort p v).free = s.free := rfl
@[simp] theorem State.setPort_cell (s : State) (p : BitVec 4) (v : Port) (c' : CellId) :
    (s.setPort p v).cell c' = s.cell c' := rfl
@[simp] theorem State.setPort_slot (s : State) (p : BitVec 4) (v : Port) (c' : CellId) (k' : SlotId) :
    (s.setPort p v).slot c' k' = s.slot c' k' := rfl
@[simp] theorem State.setPort_frame (s : State) (p : BitVec 4) (v : Port) (f' : BitVec 20) :
    (s.setPort p v).frame f' = s.frame f' := rfl
@[simp] theorem State.setPort_ctxEnt (s : State) (p : BitVec 4) (v : Port) (f' : BitVec 20) :
    (s.setPort p v).ctxEnt f' = s.ctxEnt f' := rfl
@[simp] theorem State.setPort_cluster (s : State) (p : BitVec 4) (v : Port) (g' : BitVec 4) :
    (s.setPort p v).cluster g' = s.cluster g' := rfl
@[simp] theorem State.setPort_home (s : State) (p : BitVec 4) (v : Port) (h' : BitVec 4) :
    (s.setPort p v).home h' = s.home h' := rfl
@[simp] theorem State.setPort_part (s : State) (p : BitVec 4) (v : Port) (p' : BitVec 6) :
    (s.setPort p v).part p' = s.part p' := rfl
@[simp] theorem State.setPort_workq (s : State) (p : BitVec 4) (v : Port) (p' q' : BitVec 6) :
    (s.setPort p v).workq p' q' = s.workq p' q' := rfl
@[simp] theorem State.setPort_flow (s : State) (p : BitVec 4) (v : Port) (f' : BitVec 12) :
    (s.setPort p v).flow f' = s.flow f' := rfl
@[simp] theorem State.setPort_move (s : State) (p : BitVec 4) (v : Port) (m' : BitVec 2) :
    (s.setPort p v).move m' = s.move m' := rfl
@[simp] theorem State.setPort_entry (s : State) (p : BitVec 4) (v : Port) (i' : Nat) :
    (s.setPort p v).entry i' = s.entry i' := rfl
@[simp] theorem State.setPort_dup (s : State) (p : BitVec 4) (v : Port) (o' : Nat) :
    (s.setPort p v).dup o' = s.dup o' := rfl
@[simp] theorem State.setPort_eclass (s : State) (p : BitVec 4) (v : Port) (k' : BitVec 3) :
    (s.setPort p v).eclass k' = s.eclass k' := rfl
@[simp] theorem State.setPort_key (s : State) (p : BitVec 4) (v : Port) (i' : Nat) :
    (s.setPort p v).key i' = s.key i' := rfl
@[simp] theorem State.setPort_reg (s : State) (p : BitVec 4) (v : Port) (a' : Nat) :
    (s.setPort p v).reg a' = s.reg a' := rfl

/-! ### setEntry -/

@[simp] theorem State.setEntry_pending (s : State) (i : Nat) (v : Ledger) : (s.setEntry i v).pending = s.pending := rfl
@[simp] theorem State.setEntry_regs (s : State) (i : Nat) (v : Ledger) : (s.setEntry i v).regs = s.regs := rfl
@[simp] theorem State.setEntry_hiLatch (s : State) (i : Nat) (v : Ledger) : (s.setEntry i v).hiLatch = s.hiLatch := rfl
@[simp] theorem State.setEntry_loHold (s : State) (i : Nat) (v : Ledger) : (s.setEntry i v).loHold = s.loHold := rfl
@[simp] theorem State.setEntry_mem (s : State) (i : Nat) (v : Ledger) : (s.setEntry i v).mem = s.mem := rfl
@[simp] theorem State.setEntry_frames (s : State) (i : Nat) (v : Ledger) : (s.setEntry i v).frames = s.frames := rfl
@[simp] theorem State.setEntry_ctxMap (s : State) (i : Nat) (v : Ledger) : (s.setEntry i v).ctxMap = s.ctxMap := rfl
@[simp] theorem State.setEntry_cells (s : State) (i : Nat) (v : Ledger) : (s.setEntry i v).cells = s.cells := rfl
@[simp] theorem State.setEntry_slots (s : State) (i : Nat) (v : Ledger) : (s.setEntry i v).slots = s.slots := rfl
@[simp] theorem State.setEntry_retained (s : State) (i : Nat) (v : Ledger) : (s.setEntry i v).retained = s.retained := rfl
@[simp] theorem State.setEntry_waitRecs (s : State) (i : Nat) (v : Ledger) : (s.setEntry i v).waitRecs = s.waitRecs := rfl
@[simp] theorem State.setEntry_clusters (s : State) (i : Nat) (v : Ledger) : (s.setEntry i v).clusters = s.clusters := rfl
@[simp] theorem State.setEntry_homes (s : State) (i : Nat) (v : Ledger) : (s.setEntry i v).homes = s.homes := rfl
@[simp] theorem State.setEntry_parts (s : State) (i : Nat) (v : Ledger) : (s.setEntry i v).parts = s.parts := rfl
@[simp] theorem State.setEntry_workqs (s : State) (i : Nat) (v : Ledger) : (s.setEntry i v).workqs = s.workqs := rfl
@[simp] theorem State.setEntry_flows (s : State) (i : Nat) (v : Ledger) : (s.setEntry i v).flows = s.flows := rfl
@[simp] theorem State.setEntry_items (s : State) (i : Nat) (v : Ledger) : (s.setEntry i v).items = s.items := rfl
@[simp] theorem State.setEntry_memErrs (s : State) (i : Nat) (v : Ledger) : (s.setEntry i v).memErrs = s.memErrs := rfl
@[simp] theorem State.setEntry_inMove (s : State) (i : Nat) (v : Ledger) : (s.setEntry i v).inMove = s.inMove := rfl
@[simp] theorem State.setEntry_moves (s : State) (i : Nat) (v : Ledger) : (s.setEntry i v).moves = s.moves := rfl
@[simp] theorem State.setEntry_samples (s : State) (i : Nat) (v : Ledger) : (s.setEntry i v).samples = s.samples := rfl
@[simp] theorem State.setEntry_placePtr (s : State) (i : Nat) (v : Ledger) : (s.setEntry i v).placePtr = s.placePtr := rfl
@[simp] theorem State.setEntry_ports (s : State) (i : Nat) (v : Ledger) : (s.setEntry i v).ports = s.ports := rfl
@[simp] theorem State.setEntry_outTx (s : State) (i : Nat) (v : Ledger) : (s.setEntry i v).outTx = s.outTx := rfl
@[simp] theorem State.setEntry_copies (s : State) (i : Nat) (v : Ledger) : (s.setEntry i v).copies = s.copies := rfl
@[simp] theorem State.setEntry_dups (s : State) (i : Nat) (v : Ledger) : (s.setEntry i v).dups = s.dups := rfl
@[simp] theorem State.setEntry_tn (s : State) (i : Nat) (v : Ledger) : (s.setEntry i v).tn = s.tn := rfl
@[simp] theorem State.setEntry_classes (s : State) (i : Nat) (v : Ledger) : (s.setEntry i v).classes = s.classes := rfl
@[simp] theorem State.setEntry_keys (s : State) (i : Nat) (v : Ledger) : (s.setEntry i v).keys = s.keys := rfl
@[simp] theorem State.setEntry_wraps (s : State) (i : Nat) (v : Ledger) : (s.setEntry i v).wraps = s.wraps := rfl
@[simp] theorem State.setEntry_drbg (s : State) (i : Nat) (v : Ledger) : (s.setEntry i v).drbg = s.drbg := rfl
@[simp] theorem State.setEntry_col (s : State) (i : Nat) (v : Ledger) : (s.setEntry i v).col = s.col := rfl
@[simp] theorem State.setEntry_ben (s : State) (i : Nat) (v : Ledger) : (s.setEntry i v).ben = s.ben := rfl
@[simp] theorem State.setEntry_hier (s : State) (i : Nat) (v : Ledger) : (s.setEntry i v).hier = s.hier := rfl
@[simp] theorem State.setEntry_dbg (s : State) (i : Nat) (v : Ledger) : (s.setEntry i v).dbg = s.dbg := rfl
@[simp] theorem State.setEntry_plat (s : State) (i : Nat) (v : Ledger) : (s.setEntry i v).plat = s.plat := rfl
@[simp] theorem State.setEntry_wire (s : State) (i : Nat) (v : Ledger) : (s.setEntry i v).wire = s.wire := rfl
@[simp] theorem State.setEntry_out (s : State) (i : Nat) (v : Ledger) : (s.setEntry i v).out = s.out := rfl
@[simp] theorem State.setEntry_now (s : State) (i : Nat) (v : Ledger) : (s.setEntry i v).now = s.now := rfl
@[simp] theorem State.setEntry_ids (s : State) (i : Nat) (v : Ledger) : (s.setEntry i v).ids = s.ids := rfl
@[simp] theorem State.setEntry_free (s : State) (i : Nat) (v : Ledger) : (s.setEntry i v).free = s.free := rfl
@[simp] theorem State.setEntry_cell (s : State) (i : Nat) (v : Ledger) (c' : CellId) :
    (s.setEntry i v).cell c' = s.cell c' := rfl
@[simp] theorem State.setEntry_slot (s : State) (i : Nat) (v : Ledger) (c' : CellId) (k' : SlotId) :
    (s.setEntry i v).slot c' k' = s.slot c' k' := rfl
@[simp] theorem State.setEntry_frame (s : State) (i : Nat) (v : Ledger) (f' : BitVec 20) :
    (s.setEntry i v).frame f' = s.frame f' := rfl
@[simp] theorem State.setEntry_ctxEnt (s : State) (i : Nat) (v : Ledger) (f' : BitVec 20) :
    (s.setEntry i v).ctxEnt f' = s.ctxEnt f' := rfl
@[simp] theorem State.setEntry_cluster (s : State) (i : Nat) (v : Ledger) (g' : BitVec 4) :
    (s.setEntry i v).cluster g' = s.cluster g' := rfl
@[simp] theorem State.setEntry_home (s : State) (i : Nat) (v : Ledger) (h' : BitVec 4) :
    (s.setEntry i v).home h' = s.home h' := rfl
@[simp] theorem State.setEntry_part (s : State) (i : Nat) (v : Ledger) (p' : BitVec 6) :
    (s.setEntry i v).part p' = s.part p' := rfl
@[simp] theorem State.setEntry_workq (s : State) (i : Nat) (v : Ledger) (p' q' : BitVec 6) :
    (s.setEntry i v).workq p' q' = s.workq p' q' := rfl
@[simp] theorem State.setEntry_flow (s : State) (i : Nat) (v : Ledger) (f' : BitVec 12) :
    (s.setEntry i v).flow f' = s.flow f' := rfl
@[simp] theorem State.setEntry_move (s : State) (i : Nat) (v : Ledger) (m' : BitVec 2) :
    (s.setEntry i v).move m' = s.move m' := rfl
@[simp] theorem State.setEntry_port (s : State) (i : Nat) (v : Ledger) (p' : BitVec 4) :
    (s.setEntry i v).port p' = s.port p' := rfl
@[simp] theorem State.setEntry_dup (s : State) (i : Nat) (v : Ledger) (o' : Nat) :
    (s.setEntry i v).dup o' = s.dup o' := rfl
@[simp] theorem State.setEntry_eclass (s : State) (i : Nat) (v : Ledger) (k' : BitVec 3) :
    (s.setEntry i v).eclass k' = s.eclass k' := rfl
@[simp] theorem State.setEntry_key (s : State) (i : Nat) (v : Ledger) (i' : Nat) :
    (s.setEntry i v).key i' = s.key i' := rfl
@[simp] theorem State.setEntry_reg (s : State) (i : Nat) (v : Ledger) (a' : Nat) :
    (s.setEntry i v).reg a' = s.reg a' := rfl

/-! ### setDup -/

@[simp] theorem State.setDup_pending (s : State) (o : Nat) (v : DupWin) : (s.setDup o v).pending = s.pending := rfl
@[simp] theorem State.setDup_regs (s : State) (o : Nat) (v : DupWin) : (s.setDup o v).regs = s.regs := rfl
@[simp] theorem State.setDup_hiLatch (s : State) (o : Nat) (v : DupWin) : (s.setDup o v).hiLatch = s.hiLatch := rfl
@[simp] theorem State.setDup_loHold (s : State) (o : Nat) (v : DupWin) : (s.setDup o v).loHold = s.loHold := rfl
@[simp] theorem State.setDup_mem (s : State) (o : Nat) (v : DupWin) : (s.setDup o v).mem = s.mem := rfl
@[simp] theorem State.setDup_frames (s : State) (o : Nat) (v : DupWin) : (s.setDup o v).frames = s.frames := rfl
@[simp] theorem State.setDup_ctxMap (s : State) (o : Nat) (v : DupWin) : (s.setDup o v).ctxMap = s.ctxMap := rfl
@[simp] theorem State.setDup_cells (s : State) (o : Nat) (v : DupWin) : (s.setDup o v).cells = s.cells := rfl
@[simp] theorem State.setDup_slots (s : State) (o : Nat) (v : DupWin) : (s.setDup o v).slots = s.slots := rfl
@[simp] theorem State.setDup_retained (s : State) (o : Nat) (v : DupWin) : (s.setDup o v).retained = s.retained := rfl
@[simp] theorem State.setDup_waitRecs (s : State) (o : Nat) (v : DupWin) : (s.setDup o v).waitRecs = s.waitRecs := rfl
@[simp] theorem State.setDup_clusters (s : State) (o : Nat) (v : DupWin) : (s.setDup o v).clusters = s.clusters := rfl
@[simp] theorem State.setDup_homes (s : State) (o : Nat) (v : DupWin) : (s.setDup o v).homes = s.homes := rfl
@[simp] theorem State.setDup_parts (s : State) (o : Nat) (v : DupWin) : (s.setDup o v).parts = s.parts := rfl
@[simp] theorem State.setDup_workqs (s : State) (o : Nat) (v : DupWin) : (s.setDup o v).workqs = s.workqs := rfl
@[simp] theorem State.setDup_flows (s : State) (o : Nat) (v : DupWin) : (s.setDup o v).flows = s.flows := rfl
@[simp] theorem State.setDup_items (s : State) (o : Nat) (v : DupWin) : (s.setDup o v).items = s.items := rfl
@[simp] theorem State.setDup_memErrs (s : State) (o : Nat) (v : DupWin) : (s.setDup o v).memErrs = s.memErrs := rfl
@[simp] theorem State.setDup_inMove (s : State) (o : Nat) (v : DupWin) : (s.setDup o v).inMove = s.inMove := rfl
@[simp] theorem State.setDup_moves (s : State) (o : Nat) (v : DupWin) : (s.setDup o v).moves = s.moves := rfl
@[simp] theorem State.setDup_samples (s : State) (o : Nat) (v : DupWin) : (s.setDup o v).samples = s.samples := rfl
@[simp] theorem State.setDup_placePtr (s : State) (o : Nat) (v : DupWin) : (s.setDup o v).placePtr = s.placePtr := rfl
@[simp] theorem State.setDup_ports (s : State) (o : Nat) (v : DupWin) : (s.setDup o v).ports = s.ports := rfl
@[simp] theorem State.setDup_outTx (s : State) (o : Nat) (v : DupWin) : (s.setDup o v).outTx = s.outTx := rfl
@[simp] theorem State.setDup_copies (s : State) (o : Nat) (v : DupWin) : (s.setDup o v).copies = s.copies := rfl
@[simp] theorem State.setDup_ledger (s : State) (o : Nat) (v : DupWin) : (s.setDup o v).ledger = s.ledger := rfl
@[simp] theorem State.setDup_tn (s : State) (o : Nat) (v : DupWin) : (s.setDup o v).tn = s.tn := rfl
@[simp] theorem State.setDup_classes (s : State) (o : Nat) (v : DupWin) : (s.setDup o v).classes = s.classes := rfl
@[simp] theorem State.setDup_keys (s : State) (o : Nat) (v : DupWin) : (s.setDup o v).keys = s.keys := rfl
@[simp] theorem State.setDup_wraps (s : State) (o : Nat) (v : DupWin) : (s.setDup o v).wraps = s.wraps := rfl
@[simp] theorem State.setDup_drbg (s : State) (o : Nat) (v : DupWin) : (s.setDup o v).drbg = s.drbg := rfl
@[simp] theorem State.setDup_col (s : State) (o : Nat) (v : DupWin) : (s.setDup o v).col = s.col := rfl
@[simp] theorem State.setDup_ben (s : State) (o : Nat) (v : DupWin) : (s.setDup o v).ben = s.ben := rfl
@[simp] theorem State.setDup_hier (s : State) (o : Nat) (v : DupWin) : (s.setDup o v).hier = s.hier := rfl
@[simp] theorem State.setDup_dbg (s : State) (o : Nat) (v : DupWin) : (s.setDup o v).dbg = s.dbg := rfl
@[simp] theorem State.setDup_plat (s : State) (o : Nat) (v : DupWin) : (s.setDup o v).plat = s.plat := rfl
@[simp] theorem State.setDup_wire (s : State) (o : Nat) (v : DupWin) : (s.setDup o v).wire = s.wire := rfl
@[simp] theorem State.setDup_out (s : State) (o : Nat) (v : DupWin) : (s.setDup o v).out = s.out := rfl
@[simp] theorem State.setDup_now (s : State) (o : Nat) (v : DupWin) : (s.setDup o v).now = s.now := rfl
@[simp] theorem State.setDup_ids (s : State) (o : Nat) (v : DupWin) : (s.setDup o v).ids = s.ids := rfl
@[simp] theorem State.setDup_free (s : State) (o : Nat) (v : DupWin) : (s.setDup o v).free = s.free := rfl
@[simp] theorem State.setDup_cell (s : State) (o : Nat) (v : DupWin) (c' : CellId) :
    (s.setDup o v).cell c' = s.cell c' := rfl
@[simp] theorem State.setDup_slot (s : State) (o : Nat) (v : DupWin) (c' : CellId) (k' : SlotId) :
    (s.setDup o v).slot c' k' = s.slot c' k' := rfl
@[simp] theorem State.setDup_frame (s : State) (o : Nat) (v : DupWin) (f' : BitVec 20) :
    (s.setDup o v).frame f' = s.frame f' := rfl
@[simp] theorem State.setDup_ctxEnt (s : State) (o : Nat) (v : DupWin) (f' : BitVec 20) :
    (s.setDup o v).ctxEnt f' = s.ctxEnt f' := rfl
@[simp] theorem State.setDup_cluster (s : State) (o : Nat) (v : DupWin) (g' : BitVec 4) :
    (s.setDup o v).cluster g' = s.cluster g' := rfl
@[simp] theorem State.setDup_home (s : State) (o : Nat) (v : DupWin) (h' : BitVec 4) :
    (s.setDup o v).home h' = s.home h' := rfl
@[simp] theorem State.setDup_part (s : State) (o : Nat) (v : DupWin) (p' : BitVec 6) :
    (s.setDup o v).part p' = s.part p' := rfl
@[simp] theorem State.setDup_workq (s : State) (o : Nat) (v : DupWin) (p' q' : BitVec 6) :
    (s.setDup o v).workq p' q' = s.workq p' q' := rfl
@[simp] theorem State.setDup_flow (s : State) (o : Nat) (v : DupWin) (f' : BitVec 12) :
    (s.setDup o v).flow f' = s.flow f' := rfl
@[simp] theorem State.setDup_move (s : State) (o : Nat) (v : DupWin) (m' : BitVec 2) :
    (s.setDup o v).move m' = s.move m' := rfl
@[simp] theorem State.setDup_port (s : State) (o : Nat) (v : DupWin) (p' : BitVec 4) :
    (s.setDup o v).port p' = s.port p' := rfl
@[simp] theorem State.setDup_entry (s : State) (o : Nat) (v : DupWin) (i' : Nat) :
    (s.setDup o v).entry i' = s.entry i' := rfl
@[simp] theorem State.setDup_eclass (s : State) (o : Nat) (v : DupWin) (k' : BitVec 3) :
    (s.setDup o v).eclass k' = s.eclass k' := rfl
@[simp] theorem State.setDup_key (s : State) (o : Nat) (v : DupWin) (i' : Nat) :
    (s.setDup o v).key i' = s.key i' := rfl
@[simp] theorem State.setDup_reg (s : State) (o : Nat) (v : DupWin) (a' : Nat) :
    (s.setDup o v).reg a' = s.reg a' := rfl

/-! ### setEclass -/

@[simp] theorem State.setEclass_pending (s : State) (k : BitVec 3) (v : EClass) : (s.setEclass k v).pending = s.pending := rfl
@[simp] theorem State.setEclass_regs (s : State) (k : BitVec 3) (v : EClass) : (s.setEclass k v).regs = s.regs := rfl
@[simp] theorem State.setEclass_hiLatch (s : State) (k : BitVec 3) (v : EClass) : (s.setEclass k v).hiLatch = s.hiLatch := rfl
@[simp] theorem State.setEclass_loHold (s : State) (k : BitVec 3) (v : EClass) : (s.setEclass k v).loHold = s.loHold := rfl
@[simp] theorem State.setEclass_mem (s : State) (k : BitVec 3) (v : EClass) : (s.setEclass k v).mem = s.mem := rfl
@[simp] theorem State.setEclass_frames (s : State) (k : BitVec 3) (v : EClass) : (s.setEclass k v).frames = s.frames := rfl
@[simp] theorem State.setEclass_ctxMap (s : State) (k : BitVec 3) (v : EClass) : (s.setEclass k v).ctxMap = s.ctxMap := rfl
@[simp] theorem State.setEclass_cells (s : State) (k : BitVec 3) (v : EClass) : (s.setEclass k v).cells = s.cells := rfl
@[simp] theorem State.setEclass_slots (s : State) (k : BitVec 3) (v : EClass) : (s.setEclass k v).slots = s.slots := rfl
@[simp] theorem State.setEclass_retained (s : State) (k : BitVec 3) (v : EClass) : (s.setEclass k v).retained = s.retained := rfl
@[simp] theorem State.setEclass_waitRecs (s : State) (k : BitVec 3) (v : EClass) : (s.setEclass k v).waitRecs = s.waitRecs := rfl
@[simp] theorem State.setEclass_clusters (s : State) (k : BitVec 3) (v : EClass) : (s.setEclass k v).clusters = s.clusters := rfl
@[simp] theorem State.setEclass_homes (s : State) (k : BitVec 3) (v : EClass) : (s.setEclass k v).homes = s.homes := rfl
@[simp] theorem State.setEclass_parts (s : State) (k : BitVec 3) (v : EClass) : (s.setEclass k v).parts = s.parts := rfl
@[simp] theorem State.setEclass_workqs (s : State) (k : BitVec 3) (v : EClass) : (s.setEclass k v).workqs = s.workqs := rfl
@[simp] theorem State.setEclass_flows (s : State) (k : BitVec 3) (v : EClass) : (s.setEclass k v).flows = s.flows := rfl
@[simp] theorem State.setEclass_items (s : State) (k : BitVec 3) (v : EClass) : (s.setEclass k v).items = s.items := rfl
@[simp] theorem State.setEclass_memErrs (s : State) (k : BitVec 3) (v : EClass) : (s.setEclass k v).memErrs = s.memErrs := rfl
@[simp] theorem State.setEclass_inMove (s : State) (k : BitVec 3) (v : EClass) : (s.setEclass k v).inMove = s.inMove := rfl
@[simp] theorem State.setEclass_moves (s : State) (k : BitVec 3) (v : EClass) : (s.setEclass k v).moves = s.moves := rfl
@[simp] theorem State.setEclass_samples (s : State) (k : BitVec 3) (v : EClass) : (s.setEclass k v).samples = s.samples := rfl
@[simp] theorem State.setEclass_placePtr (s : State) (k : BitVec 3) (v : EClass) : (s.setEclass k v).placePtr = s.placePtr := rfl
@[simp] theorem State.setEclass_ports (s : State) (k : BitVec 3) (v : EClass) : (s.setEclass k v).ports = s.ports := rfl
@[simp] theorem State.setEclass_outTx (s : State) (k : BitVec 3) (v : EClass) : (s.setEclass k v).outTx = s.outTx := rfl
@[simp] theorem State.setEclass_copies (s : State) (k : BitVec 3) (v : EClass) : (s.setEclass k v).copies = s.copies := rfl
@[simp] theorem State.setEclass_ledger (s : State) (k : BitVec 3) (v : EClass) : (s.setEclass k v).ledger = s.ledger := rfl
@[simp] theorem State.setEclass_dups (s : State) (k : BitVec 3) (v : EClass) : (s.setEclass k v).dups = s.dups := rfl
@[simp] theorem State.setEclass_tn (s : State) (k : BitVec 3) (v : EClass) : (s.setEclass k v).tn = s.tn := rfl
@[simp] theorem State.setEclass_keys (s : State) (k : BitVec 3) (v : EClass) : (s.setEclass k v).keys = s.keys := rfl
@[simp] theorem State.setEclass_wraps (s : State) (k : BitVec 3) (v : EClass) : (s.setEclass k v).wraps = s.wraps := rfl
@[simp] theorem State.setEclass_drbg (s : State) (k : BitVec 3) (v : EClass) : (s.setEclass k v).drbg = s.drbg := rfl
@[simp] theorem State.setEclass_col (s : State) (k : BitVec 3) (v : EClass) : (s.setEclass k v).col = s.col := rfl
@[simp] theorem State.setEclass_ben (s : State) (k : BitVec 3) (v : EClass) : (s.setEclass k v).ben = s.ben := rfl
@[simp] theorem State.setEclass_hier (s : State) (k : BitVec 3) (v : EClass) : (s.setEclass k v).hier = s.hier := rfl
@[simp] theorem State.setEclass_dbg (s : State) (k : BitVec 3) (v : EClass) : (s.setEclass k v).dbg = s.dbg := rfl
@[simp] theorem State.setEclass_plat (s : State) (k : BitVec 3) (v : EClass) : (s.setEclass k v).plat = s.plat := rfl
@[simp] theorem State.setEclass_wire (s : State) (k : BitVec 3) (v : EClass) : (s.setEclass k v).wire = s.wire := rfl
@[simp] theorem State.setEclass_out (s : State) (k : BitVec 3) (v : EClass) : (s.setEclass k v).out = s.out := rfl
@[simp] theorem State.setEclass_now (s : State) (k : BitVec 3) (v : EClass) : (s.setEclass k v).now = s.now := rfl
@[simp] theorem State.setEclass_ids (s : State) (k : BitVec 3) (v : EClass) : (s.setEclass k v).ids = s.ids := rfl
@[simp] theorem State.setEclass_free (s : State) (k : BitVec 3) (v : EClass) : (s.setEclass k v).free = s.free := rfl
@[simp] theorem State.setEclass_cell (s : State) (k : BitVec 3) (v : EClass) (c' : CellId) :
    (s.setEclass k v).cell c' = s.cell c' := rfl
@[simp] theorem State.setEclass_slot (s : State) (k : BitVec 3) (v : EClass) (c' : CellId) (k' : SlotId) :
    (s.setEclass k v).slot c' k' = s.slot c' k' := rfl
@[simp] theorem State.setEclass_frame (s : State) (k : BitVec 3) (v : EClass) (f' : BitVec 20) :
    (s.setEclass k v).frame f' = s.frame f' := rfl
@[simp] theorem State.setEclass_ctxEnt (s : State) (k : BitVec 3) (v : EClass) (f' : BitVec 20) :
    (s.setEclass k v).ctxEnt f' = s.ctxEnt f' := rfl
@[simp] theorem State.setEclass_cluster (s : State) (k : BitVec 3) (v : EClass) (g' : BitVec 4) :
    (s.setEclass k v).cluster g' = s.cluster g' := rfl
@[simp] theorem State.setEclass_home (s : State) (k : BitVec 3) (v : EClass) (h' : BitVec 4) :
    (s.setEclass k v).home h' = s.home h' := rfl
@[simp] theorem State.setEclass_part (s : State) (k : BitVec 3) (v : EClass) (p' : BitVec 6) :
    (s.setEclass k v).part p' = s.part p' := rfl
@[simp] theorem State.setEclass_workq (s : State) (k : BitVec 3) (v : EClass) (p' q' : BitVec 6) :
    (s.setEclass k v).workq p' q' = s.workq p' q' := rfl
@[simp] theorem State.setEclass_flow (s : State) (k : BitVec 3) (v : EClass) (f' : BitVec 12) :
    (s.setEclass k v).flow f' = s.flow f' := rfl
@[simp] theorem State.setEclass_move (s : State) (k : BitVec 3) (v : EClass) (m' : BitVec 2) :
    (s.setEclass k v).move m' = s.move m' := rfl
@[simp] theorem State.setEclass_port (s : State) (k : BitVec 3) (v : EClass) (p' : BitVec 4) :
    (s.setEclass k v).port p' = s.port p' := rfl
@[simp] theorem State.setEclass_entry (s : State) (k : BitVec 3) (v : EClass) (i' : Nat) :
    (s.setEclass k v).entry i' = s.entry i' := rfl
@[simp] theorem State.setEclass_dup (s : State) (k : BitVec 3) (v : EClass) (o' : Nat) :
    (s.setEclass k v).dup o' = s.dup o' := rfl
@[simp] theorem State.setEclass_key (s : State) (k : BitVec 3) (v : EClass) (i' : Nat) :
    (s.setEclass k v).key i' = s.key i' := rfl
@[simp] theorem State.setEclass_reg (s : State) (k : BitVec 3) (v : EClass) (a' : Nat) :
    (s.setEclass k v).reg a' = s.reg a' := rfl

/-! ### setKey -/

@[simp] theorem State.setKey_pending (s : State) (i : Nat) (v : Key) : (s.setKey i v).pending = s.pending := rfl
@[simp] theorem State.setKey_regs (s : State) (i : Nat) (v : Key) : (s.setKey i v).regs = s.regs := rfl
@[simp] theorem State.setKey_hiLatch (s : State) (i : Nat) (v : Key) : (s.setKey i v).hiLatch = s.hiLatch := rfl
@[simp] theorem State.setKey_loHold (s : State) (i : Nat) (v : Key) : (s.setKey i v).loHold = s.loHold := rfl
@[simp] theorem State.setKey_mem (s : State) (i : Nat) (v : Key) : (s.setKey i v).mem = s.mem := rfl
@[simp] theorem State.setKey_frames (s : State) (i : Nat) (v : Key) : (s.setKey i v).frames = s.frames := rfl
@[simp] theorem State.setKey_ctxMap (s : State) (i : Nat) (v : Key) : (s.setKey i v).ctxMap = s.ctxMap := rfl
@[simp] theorem State.setKey_cells (s : State) (i : Nat) (v : Key) : (s.setKey i v).cells = s.cells := rfl
@[simp] theorem State.setKey_slots (s : State) (i : Nat) (v : Key) : (s.setKey i v).slots = s.slots := rfl
@[simp] theorem State.setKey_retained (s : State) (i : Nat) (v : Key) : (s.setKey i v).retained = s.retained := rfl
@[simp] theorem State.setKey_waitRecs (s : State) (i : Nat) (v : Key) : (s.setKey i v).waitRecs = s.waitRecs := rfl
@[simp] theorem State.setKey_clusters (s : State) (i : Nat) (v : Key) : (s.setKey i v).clusters = s.clusters := rfl
@[simp] theorem State.setKey_homes (s : State) (i : Nat) (v : Key) : (s.setKey i v).homes = s.homes := rfl
@[simp] theorem State.setKey_parts (s : State) (i : Nat) (v : Key) : (s.setKey i v).parts = s.parts := rfl
@[simp] theorem State.setKey_workqs (s : State) (i : Nat) (v : Key) : (s.setKey i v).workqs = s.workqs := rfl
@[simp] theorem State.setKey_flows (s : State) (i : Nat) (v : Key) : (s.setKey i v).flows = s.flows := rfl
@[simp] theorem State.setKey_items (s : State) (i : Nat) (v : Key) : (s.setKey i v).items = s.items := rfl
@[simp] theorem State.setKey_memErrs (s : State) (i : Nat) (v : Key) : (s.setKey i v).memErrs = s.memErrs := rfl
@[simp] theorem State.setKey_inMove (s : State) (i : Nat) (v : Key) : (s.setKey i v).inMove = s.inMove := rfl
@[simp] theorem State.setKey_moves (s : State) (i : Nat) (v : Key) : (s.setKey i v).moves = s.moves := rfl
@[simp] theorem State.setKey_samples (s : State) (i : Nat) (v : Key) : (s.setKey i v).samples = s.samples := rfl
@[simp] theorem State.setKey_placePtr (s : State) (i : Nat) (v : Key) : (s.setKey i v).placePtr = s.placePtr := rfl
@[simp] theorem State.setKey_ports (s : State) (i : Nat) (v : Key) : (s.setKey i v).ports = s.ports := rfl
@[simp] theorem State.setKey_outTx (s : State) (i : Nat) (v : Key) : (s.setKey i v).outTx = s.outTx := rfl
@[simp] theorem State.setKey_copies (s : State) (i : Nat) (v : Key) : (s.setKey i v).copies = s.copies := rfl
@[simp] theorem State.setKey_ledger (s : State) (i : Nat) (v : Key) : (s.setKey i v).ledger = s.ledger := rfl
@[simp] theorem State.setKey_dups (s : State) (i : Nat) (v : Key) : (s.setKey i v).dups = s.dups := rfl
@[simp] theorem State.setKey_tn (s : State) (i : Nat) (v : Key) : (s.setKey i v).tn = s.tn := rfl
@[simp] theorem State.setKey_classes (s : State) (i : Nat) (v : Key) : (s.setKey i v).classes = s.classes := rfl
@[simp] theorem State.setKey_wraps (s : State) (i : Nat) (v : Key) : (s.setKey i v).wraps = s.wraps := rfl
@[simp] theorem State.setKey_drbg (s : State) (i : Nat) (v : Key) : (s.setKey i v).drbg = s.drbg := rfl
@[simp] theorem State.setKey_col (s : State) (i : Nat) (v : Key) : (s.setKey i v).col = s.col := rfl
@[simp] theorem State.setKey_ben (s : State) (i : Nat) (v : Key) : (s.setKey i v).ben = s.ben := rfl
@[simp] theorem State.setKey_hier (s : State) (i : Nat) (v : Key) : (s.setKey i v).hier = s.hier := rfl
@[simp] theorem State.setKey_dbg (s : State) (i : Nat) (v : Key) : (s.setKey i v).dbg = s.dbg := rfl
@[simp] theorem State.setKey_plat (s : State) (i : Nat) (v : Key) : (s.setKey i v).plat = s.plat := rfl
@[simp] theorem State.setKey_wire (s : State) (i : Nat) (v : Key) : (s.setKey i v).wire = s.wire := rfl
@[simp] theorem State.setKey_out (s : State) (i : Nat) (v : Key) : (s.setKey i v).out = s.out := rfl
@[simp] theorem State.setKey_now (s : State) (i : Nat) (v : Key) : (s.setKey i v).now = s.now := rfl
@[simp] theorem State.setKey_ids (s : State) (i : Nat) (v : Key) : (s.setKey i v).ids = s.ids := rfl
@[simp] theorem State.setKey_free (s : State) (i : Nat) (v : Key) : (s.setKey i v).free = s.free := rfl
@[simp] theorem State.setKey_cell (s : State) (i : Nat) (v : Key) (c' : CellId) :
    (s.setKey i v).cell c' = s.cell c' := rfl
@[simp] theorem State.setKey_slot (s : State) (i : Nat) (v : Key) (c' : CellId) (k' : SlotId) :
    (s.setKey i v).slot c' k' = s.slot c' k' := rfl
@[simp] theorem State.setKey_frame (s : State) (i : Nat) (v : Key) (f' : BitVec 20) :
    (s.setKey i v).frame f' = s.frame f' := rfl
@[simp] theorem State.setKey_ctxEnt (s : State) (i : Nat) (v : Key) (f' : BitVec 20) :
    (s.setKey i v).ctxEnt f' = s.ctxEnt f' := rfl
@[simp] theorem State.setKey_cluster (s : State) (i : Nat) (v : Key) (g' : BitVec 4) :
    (s.setKey i v).cluster g' = s.cluster g' := rfl
@[simp] theorem State.setKey_home (s : State) (i : Nat) (v : Key) (h' : BitVec 4) :
    (s.setKey i v).home h' = s.home h' := rfl
@[simp] theorem State.setKey_part (s : State) (i : Nat) (v : Key) (p' : BitVec 6) :
    (s.setKey i v).part p' = s.part p' := rfl
@[simp] theorem State.setKey_workq (s : State) (i : Nat) (v : Key) (p' q' : BitVec 6) :
    (s.setKey i v).workq p' q' = s.workq p' q' := rfl
@[simp] theorem State.setKey_flow (s : State) (i : Nat) (v : Key) (f' : BitVec 12) :
    (s.setKey i v).flow f' = s.flow f' := rfl
@[simp] theorem State.setKey_move (s : State) (i : Nat) (v : Key) (m' : BitVec 2) :
    (s.setKey i v).move m' = s.move m' := rfl
@[simp] theorem State.setKey_port (s : State) (i : Nat) (v : Key) (p' : BitVec 4) :
    (s.setKey i v).port p' = s.port p' := rfl
@[simp] theorem State.setKey_entry (s : State) (i : Nat) (v : Key) (i' : Nat) :
    (s.setKey i v).entry i' = s.entry i' := rfl
@[simp] theorem State.setKey_dup (s : State) (i : Nat) (v : Key) (o' : Nat) :
    (s.setKey i v).dup o' = s.dup o' := rfl
@[simp] theorem State.setKey_eclass (s : State) (i : Nat) (v : Key) (k' : BitVec 3) :
    (s.setKey i v).eclass k' = s.eclass k' := rfl
@[simp] theorem State.setKey_reg (s : State) (i : Nat) (v : Key) (a' : Nat) :
    (s.setKey i v).reg a' = s.reg a' := rfl

/-! ### setReg -/

@[simp] theorem State.setReg_pending (s : State) (a : Nat) (v : Word) : (s.setReg a v).pending = s.pending := rfl
@[simp] theorem State.setReg_hiLatch (s : State) (a : Nat) (v : Word) : (s.setReg a v).hiLatch = s.hiLatch := rfl
@[simp] theorem State.setReg_loHold (s : State) (a : Nat) (v : Word) : (s.setReg a v).loHold = s.loHold := rfl
@[simp] theorem State.setReg_mem (s : State) (a : Nat) (v : Word) : (s.setReg a v).mem = s.mem := rfl
@[simp] theorem State.setReg_frames (s : State) (a : Nat) (v : Word) : (s.setReg a v).frames = s.frames := rfl
@[simp] theorem State.setReg_ctxMap (s : State) (a : Nat) (v : Word) : (s.setReg a v).ctxMap = s.ctxMap := rfl
@[simp] theorem State.setReg_cells (s : State) (a : Nat) (v : Word) : (s.setReg a v).cells = s.cells := rfl
@[simp] theorem State.setReg_slots (s : State) (a : Nat) (v : Word) : (s.setReg a v).slots = s.slots := rfl
@[simp] theorem State.setReg_retained (s : State) (a : Nat) (v : Word) : (s.setReg a v).retained = s.retained := rfl
@[simp] theorem State.setReg_waitRecs (s : State) (a : Nat) (v : Word) : (s.setReg a v).waitRecs = s.waitRecs := rfl
@[simp] theorem State.setReg_clusters (s : State) (a : Nat) (v : Word) : (s.setReg a v).clusters = s.clusters := rfl
@[simp] theorem State.setReg_homes (s : State) (a : Nat) (v : Word) : (s.setReg a v).homes = s.homes := rfl
@[simp] theorem State.setReg_parts (s : State) (a : Nat) (v : Word) : (s.setReg a v).parts = s.parts := rfl
@[simp] theorem State.setReg_workqs (s : State) (a : Nat) (v : Word) : (s.setReg a v).workqs = s.workqs := rfl
@[simp] theorem State.setReg_flows (s : State) (a : Nat) (v : Word) : (s.setReg a v).flows = s.flows := rfl
@[simp] theorem State.setReg_items (s : State) (a : Nat) (v : Word) : (s.setReg a v).items = s.items := rfl
@[simp] theorem State.setReg_memErrs (s : State) (a : Nat) (v : Word) : (s.setReg a v).memErrs = s.memErrs := rfl
@[simp] theorem State.setReg_inMove (s : State) (a : Nat) (v : Word) : (s.setReg a v).inMove = s.inMove := rfl
@[simp] theorem State.setReg_moves (s : State) (a : Nat) (v : Word) : (s.setReg a v).moves = s.moves := rfl
@[simp] theorem State.setReg_samples (s : State) (a : Nat) (v : Word) : (s.setReg a v).samples = s.samples := rfl
@[simp] theorem State.setReg_placePtr (s : State) (a : Nat) (v : Word) : (s.setReg a v).placePtr = s.placePtr := rfl
@[simp] theorem State.setReg_ports (s : State) (a : Nat) (v : Word) : (s.setReg a v).ports = s.ports := rfl
@[simp] theorem State.setReg_outTx (s : State) (a : Nat) (v : Word) : (s.setReg a v).outTx = s.outTx := rfl
@[simp] theorem State.setReg_copies (s : State) (a : Nat) (v : Word) : (s.setReg a v).copies = s.copies := rfl
@[simp] theorem State.setReg_ledger (s : State) (a : Nat) (v : Word) : (s.setReg a v).ledger = s.ledger := rfl
@[simp] theorem State.setReg_dups (s : State) (a : Nat) (v : Word) : (s.setReg a v).dups = s.dups := rfl
@[simp] theorem State.setReg_tn (s : State) (a : Nat) (v : Word) : (s.setReg a v).tn = s.tn := rfl
@[simp] theorem State.setReg_classes (s : State) (a : Nat) (v : Word) : (s.setReg a v).classes = s.classes := rfl
@[simp] theorem State.setReg_keys (s : State) (a : Nat) (v : Word) : (s.setReg a v).keys = s.keys := rfl
@[simp] theorem State.setReg_wraps (s : State) (a : Nat) (v : Word) : (s.setReg a v).wraps = s.wraps := rfl
@[simp] theorem State.setReg_drbg (s : State) (a : Nat) (v : Word) : (s.setReg a v).drbg = s.drbg := rfl
@[simp] theorem State.setReg_col (s : State) (a : Nat) (v : Word) : (s.setReg a v).col = s.col := rfl
@[simp] theorem State.setReg_ben (s : State) (a : Nat) (v : Word) : (s.setReg a v).ben = s.ben := rfl
@[simp] theorem State.setReg_hier (s : State) (a : Nat) (v : Word) : (s.setReg a v).hier = s.hier := rfl
@[simp] theorem State.setReg_dbg (s : State) (a : Nat) (v : Word) : (s.setReg a v).dbg = s.dbg := rfl
@[simp] theorem State.setReg_plat (s : State) (a : Nat) (v : Word) : (s.setReg a v).plat = s.plat := rfl
@[simp] theorem State.setReg_wire (s : State) (a : Nat) (v : Word) : (s.setReg a v).wire = s.wire := rfl
@[simp] theorem State.setReg_out (s : State) (a : Nat) (v : Word) : (s.setReg a v).out = s.out := rfl
@[simp] theorem State.setReg_now (s : State) (a : Nat) (v : Word) : (s.setReg a v).now = s.now := rfl
@[simp] theorem State.setReg_ids (s : State) (a : Nat) (v : Word) : (s.setReg a v).ids = s.ids := rfl
@[simp] theorem State.setReg_free (s : State) (a : Nat) (v : Word) : (s.setReg a v).free = s.free := rfl
@[simp] theorem State.setReg_cell (s : State) (a : Nat) (v : Word) (c' : CellId) :
    (s.setReg a v).cell c' = s.cell c' := rfl
@[simp] theorem State.setReg_slot (s : State) (a : Nat) (v : Word) (c' : CellId) (k' : SlotId) :
    (s.setReg a v).slot c' k' = s.slot c' k' := rfl
@[simp] theorem State.setReg_frame (s : State) (a : Nat) (v : Word) (f' : BitVec 20) :
    (s.setReg a v).frame f' = s.frame f' := rfl
@[simp] theorem State.setReg_ctxEnt (s : State) (a : Nat) (v : Word) (f' : BitVec 20) :
    (s.setReg a v).ctxEnt f' = s.ctxEnt f' := rfl
@[simp] theorem State.setReg_cluster (s : State) (a : Nat) (v : Word) (g' : BitVec 4) :
    (s.setReg a v).cluster g' = s.cluster g' := rfl
@[simp] theorem State.setReg_home (s : State) (a : Nat) (v : Word) (h' : BitVec 4) :
    (s.setReg a v).home h' = s.home h' := rfl
@[simp] theorem State.setReg_part (s : State) (a : Nat) (v : Word) (p' : BitVec 6) :
    (s.setReg a v).part p' = s.part p' := rfl
@[simp] theorem State.setReg_workq (s : State) (a : Nat) (v : Word) (p' q' : BitVec 6) :
    (s.setReg a v).workq p' q' = s.workq p' q' := rfl
@[simp] theorem State.setReg_flow (s : State) (a : Nat) (v : Word) (f' : BitVec 12) :
    (s.setReg a v).flow f' = s.flow f' := rfl
@[simp] theorem State.setReg_move (s : State) (a : Nat) (v : Word) (m' : BitVec 2) :
    (s.setReg a v).move m' = s.move m' := rfl
@[simp] theorem State.setReg_port (s : State) (a : Nat) (v : Word) (p' : BitVec 4) :
    (s.setReg a v).port p' = s.port p' := rfl
@[simp] theorem State.setReg_entry (s : State) (a : Nat) (v : Word) (i' : Nat) :
    (s.setReg a v).entry i' = s.entry i' := rfl
@[simp] theorem State.setReg_dup (s : State) (a : Nat) (v : Word) (o' : Nat) :
    (s.setReg a v).dup o' = s.dup o' := rfl
@[simp] theorem State.setReg_eclass (s : State) (a : Nat) (v : Word) (k' : BitVec 3) :
    (s.setReg a v).eclass k' = s.eclass k' := rfl
@[simp] theorem State.setReg_key (s : State) (a : Nat) (v : Word) (i' : Nat) :
    (s.setReg a v).key i' = s.key i' := rfl

/-! ### emit -/

@[simp] theorem State.emit_pending (s : State) (o : Out) : (s.emit o).pending = s.pending := rfl
@[simp] theorem State.emit_regs (s : State) (o : Out) : (s.emit o).regs = s.regs := rfl
@[simp] theorem State.emit_hiLatch (s : State) (o : Out) : (s.emit o).hiLatch = s.hiLatch := rfl
@[simp] theorem State.emit_loHold (s : State) (o : Out) : (s.emit o).loHold = s.loHold := rfl
@[simp] theorem State.emit_mem (s : State) (o : Out) : (s.emit o).mem = s.mem := rfl
@[simp] theorem State.emit_frames (s : State) (o : Out) : (s.emit o).frames = s.frames := rfl
@[simp] theorem State.emit_ctxMap (s : State) (o : Out) : (s.emit o).ctxMap = s.ctxMap := rfl
@[simp] theorem State.emit_cells (s : State) (o : Out) : (s.emit o).cells = s.cells := rfl
@[simp] theorem State.emit_slots (s : State) (o : Out) : (s.emit o).slots = s.slots := rfl
@[simp] theorem State.emit_retained (s : State) (o : Out) : (s.emit o).retained = s.retained := rfl
@[simp] theorem State.emit_waitRecs (s : State) (o : Out) : (s.emit o).waitRecs = s.waitRecs := rfl
@[simp] theorem State.emit_clusters (s : State) (o : Out) : (s.emit o).clusters = s.clusters := rfl
@[simp] theorem State.emit_homes (s : State) (o : Out) : (s.emit o).homes = s.homes := rfl
@[simp] theorem State.emit_parts (s : State) (o : Out) : (s.emit o).parts = s.parts := rfl
@[simp] theorem State.emit_workqs (s : State) (o : Out) : (s.emit o).workqs = s.workqs := rfl
@[simp] theorem State.emit_flows (s : State) (o : Out) : (s.emit o).flows = s.flows := rfl
@[simp] theorem State.emit_items (s : State) (o : Out) : (s.emit o).items = s.items := rfl
@[simp] theorem State.emit_memErrs (s : State) (o : Out) : (s.emit o).memErrs = s.memErrs := rfl
@[simp] theorem State.emit_inMove (s : State) (o : Out) : (s.emit o).inMove = s.inMove := rfl
@[simp] theorem State.emit_moves (s : State) (o : Out) : (s.emit o).moves = s.moves := rfl
@[simp] theorem State.emit_samples (s : State) (o : Out) : (s.emit o).samples = s.samples := rfl
@[simp] theorem State.emit_placePtr (s : State) (o : Out) : (s.emit o).placePtr = s.placePtr := rfl
@[simp] theorem State.emit_ports (s : State) (o : Out) : (s.emit o).ports = s.ports := rfl
@[simp] theorem State.emit_outTx (s : State) (o : Out) : (s.emit o).outTx = s.outTx := rfl
@[simp] theorem State.emit_copies (s : State) (o : Out) : (s.emit o).copies = s.copies := rfl
@[simp] theorem State.emit_ledger (s : State) (o : Out) : (s.emit o).ledger = s.ledger := rfl
@[simp] theorem State.emit_dups (s : State) (o : Out) : (s.emit o).dups = s.dups := rfl
@[simp] theorem State.emit_tn (s : State) (o : Out) : (s.emit o).tn = s.tn := rfl
@[simp] theorem State.emit_classes (s : State) (o : Out) : (s.emit o).classes = s.classes := rfl
@[simp] theorem State.emit_keys (s : State) (o : Out) : (s.emit o).keys = s.keys := rfl
@[simp] theorem State.emit_wraps (s : State) (o : Out) : (s.emit o).wraps = s.wraps := rfl
@[simp] theorem State.emit_drbg (s : State) (o : Out) : (s.emit o).drbg = s.drbg := rfl
@[simp] theorem State.emit_col (s : State) (o : Out) : (s.emit o).col = s.col := rfl
@[simp] theorem State.emit_ben (s : State) (o : Out) : (s.emit o).ben = s.ben := rfl
@[simp] theorem State.emit_hier (s : State) (o : Out) : (s.emit o).hier = s.hier := rfl
@[simp] theorem State.emit_dbg (s : State) (o : Out) : (s.emit o).dbg = s.dbg := rfl
@[simp] theorem State.emit_plat (s : State) (o : Out) : (s.emit o).plat = s.plat := rfl
@[simp] theorem State.emit_wire (s : State) (o : Out) : (s.emit o).wire = s.wire := rfl
@[simp] theorem State.emit_now (s : State) (o : Out) : (s.emit o).now = s.now := rfl
@[simp] theorem State.emit_ids (s : State) (o : Out) : (s.emit o).ids = s.ids := rfl
@[simp] theorem State.emit_free (s : State) (o : Out) : (s.emit o).free = s.free := rfl
@[simp] theorem State.emit_cell (s : State) (o : Out) (c' : CellId) :
    (s.emit o).cell c' = s.cell c' := rfl
@[simp] theorem State.emit_slot (s : State) (o : Out) (c' : CellId) (k' : SlotId) :
    (s.emit o).slot c' k' = s.slot c' k' := rfl
@[simp] theorem State.emit_frame (s : State) (o : Out) (f' : BitVec 20) :
    (s.emit o).frame f' = s.frame f' := rfl
@[simp] theorem State.emit_ctxEnt (s : State) (o : Out) (f' : BitVec 20) :
    (s.emit o).ctxEnt f' = s.ctxEnt f' := rfl
@[simp] theorem State.emit_cluster (s : State) (o : Out) (g' : BitVec 4) :
    (s.emit o).cluster g' = s.cluster g' := rfl
@[simp] theorem State.emit_home (s : State) (o : Out) (h' : BitVec 4) :
    (s.emit o).home h' = s.home h' := rfl
@[simp] theorem State.emit_part (s : State) (o : Out) (p' : BitVec 6) :
    (s.emit o).part p' = s.part p' := rfl
@[simp] theorem State.emit_workq (s : State) (o : Out) (p' q' : BitVec 6) :
    (s.emit o).workq p' q' = s.workq p' q' := rfl
@[simp] theorem State.emit_flow (s : State) (o : Out) (f' : BitVec 12) :
    (s.emit o).flow f' = s.flow f' := rfl
@[simp] theorem State.emit_move (s : State) (o : Out) (m' : BitVec 2) :
    (s.emit o).move m' = s.move m' := rfl
@[simp] theorem State.emit_port (s : State) (o : Out) (p' : BitVec 4) :
    (s.emit o).port p' = s.port p' := rfl
@[simp] theorem State.emit_entry (s : State) (o : Out) (i' : Nat) :
    (s.emit o).entry i' = s.entry i' := rfl
@[simp] theorem State.emit_dup (s : State) (o : Out) (o' : Nat) :
    (s.emit o).dup o' = s.dup o' := rfl
@[simp] theorem State.emit_eclass (s : State) (o : Out) (k' : BitVec 3) :
    (s.emit o).eclass k' = s.eclass k' := rfl
@[simp] theorem State.emit_key (s : State) (o : Out) (i' : Nat) :
    (s.emit o).key i' = s.key i' := rfl
@[simp] theorem State.emit_reg (s : State) (o : Out) (a' : Nat) :
    (s.emit o).reg a' = s.reg a' := rfl

/-! ### post -/

@[simp] theorem State.post_pending (s : State) (x : Instr) : (s.post x).pending = s.pending := rfl
@[simp] theorem State.post_regs (s : State) (x : Instr) : (s.post x).regs = s.regs := rfl
@[simp] theorem State.post_hiLatch (s : State) (x : Instr) : (s.post x).hiLatch = s.hiLatch := rfl
@[simp] theorem State.post_loHold (s : State) (x : Instr) : (s.post x).loHold = s.loHold := rfl
@[simp] theorem State.post_mem (s : State) (x : Instr) : (s.post x).mem = s.mem := rfl
@[simp] theorem State.post_frames (s : State) (x : Instr) : (s.post x).frames = s.frames := rfl
@[simp] theorem State.post_ctxMap (s : State) (x : Instr) : (s.post x).ctxMap = s.ctxMap := rfl
@[simp] theorem State.post_cells (s : State) (x : Instr) : (s.post x).cells = s.cells := rfl
@[simp] theorem State.post_slots (s : State) (x : Instr) : (s.post x).slots = s.slots := rfl
@[simp] theorem State.post_retained (s : State) (x : Instr) : (s.post x).retained = s.retained := rfl
@[simp] theorem State.post_waitRecs (s : State) (x : Instr) : (s.post x).waitRecs = s.waitRecs := rfl
@[simp] theorem State.post_clusters (s : State) (x : Instr) : (s.post x).clusters = s.clusters := rfl
@[simp] theorem State.post_homes (s : State) (x : Instr) : (s.post x).homes = s.homes := rfl
@[simp] theorem State.post_parts (s : State) (x : Instr) : (s.post x).parts = s.parts := rfl
@[simp] theorem State.post_workqs (s : State) (x : Instr) : (s.post x).workqs = s.workqs := rfl
@[simp] theorem State.post_flows (s : State) (x : Instr) : (s.post x).flows = s.flows := rfl
@[simp] theorem State.post_items (s : State) (x : Instr) : (s.post x).items = s.items := rfl
@[simp] theorem State.post_memErrs (s : State) (x : Instr) : (s.post x).memErrs = s.memErrs := rfl
@[simp] theorem State.post_inMove (s : State) (x : Instr) : (s.post x).inMove = s.inMove := rfl
@[simp] theorem State.post_moves (s : State) (x : Instr) : (s.post x).moves = s.moves := rfl
@[simp] theorem State.post_samples (s : State) (x : Instr) : (s.post x).samples = s.samples := rfl
@[simp] theorem State.post_placePtr (s : State) (x : Instr) : (s.post x).placePtr = s.placePtr := rfl
@[simp] theorem State.post_ports (s : State) (x : Instr) : (s.post x).ports = s.ports := rfl
@[simp] theorem State.post_outTx (s : State) (x : Instr) : (s.post x).outTx = s.outTx := rfl
@[simp] theorem State.post_copies (s : State) (x : Instr) : (s.post x).copies = s.copies := rfl
@[simp] theorem State.post_ledger (s : State) (x : Instr) : (s.post x).ledger = s.ledger := rfl
@[simp] theorem State.post_dups (s : State) (x : Instr) : (s.post x).dups = s.dups := rfl
@[simp] theorem State.post_tn (s : State) (x : Instr) : (s.post x).tn = s.tn := rfl
@[simp] theorem State.post_classes (s : State) (x : Instr) : (s.post x).classes = s.classes := rfl
@[simp] theorem State.post_keys (s : State) (x : Instr) : (s.post x).keys = s.keys := rfl
@[simp] theorem State.post_wraps (s : State) (x : Instr) : (s.post x).wraps = s.wraps := rfl
@[simp] theorem State.post_drbg (s : State) (x : Instr) : (s.post x).drbg = s.drbg := rfl
@[simp] theorem State.post_col (s : State) (x : Instr) : (s.post x).col = s.col := rfl
@[simp] theorem State.post_ben (s : State) (x : Instr) : (s.post x).ben = s.ben := rfl
@[simp] theorem State.post_hier (s : State) (x : Instr) : (s.post x).hier = s.hier := rfl
@[simp] theorem State.post_dbg (s : State) (x : Instr) : (s.post x).dbg = s.dbg := rfl
@[simp] theorem State.post_plat (s : State) (x : Instr) : (s.post x).plat = s.plat := rfl
@[simp] theorem State.post_out (s : State) (x : Instr) : (s.post x).out = s.out := rfl
@[simp] theorem State.post_now (s : State) (x : Instr) : (s.post x).now = s.now := rfl
@[simp] theorem State.post_ids (s : State) (x : Instr) : (s.post x).ids = s.ids := rfl
@[simp] theorem State.post_free (s : State) (x : Instr) : (s.post x).free = s.free := rfl
@[simp] theorem State.post_cell (s : State) (x : Instr) (c' : CellId) :
    (s.post x).cell c' = s.cell c' := rfl
@[simp] theorem State.post_slot (s : State) (x : Instr) (c' : CellId) (k' : SlotId) :
    (s.post x).slot c' k' = s.slot c' k' := rfl
@[simp] theorem State.post_frame (s : State) (x : Instr) (f' : BitVec 20) :
    (s.post x).frame f' = s.frame f' := rfl
@[simp] theorem State.post_ctxEnt (s : State) (x : Instr) (f' : BitVec 20) :
    (s.post x).ctxEnt f' = s.ctxEnt f' := rfl
@[simp] theorem State.post_cluster (s : State) (x : Instr) (g' : BitVec 4) :
    (s.post x).cluster g' = s.cluster g' := rfl
@[simp] theorem State.post_home (s : State) (x : Instr) (h' : BitVec 4) :
    (s.post x).home h' = s.home h' := rfl
@[simp] theorem State.post_part (s : State) (x : Instr) (p' : BitVec 6) :
    (s.post x).part p' = s.part p' := rfl
@[simp] theorem State.post_workq (s : State) (x : Instr) (p' q' : BitVec 6) :
    (s.post x).workq p' q' = s.workq p' q' := rfl
@[simp] theorem State.post_flow (s : State) (x : Instr) (f' : BitVec 12) :
    (s.post x).flow f' = s.flow f' := rfl
@[simp] theorem State.post_move (s : State) (x : Instr) (m' : BitVec 2) :
    (s.post x).move m' = s.move m' := rfl
@[simp] theorem State.post_port (s : State) (x : Instr) (p' : BitVec 4) :
    (s.post x).port p' = s.port p' := rfl
@[simp] theorem State.post_entry (s : State) (x : Instr) (i' : Nat) :
    (s.post x).entry i' = s.entry i' := rfl
@[simp] theorem State.post_dup (s : State) (x : Instr) (o' : Nat) :
    (s.post x).dup o' = s.dup o' := rfl
@[simp] theorem State.post_eclass (s : State) (x : Instr) (k' : BitVec 3) :
    (s.post x).eclass k' = s.eclass k' := rfl
@[simp] theorem State.post_key (s : State) (x : Instr) (i' : Nat) :
    (s.post x).key i' = s.key i' := rfl
@[simp] theorem State.post_reg (s : State) (x : Instr) (a' : Nat) :
    (s.post x).reg a' = s.reg a' := rfl

end Sys2Proof.Machine
end

