-- ==== Sys2Proof/Laws/Ops.lean ====
section
/-! SUPPORT. Reading what was written: for each table of the state and for the registers, the entry written reads as
written and every other as before. -/

namespace Sys2Proof.Machine

theorem toNat_ne {w : Nat} {a b : BitVec w} (h : a ≠ b) : a.toNat ≠ b.toNat := fun e => h (BitVec.eq_of_toNat_eq e)

@[simp] theorem State.modCell_eq (s : State) (k : CellId) (f : CellSt → CellSt) :
    s.modCell k f = s.setCell k (f (s.cell k)) := rfl
@[simp] theorem State.cell_setCell (s : State) (k : CellId) (v : CellSt) : (s.setCell k v).cell k = v :=
  Map.get_set_same _ _ _ _
theorem State.cell_setCell_ne (s : State) {k j : CellId} (v : CellSt) (h : j ≠ k) : (s.setCell k v).cell j = s.cell j :=
  Map.get_set_ne _ _ _ (toNat_ne h)

@[simp] theorem State.modFrame_eq (s : State) (k : BitVec 20) (f : Frame → Frame) :
    s.modFrame k f = s.setFrame k (f (s.frame k)) := rfl
@[simp] theorem State.frame_setFrame (s : State) (k : BitVec 20) (v : Frame) : (s.setFrame k v).frame k = v :=
  Map.get_set_same _ _ _ _
theorem State.frame_setFrame_ne (s : State) {k j : BitVec 20} (v : Frame) (h : j ≠ k) : (s.setFrame k v).frame j = s.frame j :=
  Map.get_set_ne _ _ _ (toNat_ne h)

@[simp] theorem State.modCtxEnt_eq (s : State) (k : BitVec 20) (f : CtxEnt → CtxEnt) :
    s.modCtxEnt k f = s.setCtxEnt k (f (s.ctxEnt k)) := rfl
@[simp] theorem State.ctxEnt_setCtxEnt (s : State) (k : BitVec 20) (v : CtxEnt) : (s.setCtxEnt k v).ctxEnt k = v :=
  Map.get_set_same _ _ _ _
theorem State.ctxEnt_setCtxEnt_ne (s : State) {k j : BitVec 20} (v : CtxEnt) (h : j ≠ k) : (s.setCtxEnt k v).ctxEnt j = s.ctxEnt j :=
  Map.get_set_ne _ _ _ (toNat_ne h)

@[simp] theorem State.modCluster_eq (s : State) (k : BitVec 4) (f : Cluster → Cluster) :
    s.modCluster k f = s.setCluster k (f (s.cluster k)) := rfl
@[simp] theorem State.cluster_setCluster (s : State) (k : BitVec 4) (v : Cluster) : (s.setCluster k v).cluster k = v :=
  Map.get_set_same _ _ _ _
theorem State.cluster_setCluster_ne (s : State) {k j : BitVec 4} (v : Cluster) (h : j ≠ k) : (s.setCluster k v).cluster j = s.cluster j :=
  Map.get_set_ne _ _ _ (toNat_ne h)

@[simp] theorem State.modHome_eq (s : State) (k : BitVec 4) (f : Home → Home) :
    s.modHome k f = s.setHome k (f (s.home k)) := rfl
@[simp] theorem State.home_setHome (s : State) (k : BitVec 4) (v : Home) : (s.setHome k v).home k = v :=
  Map.get_set_same _ _ _ _
theorem State.home_setHome_ne (s : State) {k j : BitVec 4} (v : Home) (h : j ≠ k) : (s.setHome k v).home j = s.home j :=
  Map.get_set_ne _ _ _ (toNat_ne h)

@[simp] theorem State.modPart_eq (s : State) (k : BitVec 6) (f : Part → Part) :
    s.modPart k f = s.setPart k (f (s.part k)) := rfl
@[simp] theorem State.part_setPart (s : State) (k : BitVec 6) (v : Part) : (s.setPart k v).part k = v :=
  Map.get_set_same _ _ _ _
theorem State.part_setPart_ne (s : State) {k j : BitVec 6} (v : Part) (h : j ≠ k) : (s.setPart k v).part j = s.part j :=
  Map.get_set_ne _ _ _ (toNat_ne h)

@[simp] theorem State.modFlow_eq (s : State) (k : BitVec 12) (f : Flow → Flow) :
    s.modFlow k f = s.setFlow k (f (s.flow k)) := rfl
@[simp] theorem State.flow_setFlow (s : State) (k : BitVec 12) (v : Flow) : (s.setFlow k v).flow k = v :=
  Map.get_set_same _ _ _ _
theorem State.flow_setFlow_ne (s : State) {k j : BitVec 12} (v : Flow) (h : j ≠ k) : (s.setFlow k v).flow j = s.flow j :=
  Map.get_set_ne _ _ _ (toNat_ne h)

@[simp] theorem State.modMove_eq (s : State) (k : BitVec 2) (f : PageMove → PageMove) :
    s.modMove k f = s.setMove k (f (s.move k)) := rfl
@[simp] theorem State.move_setMove (s : State) (k : BitVec 2) (v : PageMove) : (s.setMove k v).move k = v :=
  Map.get_set_same _ _ _ _
theorem State.move_setMove_ne (s : State) {k j : BitVec 2} (v : PageMove) (h : j ≠ k) : (s.setMove k v).move j = s.move j :=
  Map.get_set_ne _ _ _ (toNat_ne h)

@[simp] theorem State.modPort_eq (s : State) (k : BitVec 4) (f : Port → Port) :
    s.modPort k f = s.setPort k (f (s.port k)) := rfl
@[simp] theorem State.port_setPort (s : State) (k : BitVec 4) (v : Port) : (s.setPort k v).port k = v :=
  Map.get_set_same _ _ _ _
theorem State.port_setPort_ne (s : State) {k j : BitVec 4} (v : Port) (h : j ≠ k) : (s.setPort k v).port j = s.port j :=
  Map.get_set_ne _ _ _ (toNat_ne h)

@[simp] theorem State.modEclass_eq (s : State) (k : BitVec 3) (f : EClass → EClass) :
    s.modEclass k f = s.setEclass k (f (s.eclass k)) := rfl
@[simp] theorem State.eclass_setEclass (s : State) (k : BitVec 3) (v : EClass) : (s.setEclass k v).eclass k = v :=
  Map.get_set_same _ _ _ _
theorem State.eclass_setEclass_ne (s : State) {k j : BitVec 3} (v : EClass) (h : j ≠ k) : (s.setEclass k v).eclass j = s.eclass j :=
  Map.get_set_ne _ _ _ (toNat_ne h)

@[simp] theorem State.modEntry_eq (s : State) (k : Nat) (f : Ledger → Ledger) :
    s.modEntry k f = s.setEntry k (f (s.entry k)) := rfl
@[simp] theorem State.entry_setEntry (s : State) (k : Nat) (v : Ledger) : (s.setEntry k v).entry k = v :=
  Map.get_set_same _ _ _ _
theorem State.entry_setEntry_ne (s : State) {k j : Nat} (v : Ledger) (h : j ≠ k) : (s.setEntry k v).entry j = s.entry j :=
  Map.get_set_ne _ _ _ h

@[simp] theorem State.modDup_eq (s : State) (k : Nat) (f : DupWin → DupWin) :
    s.modDup k f = s.setDup k (f (s.dup k)) := rfl
@[simp] theorem State.dup_setDup (s : State) (k : Nat) (v : DupWin) : (s.setDup k v).dup k = v :=
  Map.get_set_same _ _ _ _
theorem State.dup_setDup_ne (s : State) {k j : Nat} (v : DupWin) (h : j ≠ k) : (s.setDup k v).dup j = s.dup j :=
  Map.get_set_ne _ _ _ h

@[simp] theorem State.modKey_eq (s : State) (k : Nat) (f : Key → Key) :
    s.modKey k f = s.setKey k (f (s.key k)) := rfl
@[simp] theorem State.key_setKey (s : State) (k : Nat) (v : Key) : (s.setKey k v).key k = v :=
  Map.get_set_same _ _ _ _
theorem State.key_setKey_ne (s : State) {k j : Nat} (v : Key) (h : j ≠ k) : (s.setKey k v).key j = s.key j :=
  Map.get_set_ne _ _ _ h

/-! ### Slots and work queues -/

theorem slotKey_inj {c c' : CellId} {k k' : SlotId} (h : slotKey c k = slotKey c' k') : c = c' ∧ k = k' := by
  unfold slotKey at h
  have hk := k.isLt
  have hk' := k'.isLt
  constructor <;> apply BitVec.eq_of_toNat_eq <;> omega

@[simp] theorem State.modSlot_eq (s : State) (c : CellId) (k : SlotId) (f : Slot → Slot) :
    s.modSlot c k f = s.setSlot c k (f (s.slot c k)) := rfl
@[simp] theorem State.slot_setSlot (s : State) (c : CellId) (k : SlotId) (v : Slot) : (s.setSlot c k v).slot c k = v :=
  Map.get_set_same _ _ _ _
theorem State.slot_setSlot_ne (s : State) {c c' : CellId} {k k' : SlotId} (v : Slot) (h : c' ≠ c ∨ k' ≠ k) :
    (s.setSlot c k v).slot c' k' = s.slot c' k' :=
  Map.get_set_ne _ _ _ fun e => by
    obtain ⟨rfl, rfl⟩ := slotKey_inj e
    exact h.elim (· rfl) (· rfl)

@[simp] theorem State.modWorkq_eq (s : State) (p q : BitVec 6) (f : WorkQ → WorkQ) :
    s.modWorkq p q f = s.setWorkq p q (f (s.workq p q)) := rfl
@[simp] theorem State.workq_setWorkq (s : State) (p q : BitVec 6) (v : WorkQ) : (s.setWorkq p q v).workq p q = v :=
  Map.get_set_same _ _ _ _

/-! ### Registers -/

@[simp] theorem State.reg_setReg (s : State) (a : Nat) (v : Word) : (s.setReg a v).reg a = v := by
  simp [State.reg, State.setReg]
theorem State.reg_setReg_ne (s : State) {a b : Nat} (v : Word) (h : b ≠ a) : (s.setReg a v).reg b = s.reg b := by
  simp [State.reg, State.setReg, Map.get_set_ne _ _ _ h]

end Sys2Proof.Machine
end

