-- ==== Sys2Proof/Laws/Commands.lean ====
section
/-! SUPPORT. The log (14 R615, R616) and the answer to a command (14 R585, R586): what each of the operations `log`, `respond`
and `onCommand` can do, said once. -/

namespace Sys2Proof.Machine

/-! ### The log -/

theorem logBytes_append (a b : List LogRec) : logBytes (a ++ b) = logBytes a + logBytes b := by
  simp [logBytes]

/-- Dropping the oldest records keeps the newest one, where it fits by itself. -/
theorem logFit_keeps (room : Nat) (rs : List LogRec) (e : LogRec) (h : logBytes [e] ≤ room) : e ∈ (logFit room (rs ++ [e])).2 := by
  induction rs with
  | nil =>
    show e ∈ (logFit room [e]).2
    unfold logFit
    rw [if_pos h]
    exact List.mem_singleton.2 rfl
  | cons r rs ih =>
    show e ∈ (logFit room (r :: (rs ++ [e]))).2
    unfold logFit
    split
    · simp
    · exact ih

/-- A record is written: it takes the next LSEQ and is in the ring, whatever the ring drops. The log changes nothing but the
ring, the LSEQ and the count of lost records. -/
theorem State.log_spec (s : State) (typ part : Byte) (body : List Byte) (hb : body.length ≤ 2 ^ 20) :
    ∃ ram lseq lost, s.log typ part body = { s with ben := { s.ben with
        ram := ram
        lseq := lseq
        lostRecs := lost } } ∧ s.newLog typ part body (s.ben.lseq + 1) ∈ ram := by
  have hl : logBytes [s.newLog typ part body (s.ben.lseq + 1)] ≤ 2 ^ 24 - 32 := by
    simp only [logBytes, State.newLog, List.map_cons, List.map_nil, List.sum_cons, List.sum_nil]
    omega
  have k := logFit_keeps _ s.ben.ram _ hl
  unfold State.log
  dsimp only
  split
  · exact ⟨_, _, _, rfl, by simp⟩
  · exact ⟨_, _, _, rfl, List.mem_append_left _ k⟩

/-! ### The answer -/

@[simp] theorem State.mbx_setMbx (s : State) (m : BitVec 5) (b : Mailbox) : (s.setMbx m b).mbx m = b := Map.get_set_same _ _ _ _
theorem State.mbx_setMbx_ne (s : State) {m n : BitVec 5} (b : Mailbox) (h : n ≠ m) : (s.setMbx m b).mbx n = s.mbx n :=
  Map.get_set_ne _ _ _ (toNat_ne h)

/-- The mailbox of a response, and the state in which it is DONE with it. -/
def doneMbx (b : Mailbox) (status detail : Nat) (payload : List Byte) : Mailbox := { b with
  state := mbDone
  response := responseBytes b.request status detail payload
  restarted := false
  progress := 0
  newOwner := [] }
def State.answering (s : State) (m : BitVec 5) (v : Mailbox) : State := { s with ben := { s.ben with
  mbx := Map.set mailbox0 s.ben.mbx m.toNat v
  order := s.ben.order.filter (· != m)
  journal := s.ben.journal.filter (· != m) } }

theorem State.respond_console {s : State} {m : BitVec 5} (hn : (s.mbx m).newOwner = []) (ht : (s.mbx m).transport = some .svc)
    (status detail : Nat) (payload : List Byte) : s.respond m status detail payload =
      (if (s.mbx m).cmd / 256 = 0 then s.answering m (doneMbx (s.mbx m) status detail payload)
        else (s.answering m (doneMbx (s.mbx m) status detail payload)).audit m (s.mbx m) status detail (if (s.mbx m).restarted then 1 else 0)).emit
          (.response m (responseBytes (s.mbx m).request status detail payload)) := by
  unfold State.respond State.deliverResponse State.answering doneMbx State.setMbx
  simp only [hn, ht, ↓reduceIte]

theorem State.audit_spec (s : State) (m : BitVec 5) (b : Mailbox) (status detail flags : Nat) :
    ∃ ram lseq lost e, s.audit m b status detail flags = { s with ben := { s.ben with
        ram := ram
        lseq := lseq
        lostRecs := lost } } ∧ e ∈ ram ∧ e.typ = 5 ∧ e.lseq = s.ben.lseq + 1 := by
  unfold State.audit
  have small : ([m.setWidth 8, b.owner] ++ natLe 2 b.cmd ++ natLe 4 b.tag ++ natLe 2 status ++ natLe 1 flags ++ [0] ++
      natLe 4 detail).length ≤ 2 ^ 20 := by
    simp only [natLe, List.length_append, List.length_map, List.length_range, List.length_cons, List.length_nil]
    omega
  obtain ⟨ram, lseq, lost, e, he⟩ := State.log_spec s 5 (if b.owner = whoSupervisor then b.part.setWidth 8 else noPart) _ small
  exact ⟨ram, lseq, lost, _, e, he, rfl, rfl⟩

/-- A mailbox that stays assigned to the console is answered, whatever the command's outcome. -/
theorem State.respond_answered {s : State} {m : BitVec 5} (hn : (s.mbx m).newOwner = []) (ht : (s.mbx m).transport = some .svc)
    (status detail : Nat) (payload : List Byte) : Answered s (s.respond m status detail payload) m status detail payload := by
  rw [State.respond_console hn ht]
  have here : ∀ v, (s.answering m v).mbx m = v := fun v => Map.get_set_same _ _ _ _
  have back : ∀ v n, n ≠ m → (s.answering m v).mbx n = s.mbx n := fun v n h => Map.get_set_ne _ _ _ (toNat_ne h)
  have done : doneMbx (s.mbx m) status detail payload = { (s.mbx m) with
      state := mbDone
      response := responseBytes (s.mbx m).request status detail payload
      restarted := false
      progress := 0 } := by
    unfold doneMbx
    rw [← hn]
  have out : ∀ v, m ∉ (s.answering m v).ben.order ∧ m ∉ (s.answering m v).ben.journal := fun v =>
    ⟨by simp [State.answering], by simp [State.answering]⟩
  unfold Answered
  split
  · rename_i h
    exact ⟨(here (doneMbx (s.mbx m) status detail payload)).trans done, back (doneMbx (s.mbx m) status detail payload), (out (doneMbx (s.mbx m) status detail payload)).1,
      (out (doneMbx (s.mbx m) status detail payload)).2, fun _ => ⟨rfl, rfl⟩, fun g => absurd h g, rfl⟩
  · rename_i h
    obtain ⟨ram, lseq, lost, e, ha, he⟩ := State.audit_spec (s.answering m (doneMbx (s.mbx m) status detail payload)) m (s.mbx m)
      status detail (if (s.mbx m).restarted then 1 else 0)
    rw [ha]
    exact ⟨(here (doneMbx (s.mbx m) status detail payload)).trans done, back (doneMbx (s.mbx m) status detail payload), (out (doneMbx (s.mbx m) status detail payload)).1,
      (out (doneMbx (s.mbx m) status detail payload)).2, fun g => absurd g h, fun _ => ⟨e, he⟩, rfl⟩

/-- A command of the mailbox that Benus runs does what its row says; any other changes nothing (assumption 3). -/
theorem onCommand_runs {m : BitVec 5} {code : Nat} {s : State} {r : List Byte} (h : Runs s m code r) (f : State → List Byte → State) :
    onCommand m code s f = .next (f s r) := by
  unfold onCommand
  dsimp only
  rw [h.benus, h.runs, h.cmd, h.payload]
  simp

end Sys2Proof.Machine
end

