-- ==== Sys2Proof/Laws/Issue.lean ====
section
/-! SUPPORT. What issuing an instruction does, said once: where `Issues` holds, the instruction's own body decides; and
what an instruction that writes one register leaves. -/

namespace Sys2Proof.Machine

/-- An instruction that issues, is legal and may run in the strand's mode does what its body says. -/
theorem State.issue_ok {s f : State} {i : Iss} {len : Nat} {legal sup : Bool} {uses : List Reg}
    {body : State → Slot → Act} {cf : Bool} (h : Issues s i len uses f) (hl : legal = true)
    (hs : (sup && !(s.slot i.cell i.slot).sup) = false) :
    s.issue i len legal sup uses body cf = (body f (f.slot i.cell i.slot)).settle i.cell i.slot := by
  have hb : (if (s.slot i.cell i.slot).passed = some (s.slot i.cell i.slot).pc then none
      else s.codeBreak i.cell (s.slot i.cell i.slot)) = none := by
    split
    · rfl
    · exact h.noBreak
  have hc : s.checked i.cell i.slot Detect.ok cf = none := rfl
  have hf := h.free
  have hfetch := h.fetched
  simp only [State.issue, h.can, h.noEvent, hb, h.tag, hl, hs, h.check]
  have hn : s.noted i.cell Detect.ok = s := rfl
  simp [hc, hn, hfetch, hf]

/-- With the cell's performance counters off, an event of theirs changes nothing. -/
theorem State.pmc_off {s : State} {c : CellId} (sup : Option Bool) (ev : Nat) (h : s.reg (pmcCell c + 0xC0) = 0) :
    s.pmc c sup ev = s := by
  simp [State.pmc, h]

/-! ### Registers of a slot -/

theorem Slot.g_zero (t : Slot) : t.g 0 = TWord.zero := if_pos rfl

theorem Slot.g_setG (t : Slot) (d r : Reg) (v : TWord) : (t.setG d v).g r = if r = d then written d v else t.g r := by
  unfold Slot.setG written
  by_cases hd : d = 0
  · rw [if_pos hd, if_pos hd]
    split
    · rename_i hr
      rw [hr, hd]
      exact Slot.g_zero t
    · rfl
  · rw [if_neg hd, if_neg hd]
    unfold Slot.g
    by_cases hr : r = d
    · rw [if_pos hr, hr, if_neg hd]
      exact Map.get_set_same _ _ _ _
    · rw [if_neg hr]
      split
      · rfl
      · exact Map.get_set_ne _ _ _ (toNat_ne hr)

/-- A register write changes the registers alone. -/
theorem Slot.setG_eq (t : Slot) (d : Reg) (v : TWord) : ∃ m, t.setG d v = { t with regs := m } := by
  unfold Slot.setG
  split
  · exact ⟨t.regs, rfl⟩
  · exact ⟨_, rfl⟩

/-! ### The end of an instruction -/

/-- `afterInstr` with the counters off: the slot's marks are cleared, and it has issued. -/
theorem State.afterInstr_eq {s : State} {c : CellId} {k : SlotId} (h : s.reg (pmcCell c + 0xC0) = 0) :
    s.afterInstr c k = (s.setSlot c k ((s.slot c k).ended s.now)).setCell c
      ((s.cell c).issued k (s.slot c k).pc) := by
  unfold State.afterInstr
  rw [State.pmc_off _ _ h]
  rfl

theorem Slot.ended_regs (now : BitVec 64) (t : Slot) : (t.ended now).regs = t.regs := by
  unfold Slot.ended
  by_cases h : t.stepping = 1 <;> simp [h]

theorem Slot.ended_pc (now : BitVec 64) (t : Slot) : (t.ended now).pc = t.pc := by
  unfold Slot.ended
  by_cases h : t.stepping = 1 <;> simp [h]

/-- Whatever an instruction made of its slot, its end leaves that, ended, and nothing else. -/
theorem State.ran_setSlot {f : State} {i : Iss} (a : Slot) (h : f.reg (pmcCell i.cell + 0xC0) = 0) :
    Ran f i a ((f.setSlot i.cell i.slot a).afterInstr i.cell i.slot) := by
  rw [State.afterInstr_eq (s := f.setSlot i.cell i.slot a) (c := i.cell) (k := i.slot) h, State.slot_setSlot]
  refine ⟨?_, ?_, ?_, ?_⟩
  · simp only [State.me, State.setCell_slot, State.slot_setSlot]
    rfl
  · rfl
  · intro c k hck
    rw [State.setCell_slot, State.slot_setSlot_ne _ _ hck, State.slot_setSlot_ne _ _ hck]
  · intro c
    split
    · rename_i hc
      subst hc
      rw [State.cell_setCell, State.me, State.setCell_slot, State.slot_setSlot, Slot.ended_pc]
      rfl
    · rename_i hc
      exact State.cell_setCell_ne _ _ hc

/-- Writing registers in order. -/
theorem Slot.g_setGs (ws : List (Reg × TWord)) (t : Slot) (r : Reg) : (t.setGs ws).g r = after ws t.g r := by
  induction ws generalizing t with
  | nil => rfl
  | cons w ws ih =>
    have h : (fun q => if q = w.1 then written w.1 w.2 else t.g q) = (t.setG w.1 w.2).g :=
      funext fun q => (Slot.g_setG t w.1 q w.2).symm
    rw [after, h]
    exact ih (t.setG w.1 w.2)

/-- Register writes change the registers alone. -/
theorem Slot.setGs_eq (ws : List (Reg × TWord)) (t : Slot) : t.setGs ws = { t with regs := (t.setGs ws).regs } := by
  induction ws generalizing t with
  | nil => rfl
  | cons w ws ih =>
    obtain ⟨m, hm⟩ := Slot.setG_eq t w.1 w.2
    have := ih (t.setG w.1 w.2)
    rw [hm] at this
    simp only [Slot.setGs, List.foldl] at this ⊢
    rw [hm]
    exact this

/-- An instruction that writes registers and goes on. -/
theorem State.wrote_finish {f : State} {i : Iss} {len : Nat} {ws : List (Reg × TWord)}
    (h : f.reg (pmcCell i.cell + 0xC0) = 0) :
    Wrote f i len ws ((f.finish i len ws).afterInstr i.cell i.slot) := by
  have hr := State.ran_setSlot (f := f) (i := i)
    { ((f.me i).setGs ws) with pc := (f.me i).pc + BitVec.ofNat 32 len } h
  have hregs : (((f.finish i len ws).afterInstr i.cell i.slot).me i).regs = ((f.me i).setGs ws).regs := by
    refine (congrArg Slot.regs hr.1).trans ?_
    rw [Slot.ended_regs]
  refine ⟨fun r => ?_, ?_⟩
  · rw [← Slot.g_setGs, Slot.g, hregs, Slot.g]
  · rw [hregs]
    have e := congrArg (fun x : Slot => { x with pc := (f.me i).pc + BitVec.ofNat 32 len }) (Slot.setGs_eq ws (f.me i))
    exact ⟨hr.1.trans (congrArg (Slot.ended f.now) e), hr.2⟩

end Sys2Proof.Machine
end

