-- ==== Sys2Proof/Laws/Events.lean ====
section
/-! SUPPORT. Event entry (05 R223 to R232), said once: outside a handler, with the cell's counters off and the shipped
microcode in the cell, the slot is in the handler of the event's cause. -/

namespace Sys2Proof.Machine

/-- Counting in a TRN block leaves every register outside these blocks as it was. -/
theorem State.reg_bump_trn (s : State) (g : BitVec 4) {a : Nat} (h : a < 0x00F00000 ∨ 0x00F10000 ≤ a) :
    (s.bump (trnBase g.toNat + 0x28)).reg a = s.reg a := by
  have hg := g.isLt
  unfold State.bump State.setReg State.reg
  rw [Map.get_set_ne]
  unfold trnBase
  omega

/-- What entry leaves in the slot: the event registers, supervisor mode and the vector; every register of the strand keeps its
value. -/
theorem State.enterEvent_handles {s : State} {c : CellId} {k : SlotId} (e : Ev) (epc : Word) (hs : (s.slot c k).state ≠ .handler)
    (hp : s.reg (pmcCell c + 0xC0) = 0) (hi : (s.cellImage c).isShipped = true) : Handles s c k e epc (s.enterEvent c k e epc) := by
  generalize hu : (if e.cause = 2 then s.bump (trnBase (clusterOf c).toNat + 0x28) else s) = u
  have hreg : ∀ a, a < 0x00F00000 ∨ 0x00F10000 ≤ a → u.reg a = s.reg a := fun a ha => by
    rw [← hu]
    split
    · exact State.reg_bump_trn _ _ ha
    · rfl
  have hrest : u.slots = s.slots ∧ u.cells = s.cells ∧ u.clusters = s.clusters := by
    rw [← hu]
    split <;> exact ⟨rfl, rfl, rfl⟩
  have hc : u.cell c = s.cell c := congrArg (Map.get _ · _) hrest.2.1
  have hk : u.slot c k = s.slot c k := congrArg (Map.get _ · _) hrest.1
  have hp' : u.draw.2.reg (pmcCell c + 0xC0) = 0 := by
    rw [← hp]
    refine hreg _ (.inr ?_)
    unfold pmcCell pmcBase
    omega
  have hi' : u.draw.2.cellImage c = s.cellImage c := by
    have hcl : clcBase (clusterOf c).toNat ≤ 0x00EF0000 := by
      have := (clusterOf c).isLt
      unfold clcBase
      omega
    have hcx : cellIndex c < 16 := Nat.mod_lt _ (by decide)
    have h1 : u.draw.2.reg (clcCell c 0xF40) = s.reg (clcCell c 0xF40) := by
      refine hreg _ (.inl ?_)
      unfold clcCell
      omega
    have h2 : ∀ n < 32, u.draw.2.reg (clcBase (clusterOf c).toNat + 0xC40 + 4 * n) =
        s.reg (clcBase (clusterOf c).toNat + 0xC40 + 4 * n) := fun n hn => by
      refine hreg _ (.inl ?_)
      omega
    have h3 : u.draw.2.cluster (clusterOf c) = s.cluster (clusterOf c) := congrArg (Map.get _ · _) hrest.2.2
    unfold State.cellImage
    dsimp only
    have h4 : u.draw.2.regField (clcCell c 0xF40) 4 0 = s.regField (clcCell c 0xF40) 4 0 := by
      unfold State.regField
      rw [h1]
    have h5 : s.regField (clcCell c 0xF40) 4 0 < 32 := by
      unfold State.regField field
      exact Nat.mod_lt _ (by decide)
    rw [h4, h2 _ h5, h3]
  unfold State.enterEvent
  simp only [hs, ↓reduceIte, hu]
  rw [State.pmc_off _ _ hp']
  have e2 : (if e.cause = 4 then u.draw.2.pmc c (some (s.slot c k).sup) 0x21 else u.draw.2) = u.draw.2 := by
    split
    · exact State.pmc_off _ _ hp'
    · rfl
  rw [e2, hi', hi]
  have hc' : u.draw.2.cell c = s.cell c := hc
  unfold Handles
  simp only [Bool.not_true, Bool.false_eq_true, ↓reduceIte, hc']
  have hsl : ((u.draw.2.modCell c fun x => x.entered k (Map.get 0 (s.cell c).vectors e.cause.toNat)).slot c k) = s.slot c k := hk
  simp only [State.modSlot_eq, State.slot_setSlot, hsl]
  refine ⟨trivial, trivial, trivial, trivial, ?_, trivial, trivial, trivial, trivial, rfl, fun r => rfl⟩
  intro a ha
  rw [ha]
  rfl

end Sys2Proof.Machine
end

