-- ==== Sys2Proof/Laws/Exec.lean ====
section
/-! SUPPORT. What `exec` answers for each command: its meaning, said once so that no proof unfolds the dispatcher. -/

namespace Sys2Proof.Machine

@[simp] theorem exec_moduleStart (s : State) {selfTest} {upstream} :
    exec (.moduleStart selfTest upstream) s = execModuleStart selfTest upstream s := rfl
@[simp] theorem exec_tokenAccept (s : State) {cell} {t} {snd} {srcCluster} {how} :
    exec (.tokenAccept cell t snd srcCluster how) s = execTokenAccept cell t snd srcCluster how s := rfl
@[simp] theorem exec_queueRefill (s : State) {cell} {ecc} :
    exec (.queueRefill cell ecc) s = execQueueRefill cell ecc s := rfl
@[simp] theorem exec_matchTok (s : State) {cell} {ecc} :
    exec (.matchTok cell ecc) s = execMatchTok cell ecc s := rfl
@[simp] theorem exec_sideBufferRelease (s : State) {cell} {ecc} :
    exec (.sideBufferRelease cell ecc) s = execSideBufferRelease cell ecc s := rfl
@[simp] theorem exec_refill (s : State) {cell} {ecc} :
    exec (.refill cell ecc) s = execRefill cell ecc s := rfl
@[simp] theorem exec_returnedTokenReceive (s : State) {snd} :
    exec (.returnedTokenReceive snd) s = execReturnedTokenReceive snd s := rfl
@[simp] theorem exec_tokenResend (s : State) {snd} :
    exec (.tokenResend snd) s = execTokenResend snd s := rfl
@[simp] theorem exec_heldReleaseRetry (s : State) {cell} {frame} :
    exec (.heldReleaseRetry cell frame) s = execHeldReleaseRetry cell frame s := rfl
@[simp] theorem exec_retransmissionRequest (s : State) {snd} :
    exec (.retransmissionRequest snd) s = execRetransmissionRequest snd s := rfl
@[simp] theorem exec_ackReceive (s : State) {snd} :
    exec (.ackReceive snd) s = execAckReceive snd s := rfl
@[simp] theorem exec_stallDetect (s : State) {cell} {frame} :
    exec (.stallDetect cell frame) s = execStallDetect cell frame s := rfl
@[simp] theorem exec_stallScanDone (s : State) {cell} {frame} :
    exec (.stallScanDone cell frame) s = execStallScanDone cell frame s := rfl
@[simp] theorem exec_ringRecheck (s : State) {writer} {part} :
    exec (.ringRecheck writer part) s = execRingRecheck writer part s := rfl
@[simp] theorem exec_windowAdaptSample (s : State) {cell} :
    exec (.windowAdaptSample cell) s = execWindowAdaptSample cell s := rfl
@[simp] theorem exec_ifetchReissue (s : State) {cell} {req} :
    exec (.ifetchReissue cell req) s = execIfetchReissue cell req s := rfl
@[simp] theorem exec_frameHeaderFill (s : State) {cell} {frame} :
    exec (.frameHeaderFill cell frame) s = execFrameHeaderFill cell frame s := rfl
@[simp] theorem exec_slotAssign (s : State) {cell} {check} :
    exec (.slotAssign cell check) s = execSlotAssign cell check s := rfl
@[simp] theorem exec_firingCommit (s : State) {cell} {slot} {check} :
    exec (.firingCommit cell slot check) s = execFiringCommit cell slot check s := rfl
@[simp] theorem exec_loadDataReturn (s : State) {cell} {slot} {reg} {ecc} :
    exec (.loadDataReturn cell slot reg ecc) s = execLoadDataReturn cell slot reg ecc s := rfl
@[simp] theorem exec_iterativeComplete (s : State) {cell} {slot} :
    exec (.iterativeComplete cell slot) s = execIterativeComplete cell slot s := rfl
@[simp] theorem exec_timeSliceExpiry (s : State) {cell} {slot} {check} :
    exec (.timeSliceExpiry cell slot check) s = execTimeSliceExpiry cell slot check s := rfl
@[simp] theorem exec_controlStoreScrub (s : State) {cluster} {phys} {address} {bad} :
    exec (.controlStoreScrub cluster phys address bad) s = execControlStoreScrub cluster phys address bad s := rfl
@[simp] theorem exec_storeDrain (s : State) {cell} :
    exec (.storeDrain cell) s = execStoreDrain cell s := rfl
@[simp] theorem exec_storeAck (s : State) {cell} {entry} :
    exec (.storeAck cell entry) s = execStoreAck cell entry s := rfl
@[simp] theorem exec_sideEffectStoreAck (s : State) {cell} {entry} :
    exec (.sideEffectStoreAck cell entry) s = execSideEffectStoreAck cell entry s := rfl
@[simp] theorem exec_storeLost (s : State) {cell} {entry} :
    exec (.storeLost cell entry) s = execStoreLost cell entry s := rfl
@[simp] theorem exec_cellDrainComplete (s : State) {cluster} {phys} :
    exec (.cellDrainComplete cluster phys) s = execCellDrainComplete cluster phys s := rfl
@[simp] theorem exec_drainTimeout (s : State) {cluster} {phys} :
    exec (.drainTimeout cluster phys) s = execDrainTimeout cluster phys s := rfl
@[simp] theorem exec_placementSample (s : State) :
    exec (.placementSample) s = execPlacementSample s := rfl
@[simp] theorem exec_spanSummary (s : State) {m} :
    exec (.spanSummary m) s = execSpanSummary m s := rfl
@[simp] theorem exec_placementDirective (s : State) {part} {epoch} {weights} :
    exec (.placementDirective part epoch weights) s = execPlacementDirective part epoch weights s := rfl
@[simp] theorem exec_directiveAbsent (s : State) :
    exec (.directiveAbsent) s = execDirectiveAbsent s := rfl
@[simp] theorem exec_migrationWindowEnd (s : State) {cell} :
    exec (.migrationWindowEnd cell) s = execMigrationWindowEnd cell s := rfl
@[simp] theorem exec_header (s : State) {frame} :
    exec (.header frame) s = execHeader frame s := rfl
@[simp] theorem exec_migrationScanDone (s : State) {frame} :
    exec (.migrationScanDone frame) s = execMigrationScanDone frame s := rfl
@[simp] theorem exec_headerConfirm (s : State) {frame} :
    exec (.headerConfirm frame) s = execHeaderConfirm frame s := rfl
@[simp] theorem exec_mapInvalidate (s : State) {cluster} {frame} :
    exec (.mapInvalidate cluster frame) s = execMapInvalidate cluster frame s := rfl
@[simp] theorem exec_mapMark (s : State) {cluster} {frame} :
    exec (.mapMark cluster frame) s = execMapMark cluster frame s := rfl
@[simp] theorem exec_endFwd (s : State) {frame} :
    exec (.endFwd frame) s = execEndFwd frame s := rfl
@[simp] theorem exec_contextMapFill (s : State) {cluster} {frame} :
    exec (.contextMapFill cluster frame) s = execContextMapFill cluster frame s := rfl
@[simp] theorem exec_pageSampleWindow (s : State) {home} :
    exec (.pageSampleWindow home) s = execPageSampleWindow home s := rfl
@[simp] theorem exec_pageMoveBlockCopy (s : State) {move} {uncorrectable} :
    exec (.pageMoveBlockCopy move uncorrectable) s = execPageMoveBlockCopy move uncorrectable s := rfl
@[simp] theorem exec_pageMoveTlbAck (s : State) {move} :
    exec (.pageMoveTlbAck move) s = execPageMoveTlbAck move s := rfl
@[simp] theorem exec_itemIntake (s : State) {port} {tn} :
    exec (.itemIntake port tn) s = execItemIntake port tn s := rfl
@[simp] theorem exec_workgetTimeout (s : State) {cell} {slot} :
    exec (.workgetTimeout cell slot) s = execWorkgetTimeout cell slot s := rfl
@[simp] theorem exec_releaseStoreFree (s : State) {cell} {slot} :
    exec (.releaseStoreFree cell slot) s = execReleaseStoreFree cell slot s := rfl
@[simp] theorem exec_itemLimitExpiry (s : State) {flow} :
    exec (.itemLimitExpiry flow) s = execItemLimitExpiry flow s := rfl
@[simp] theorem exec_walkTableRead (s : State) {cell} {slot} {ecc} :
    exec (.walkTableRead cell slot ecc) s = execWalkTableRead cell slot ecc s := rfl
@[simp] theorem exec_tornReread (s : State) {cell} {slot} :
    exec (.tornReread cell slot) s = execTornReread cell slot s := rfl
@[simp] theorem exec_stage2Answer (s : State) {cell} {slot} {maps} :
    exec (.stage2Answer cell slot maps) s = execStage2Answer cell slot maps s := rfl
@[simp] theorem exec_stage2Timeout (s : State) {cell} {slot} :
    exec (.stage2Timeout cell slot) s = execStage2Timeout cell slot s := rfl
@[simp] theorem exec_tlbInvalidateAck (s : State) {cell} {slot} :
    exec (.tlbInvalidateAck cell slot) s = execTlbInvalidateAck cell slot s := rfl
@[simp] theorem exec_sectorBeat (s : State) {cluster} {sector} :
    exec (.sectorBeat cluster sector) s = execSectorBeat cluster sector s := rfl
@[simp] theorem exec_sectorInstall (s : State) {cluster} {sector} :
    exec (.sectorInstall cluster sector) s = execSectorInstall cluster sector s := rfl
@[simp] theorem exec_porchWritebackSend (s : State) {cluster} :
    exec (.porchWritebackSend cluster) s = execPorchWritebackSend cluster s := rfl
@[simp] theorem exec_pantryCopyDone (s : State) {cluster} {pair} :
    exec (.pantryCopyDone cluster pair) s = execPantryCopyDone cluster pair s := rfl
@[simp] theorem exec_pantryWritebackDone (s : State) {cluster} {pair} :
    exec (.pantryWritebackDone cluster pair) s = execPantryWritebackDone cluster pair s := rfl
@[simp] theorem exec_rdS (s : State) {home} {agent} {sector} {ecc} :
    exec (.rdS home agent sector ecc) s = execRdS home agent sector ecc s := rfl
@[simp] theorem exec_rdX (s : State) {home} {agent} {sector} {ecc} :
    exec (.rdX home agent sector ecc) s = execRdX home agent sector ecc s := rfl
@[simp] theorem exec_upg (s : State) {home} {agent} {sector} :
    exec (.upg home agent sector) s = execUpg home agent sector s := rfl
@[simp] theorem exec_zeroX (s : State) {home} {agent} {sector} :
    exec (.zeroX home agent sector) s = execZeroX home agent sector s := rfl
@[simp] theorem exec_hop (s : State) {home} {agent} {word} {op} :
    exec (.hop home agent word op) s = execHop home agent word op s := rfl
@[simp] theorem exec_wb (s : State) {home} {agent} {block} {sectors} :
    exec (.wb home agent block sectors) s = execWb home agent block sectors s := rfl
@[simp] theorem exec_prbS (s : State) {agent} {sector} :
    exec (.prbS agent sector) s = execPrbS agent sector s := rfl
@[simp] theorem exec_prbI (s : State) {agent} {sector} :
    exec (.prbI agent sector) s = execPrbI agent sector s := rfl
@[simp] theorem exec_prbF (s : State) {agent} {sector} {target} :
    exec (.prbF agent sector target) s = execPrbF agent sector target s := rfl
@[simp] theorem exec_dataS (s : State) {agent} {sector} {data} :
    exec (.dataS agent sector data) s = execDataS agent sector data s := rfl
@[simp] theorem exec_dataX (s : State) {agent} {sector} {data} :
    exec (.dataX agent sector data) s = execDataX agent sector data s := rfl
@[simp] theorem exec_grantX (s : State) {agent} {sector} :
    exec (.grantX agent sector) s = execGrantX agent sector s := rfl
@[simp] theorem exec_retry (s : State) {agent} {sector} :
    exec (.retry agent sector) s = execRetry agent sector s := rfl
@[simp] theorem exec_requestReissue (s : State) {agent} {sector} :
    exec (.requestReissue agent sector) s = execRequestReissue agent sector s := rfl
@[simp] theorem exec_prbRsp (s : State) {home} {agent} {sector} {answer} :
    exec (.prbRsp home agent sector answer) s = execPrbRsp home agent sector answer s := rfl
@[simp] theorem exec_done (s : State) {home} {agent} {sector} :
    exec (.done home agent sector) s = execDone home agent sector s := rfl
@[simp] theorem exec_wbAck (s : State) {agent} {block} :
    exec (.wbAck agent block) s = execWbAck agent block s := rfl
@[simp] theorem exec_hopAck (s : State) {agent} {word} {op} {result} {ok} :
    exec (.hopAck agent word op result ok) s = execHopAck agent word op result ok s := rfl
@[simp] theorem exec_reservationHoldEnd (s : State) {cell} {slot} :
    exec (.reservationHoldEnd cell slot) s = execReservationHoldEnd cell slot s := rfl
@[simp] theorem exec_coherenceHeartbeat (s : State) {home} {whose} :
    exec (.coherenceHeartbeat home whose) s = execCoherenceHeartbeat home whose s := rfl
@[simp] theorem exec_deadAgentDetect (s : State) {home} {whose} :
    exec (.deadAgentDetect home whose) s = execDeadAgentDetect home whose s := rfl
@[simp] theorem exec_deadAgentNotice (s : State) {home} {agent} :
    exec (.deadAgentNotice home agent) s = execDeadAgentNotice home agent s := rfl
@[simp] theorem exec_ill (s : State) {iss} {w} :
    exec (.ill iss w) s = execIll iss w s := rfl
@[simp] theorem exec_add (s : State) {iss} {f} :
    exec (.add iss f) s = execAdd iss f s := rfl
@[simp] theorem exec_sub (s : State) {iss} {f} :
    exec (.sub iss f) s = execSub iss f s := rfl
@[simp] theorem exec_and (s : State) {iss} {f} :
    exec (.and iss f) s = execAnd iss f s := rfl
@[simp] theorem exec_or (s : State) {iss} {f} :
    exec (.or iss f) s = execOr iss f s := rfl
@[simp] theorem exec_xor (s : State) {iss} {f} :
    exec (.xor iss f) s = execXor iss f s := rfl
@[simp] theorem exec_andn (s : State) {iss} {x} :
    exec (.andn iss x) s = execAndn iss x s := rfl
@[simp] theorem exec_min (s : State) {iss} {f} :
    exec (.min iss f) s = execMin iss f s := rfl
@[simp] theorem exec_max (s : State) {iss} {f} :
    exec (.max iss f) s = execMax iss f s := rfl
@[simp] theorem exec_shl (s : State) {iss} {x} :
    exec (.shl iss x) s = execShl iss x s := rfl
@[simp] theorem exec_shr (s : State) {iss} {x} :
    exec (.shr iss x) s = execShr iss x s := rfl
@[simp] theorem exec_sar (s : State) {iss} {x} :
    exec (.sar iss x) s = execSar iss x s := rfl
@[simp] theorem exec_rol (s : State) {iss} {x} :
    exec (.rol iss x) s = execRol iss x s := rfl
@[simp] theorem exec_rot (s : State) {iss} {x} :
    exec (.rot iss x) s = execRot iss x s := rfl
@[simp] theorem exec_clz (s : State) {iss} {x} :
    exec (.clz iss x) s = execClz iss x s := rfl
@[simp] theorem exec_ctz (s : State) {iss} {x} :
    exec (.ctz iss x) s = execCtz iss x s := rfl
@[simp] theorem exec_popc (s : State) {iss} {x} :
    exec (.popc iss x) s = execPopc iss x s := rfl
@[simp] theorem exec_mul (s : State) {iss} {x} :
    exec (.mul iss x) s = execMul iss x s := rfl
@[simp] theorem exec_mulh (s : State) {iss} {x} :
    exec (.mulh iss x) s = execMulh iss x s := rfl
@[simp] theorem exec_mulhu (s : State) {iss} {x} :
    exec (.mulhu iss x) s = execMulhu iss x s := rfl
@[simp] theorem exec_div (s : State) {iss} {x} :
    exec (.div iss x) s = execDiv iss x s := rfl
@[simp] theorem exec_divu (s : State) {iss} {x} :
    exec (.divu iss x) s = execDivu iss x s := rfl
@[simp] theorem exec_rem (s : State) {iss} {x} :
    exec (.rem iss x) s = execRem iss x s := rfl
@[simp] theorem exec_remu (s : State) {iss} {x} :
    exec (.remu iss x) s = execRemu iss x s := rfl
@[simp] theorem exec_eq (s : State) {iss} {f} :
    exec (.eq iss f) s = execEq iss f s := rfl
@[simp] theorem exec_ne (s : State) {iss} {x} :
    exec (.ne iss x) s = execNe iss x s := rfl
@[simp] theorem exec_lt (s : State) {iss} {f} :
    exec (.lt iss f) s = execLt iss f s := rfl
@[simp] theorem exec_le (s : State) {iss} {x} :
    exec (.le iss x) s = execLe iss x s := rfl
@[simp] theorem exec_ltu (s : State) {iss} {f} :
    exec (.ltu iss f) s = execLtu iss f s := rfl
@[simp] theorem exec_leu (s : State) {iss} {x} :
    exec (.leu iss x) s = execLeu iss x s := rfl
@[simp] theorem exec_li (s : State) {iss} {x} :
    exec (.li iss x) s = execLi iss x s := rfl
@[simp] theorem exec_mov (s : State) {iss} {f} :
    exec (.mov iss f) s = execMov iss f s := rfl
@[simp] theorem exec_sel (s : State) {iss} {x} :
    exec (.sel iss x) s = execSel iss x s := rfl
@[simp] theorem exec_self (s : State) {iss} {f} :
    exec (.self iss f) s = execSelf iss f s := rfl
@[simp] theorem exec_iter (s : State) {iss} {f} :
    exec (.iter iss f) s = execIter iss f s := rfl
@[simp] theorem exec_tagof (s : State) {iss} {f} :
    exec (.tagof iss f) s = execTagof iss f s := rfl
@[simp] theorem exec_ttest (s : State) {iss} {x} :
    exec (.ttest iss x) s = execTtest iss x s := rfl
@[simp] theorem exec_retag (s : State) {iss} {x} :
    exec (.retag iss x) s = execRetag iss x s := rfl
@[simp] theorem exec_faddS (s : State) {iss} {x} :
    exec (.faddS iss x) s = execFaddS iss x s := rfl
@[simp] theorem exec_fsubS (s : State) {iss} {x} :
    exec (.fsubS iss x) s = execFsubS iss x s := rfl
@[simp] theorem exec_fmulS (s : State) {iss} {x} :
    exec (.fmulS iss x) s = execFmulS iss x s := rfl
@[simp] theorem exec_fmaS (s : State) {iss} {x} :
    exec (.fmaS iss x) s = execFmaS iss x s := rfl
@[simp] theorem exec_fdivS (s : State) {iss} {x} :
    exec (.fdivS iss x) s = execFdivS iss x s := rfl
@[simp] theorem exec_fsqrtS (s : State) {iss} {x} :
    exec (.fsqrtS iss x) s = execFsqrtS iss x s := rfl
@[simp] theorem exec_fminS (s : State) {iss} {x} :
    exec (.fminS iss x) s = execFminS iss x s := rfl
@[simp] theorem exec_fmaxS (s : State) {iss} {x} :
    exec (.fmaxS iss x) s = execFmaxS iss x s := rfl
@[simp] theorem exec_faddD (s : State) {iss} {x} :
    exec (.faddD iss x) s = execFaddD iss x s := rfl
@[simp] theorem exec_fsubD (s : State) {iss} {x} :
    exec (.fsubD iss x) s = execFsubD iss x s := rfl
@[simp] theorem exec_fmulD (s : State) {iss} {x} :
    exec (.fmulD iss x) s = execFmulD iss x s := rfl
@[simp] theorem exec_fmaD (s : State) {iss} {x} :
    exec (.fmaD iss x) s = execFmaD iss x s := rfl
@[simp] theorem exec_fdivD (s : State) {iss} {x} :
    exec (.fdivD iss x) s = execFdivD iss x s := rfl
@[simp] theorem exec_fsqrtD (s : State) {iss} {x} :
    exec (.fsqrtD iss x) s = execFsqrtD iss x s := rfl
@[simp] theorem exec_fminD (s : State) {iss} {x} :
    exec (.fminD iss x) s = execFminD iss x s := rfl
@[simp] theorem exec_fmaxD (s : State) {iss} {x} :
    exec (.fmaxD iss x) s = execFmaxD iss x s := rfl
@[simp] theorem exec_feqS (s : State) {iss} {x} :
    exec (.feqS iss x) s = execFeqS iss x s := rfl
@[simp] theorem exec_fltS (s : State) {iss} {x} :
    exec (.fltS iss x) s = execFltS iss x s := rfl
@[simp] theorem exec_fleS (s : State) {iss} {x} :
    exec (.fleS iss x) s = execFleS iss x s := rfl
@[simp] theorem exec_funS (s : State) {iss} {x} :
    exec (.funS iss x) s = execFunS iss x s := rfl
@[simp] theorem exec_feqD (s : State) {iss} {x} :
    exec (.feqD iss x) s = execFeqD iss x s := rfl
@[simp] theorem exec_fltD (s : State) {iss} {x} :
    exec (.fltD iss x) s = execFltD iss x s := rfl
@[simp] theorem exec_fleD (s : State) {iss} {x} :
    exec (.fleD iss x) s = execFleD iss x s := rfl
@[simp] theorem exec_funD (s : State) {iss} {x} :
    exec (.funD iss x) s = execFunD iss x s := rfl
@[simp] theorem exec_cvtSI (s : State) {iss} {x} :
    exec (.cvtSI iss x) s = execCvtSI iss x s := rfl
@[simp] theorem exec_cvtIS (s : State) {iss} {x} :
    exec (.cvtIS iss x) s = execCvtIS iss x s := rfl
@[simp] theorem exec_cvtDI (s : State) {iss} {x} :
    exec (.cvtDI iss x) s = execCvtDI iss x s := rfl
@[simp] theorem exec_cvtID (s : State) {iss} {x} :
    exec (.cvtID iss x) s = execCvtID iss x s := rfl
@[simp] theorem exec_cvtSD (s : State) {iss} {x} :
    exec (.cvtSD iss x) s = execCvtSD iss x s := rfl
@[simp] theorem exec_cvtDS (s : State) {iss} {x} :
    exec (.cvtDS iss x) s = execCvtDS iss x s := rfl
@[simp] theorem exec_fclassS (s : State) {iss} {x} :
    exec (.fclassS iss x) s = execFclassS iss x s := rfl
@[simp] theorem exec_fclassD (s : State) {iss} {x} :
    exec (.fclassD iss x) s = execFclassD iss x s := rfl
@[simp] theorem exec_b (s : State) {iss} {x} :
    exec (.b iss x) s = execB iss x s := rfl
@[simp] theorem exec_bz (s : State) {iss} {x} :
    exec (.bz iss x) s = execBz iss x s := rfl
@[simp] theorem exec_bnz (s : State) {iss} {x} :
    exec (.bnz iss x) s = execBnz iss x s := rfl
@[simp] theorem exec_jr (s : State) {iss} {x} :
    exec (.jr iss x) s = execJr iss x s := rfl
@[simp] theorem exec_endStrand (s : State) {iss} {f} :
    exec (.endStrand iss f) s = execEndStrand iss f s := rfl
@[simp] theorem exec_send (s : State) {iss} {x} :
    exec (.send iss x) s = execSend iss x s := rfl
@[simp] theorem exec_sendE (s : State) {iss} {x} :
    exec (.sendE iss x) s = execSendE iss x s := rfl
@[simp] theorem exec_switch (s : State) {iss} {x} :
    exec (.switch iss x) s = execSwitch iss x s := rfl
@[simp] theorem exec_switchE (s : State) {iss} {x} :
    exec (.switchE iss x) s = execSwitchE iss x s := rfl
@[simp] theorem exec_sendx (s : State) {iss} {x} :
    exec (.sendx iss x) s = execSendx iss x s := rfl
@[simp] theorem exec_sendxE (s : State) {iss} {x} :
    exec (.sendxE iss x) s = execSendxE iss x s := rfl
@[simp] theorem exec_alloc (s : State) {iss} {x} :
    exec (.alloc iss x) s = execAlloc iss x s := rfl
@[simp] theorem exec_allocK (s : State) {iss} {x} :
    exec (.allocK iss x) s = execAllocK iss x s := rfl
@[simp] theorem exec_allocX (s : State) {iss} {x} :
    exec (.allocX iss x) s = execAllocX iss x s := rfl
@[simp] theorem exec_allocXK (s : State) {iss} {x} :
    exec (.allocXK iss x) s = execAllocXK iss x s := rfl
@[simp] theorem exec_free (s : State) {iss} {x} :
    exec (.free iss x) s = execFree iss x s := rfl
@[simp] theorem exec_ld (s : State) {iss} {x} :
    exec (.ld iss x) s = execLd iss x s := rfl
@[simp] theorem exec_ldb (s : State) {iss} {x} :
    exec (.ldb iss x) s = execLdb iss x s := rfl
@[simp] theorem exec_ldbu (s : State) {iss} {x} :
    exec (.ldbu iss x) s = execLdbu iss x s := rfl
@[simp] theorem exec_ldh (s : State) {iss} {x} :
    exec (.ldh iss x) s = execLdh iss x s := rfl
@[simp] theorem exec_ldhu (s : State) {iss} {x} :
    exec (.ldhu iss x) s = execLdhu iss x s := rfl
@[simp] theorem exec_ldx (s : State) {iss} {x} :
    exec (.ldx iss x) s = execLdx iss x s := rfl
@[simp] theorem exec_lds (s : State) {iss} {f} :
    exec (.lds iss f) s = execLds iss f s := rfl
@[simp] theorem exec_st (s : State) {iss} {x} :
    exec (.st iss x) s = execSt iss x s := rfl
@[simp] theorem exec_stb (s : State) {iss} {x} :
    exec (.stb iss x) s = execStb iss x s := rfl
@[simp] theorem exec_sth (s : State) {iss} {x} :
    exec (.sth iss x) s = execSth iss x s := rfl
@[simp] theorem exec_stx (s : State) {iss} {x} :
    exec (.stx iss x) s = execStx iss x s := rfl
@[simp] theorem exec_sts (s : State) {iss} {f} :
    exec (.sts iss f) s = execSts iss f s := rfl
@[simp] theorem exec_ldp (s : State) {iss} {x} :
    exec (.ldp iss x) s = execLdp iss x s := rfl
@[simp] theorem exec_ifetch (s : State) {iss} {x} :
    exec (.ifetch iss x) s = execIfetch iss x s := rfl
@[simp] theorem exec_istore (s : State) {iss} {x} :
    exec (.istore iss x) s = execIstore iss x s := rfl
@[simp] theorem exec_iclear (s : State) {iss} {x} :
    exec (.iclear iss x) s = execIclear iss x s := rfl
@[simp] theorem exec_loadr (s : State) {iss} {x} :
    exec (.loadr iss x) s = execLoadr iss x s := rfl
@[simp] theorem exec_storec (s : State) {iss} {x} :
    exec (.storec iss x) s = execStorec iss x s := rfl
@[simp] theorem exec_fence (s : State) {iss} {x} :
    exec (.fence iss x) s = execFence iss x s := rfl
@[simp] theorem exec_fenceLL (s : State) {iss} {x} :
    exec (.fenceLL iss x) s = execFenceLL iss x s := rfl
@[simp] theorem exec_fenceLS (s : State) {iss} {x} :
    exec (.fenceLS iss x) s = execFenceLS iss x s := rfl
@[simp] theorem exec_fenceSL (s : State) {iss} {x} :
    exec (.fenceSL iss x) s = execFenceSL iss x s := rfl
@[simp] theorem exec_fenceSS (s : State) {iss} {x} :
    exec (.fenceSS iss x) s = execFenceSS iss x s := rfl
@[simp] theorem exec_ifence (s : State) {iss} {x} :
    exec (.ifence iss x) s = execIfence iss x s := rfl
@[simp] theorem exec_workget (s : State) {iss} {x} :
    exec (.workget iss x) s = execWorkget iss x s := rfl
@[simp] theorem exec_flcommit (s : State) {iss} {x} :
    exec (.flcommit iss x) s = execFlcommit iss x s := rfl
@[simp] theorem exec_fldone (s : State) {iss} {x} :
    exec (.fldone iss x) s = execFldone iss x s := rfl
@[simp] theorem exec_winset (s : State) {iss} {x} :
    exec (.winset iss x) s = execWinset iss x s := rfl
@[simp] theorem exec_iretire (s : State) {iss} {x} :
    exec (.iretire iss x) s = execIretire iss x s := rfl
@[simp] theorem exec_agree (s : State) {iss} {x} :
    exec (.agree iss x) s = execAgree iss x s := rfl
@[simp] theorem exec_rdtime (s : State) {iss} {x} :
    exec (.rdtime iss x) s = execRdtime iss x s := rfl
@[simp] theorem exec_esubmit (s : State) {iss} {x} :
    exec (.esubmit iss x) s = execEsubmit iss x s := rfl
@[simp] theorem exec_lcommit (s : State) {iss} {x} :
    exec (.lcommit iss x) s = execLcommit iss x s := rfl
@[simp] theorem exec_svc (s : State) {iss} {x} :
    exec (.svc iss x) s = execSvc iss x s := rfl
@[simp] theorem exec_rdsr (s : State) {iss} {x} :
    exec (.rdsr iss x) s = execRdsr iss x s := rfl
@[simp] theorem exec_wrsr (s : State) {iss} {x} :
    exec (.wrsr iss x) s = execWrsr iss x s := rfl
@[simp] theorem exec_eret (s : State) {iss} {x} :
    exec (.eret iss x) s = execEret iss x s := rfl
@[simp] theorem exec_cstart (s : State) {iss} {x} :
    exec (.cstart iss x) s = execCstart iss x s := rfl
@[simp] theorem exec_mbxSend (s : State) {iss} {x} :
    exec (.mbxSend iss x) s = execMbxSend iss x s := rfl
@[simp] theorem exec_mbxPoll (s : State) {iss} {x} :
    exec (.mbxPoll iss x) s = execMbxPoll iss x s := rfl
@[simp] theorem exec_tlbiVa (s : State) {iss} {x} :
    exec (.tlbiVa iss x) s = execTlbiVa iss x s := rfl
@[simp] theorem exec_tlbiSid (s : State) {iss} {x} :
    exec (.tlbiSid iss x) s = execTlbiSid iss x s := rfl
@[simp] theorem exec_tlbiPart (s : State) {iss} {x} :
    exec (.tlbiPart iss x) s = execTlbiPart iss x s := rfl
@[simp] theorem exec_cmaintClean (s : State) {iss} {x} :
    exec (.cmaintClean iss x) s = execCmaintClean iss x s := rfl
@[simp] theorem exec_cmaintFlush (s : State) {iss} {x} :
    exec (.cmaintFlush iss x) s = execCmaintFlush iss x s := rfl
@[simp] theorem exec_cmaintZero (s : State) {iss} {x} :
    exec (.cmaintZero iss x) s = execCmaintZero iss x s := rfl
@[simp] theorem exec_cmaintPrefetch (s : State) {iss} {x} :
    exec (.cmaintPrefetch iss x) s = execCmaintPrefetch iss x s := rfl
@[simp] theorem exec_nop (s : State) {iss} {p} :
    exec (.nop iss p) s = execNop iss p s := rfl
@[simp] theorem exec_not (s : State) {iss} {p} :
    exec (.not iss p) s = execNot iss p s := rfl
@[simp] theorem exec_neg (s : State) {iss} {p} :
    exec (.neg iss p) s = execNeg iss p s := rfl
@[simp] theorem exec_addi (s : State) {iss} {p} :
    exec (.addi iss p) s = execAddi iss p s := rfl
@[simp] theorem exec_li5 (s : State) {iss} {p} :
    exec (.li5 iss p) s = execLi5 iss p s := rfl
@[simp] theorem exec_shli (s : State) {iss} {p} :
    exec (.shli iss p) s = execShli iss p s := rfl
@[simp] theorem exec_shri (s : State) {iss} {p} :
    exec (.shri iss p) s = execShri iss p s := rfl
@[simp] theorem exec_sari (s : State) {iss} {p} :
    exec (.sari iss p) s = execSari iss p s := rfl
@[simp] theorem exec_eqi (s : State) {iss} {p} :
    exec (.eqi iss p) s = execEqi iss p s := rfl
@[simp] theorem exec_zxb (s : State) {iss} {p} :
    exec (.zxb iss p) s = execZxb iss p s := rfl
@[simp] theorem exec_zxh (s : State) {iss} {p} :
    exec (.zxh iss p) s = execZxh iss p s := rfl
@[simp] theorem exec_andi (s : State) {iss} {p} :
    exec (.andi iss p) s = execAndi iss p s := rfl
@[simp] theorem exec_readOrder (s : State) {port} {sub} :
    exec (.readOrder port sub) s = execReadOrder port sub s := rfl
@[simp] theorem exec_readStreamOrder (s : State) {port} {sub} :
    exec (.readStreamOrder port sub) s = execReadStreamOrder port sub s := rfl
@[simp] theorem exec_writeOrder (s : State) {port} {sub} :
    exec (.writeOrder port sub) s = execWriteOrder port sub s := rfl
@[simp] theorem exec_senseOrder (s : State) {port} {sub} :
    exec (.senseOrder port sub) s = execSenseOrder port sub s := rfl
@[simp] theorem exec_controlOrder (s : State) {port} {sub} :
    exec (.controlOrder port sub) s = execControlOrder port sub s := rfl
@[simp] theorem exec_jumpOrder (s : State) {port} {sub} :
    exec (.jumpOrder port sub) s = execJumpOrder port sub s := rfl
@[simp] theorem exec_waitEventOrder (s : State) {port} {sub} {signalled} :
    exec (.waitEventOrder port sub signalled) s = execWaitEventOrder port sub signalled s := rfl
@[simp] theorem exec_programEnd (s : State) {port} {sub} :
    exec (.programEnd port sub) s = execProgramEnd port sub s := rfl
@[simp] theorem exec_data (s : State) {port} {f} :
    exec (.data port f) s = execData port f s := rfl
@[simp] theorem exec_ack (s : State) {port} {f} :
    exec (.ack port f) s = execAck port f s := rfl
@[simp] theorem exec_e2eAck (s : State) {port} {f} :
    exec (.e2eAck port f) s = execE2eAck port f s := rfl
@[simp] theorem exec_req (s : State) {port} {f} :
    exec (.req port f) s = execReq port f s := rfl
@[simp] theorem exec_query (s : State) {port} {f} :
    exec (.query port f) s = execQuery port f s := rfl
@[simp] theorem exec_answer (s : State) {port} {f} :
    exec (.answer port f) s = execAnswer port f s := rfl
@[simp] theorem exec_abort (s : State) {port} {f} :
    exec (.abort port f) s = execAbort port f s := rfl
@[simp] theorem exec_credit (s : State) {port} {f} :
    exec (.credit port f) s = execCredit port f s := rfl
@[simp] theorem exec_flowpause (s : State) {port} {f} :
    exec (.flowpause port f) s = execFlowpause port f s := rfl
@[simp] theorem exec_hello (s : State) {port} {f} :
    exec (.hello port f) s = execHello port f s := rfl
@[simp] theorem exec_resolve (s : State) {port} {f} :
    exec (.resolve port f) s = execResolve port f s := rfl
@[simp] theorem exec_reservedTypeFrame (s : State) {port} {type} {f} :
    exec (.reservedTypeFrame port type f) s = execReservedTypeFrame port type f s := rfl
@[simp] theorem exec_linkAckTimer (s : State) {port} :
    exec (.linkAckTimer port) s = execLinkAckTimer port s := rfl
@[simp] theorem exec_retransmissionTimeout (s : State) {port} :
    exec (.retransmissionTimeout port) s = execRetransmissionTimeout port s := rfl
@[simp] theorem exec_pcsLock (s : State) {port} :
    exec (.pcsLock port) s = execPcsLock port s := rfl
@[simp] theorem exec_pcsLockLoss (s : State) {port} :
    exec (.pcsLockLoss port) s = execPcsLockLoss port s := rfl
@[simp] theorem exec_helloResend (s : State) {port} :
    exec (.helloResend port) s = execHelloResend port s := rfl
@[simp] theorem exec_helloTimeout (s : State) {port} :
    exec (.helloTimeout port) s = execHelloTimeout port s := rfl
@[simp] theorem exec_creditRepeat (s : State) {port} {lch} :
    exec (.creditRepeat port lch) s = execCreditRepeat port lch s := rfl
@[simp] theorem exec_flowpauseRepeat (s : State) {port} {flow} :
    exec (.flowpauseRepeat port flow) s = execFlowpauseRepeat port flow s := rfl
@[simp] theorem exec_mirrorCopyAck (s : State) {m} :
    exec (.mirrorCopyAck m) s = execMirrorCopyAck m s := rfl
@[simp] theorem exec_cpMismatch (s : State) {port} {side} :
    exec (.cpMismatch port side) s = execCpMismatch port side s := rfl
@[simp] theorem exec_switchOverDone (s : State) {port} :
    exec (.switchOverDone port) s = execSwitchOverDone port s := rfl
@[simp] theorem exec_cpSelfTestDone (s : State) {port} {pass} :
    exec (.cpSelfTestDone port pass) s = execCpSelfTestDone port pass s := rfl
@[simp] theorem exec_engineDispatch (s : State) {cls} {engine} :
    exec (.engineDispatch cls engine) s = execEngineDispatch cls engine s := rfl
@[simp] theorem exec_engineComplete (s : State) {cls} {engine} :
    exec (.engineComplete cls engine) s = execEngineComplete cls engine s := rfl
@[simp] theorem exec_compress (s : State) {engine} :
    exec (.compress engine) s = execCompress engine s := rfl
@[simp] theorem exec_decompress (s : State) {engine} :
    exec (.decompress engine) s = execDecompress engine s := rfl
@[simp] theorem exec_gcmEncrypt (s : State) {engine} :
    exec (.gcmEncrypt engine) s = execGcmEncrypt engine s := rfl
@[simp] theorem exec_gcmDecrypt (s : State) {engine} :
    exec (.gcmDecrypt engine) s = execGcmDecrypt engine s := rfl
@[simp] theorem exec_xtsEncrypt (s : State) {engine} :
    exec (.xtsEncrypt engine) s = execXtsEncrypt engine s := rfl
@[simp] theorem exec_xtsDecrypt (s : State) {engine} :
    exec (.xtsDecrypt engine) s = execXtsDecrypt engine s := rfl
@[simp] theorem exec_ctr (s : State) {engine} :
    exec (.ctr engine) s = execCtr engine s := rfl
@[simp] theorem exec_sha256 (s : State) {engine} :
    exec (.sha256 engine) s = execSha256 engine s := rfl
@[simp] theorem exec_sha384 (s : State) {engine} :
    exec (.sha384 engine) s = execSha384 engine s := rfl
@[simp] theorem exec_sha3_256 (s : State) {engine} :
    exec (.sha3_256 engine) s = execSha3_256 engine s := rfl
@[simp] theorem exec_hmacSha256 (s : State) {engine} :
    exec (.hmacSha256 engine) s = execHmacSha256 engine s := rfl
@[simp] theorem exec_hmacSha384 (s : State) {engine} :
    exec (.hmacSha384 engine) s = execHmacSha384 engine s := rfl
@[simp] theorem exec_signP256 (s : State) {engine} :
    exec (.signP256 engine) s = execSignP256 engine s := rfl
@[simp] theorem exec_signP384 (s : State) {engine} :
    exec (.signP384 engine) s = execSignP384 engine s := rfl
@[simp] theorem exec_verifyP256 (s : State) {engine} :
    exec (.verifyP256 engine) s = execVerifyP256 engine s := rfl
@[simp] theorem exec_verifyP384 (s : State) {engine} :
    exec (.verifyP384 engine) s = execVerifyP384 engine s := rfl
@[simp] theorem exec_random (s : State) {engine} :
    exec (.random engine) s = execRandom engine s := rfl
@[simp] theorem exec_keygen (s : State) {engine} :
    exec (.keygen engine) s = execKeygen engine s := rfl
@[simp] theorem exec_keyimport (s : State) {engine} :
    exec (.keyimport engine) s = execKeyimport engine s := rfl
@[simp] theorem exec_keyexport (s : State) {engine} :
    exec (.keyexport engine) s = execKeyexport engine s := rfl
@[simp] theorem exec_keydestroy (s : State) {engine} :
    exec (.keydestroy engine) s = execKeydestroy engine s := rfl
@[simp] theorem exec_pubkey (s : State) {engine} :
    exec (.pubkey engine) s = execPubkey engine s := rfl
@[simp] theorem exec_drbgReseed (s : State) :
    exec (.drbgReseed) s = execDrbgReseed s := rfl
@[simp] theorem exec_entropyHealthFail (s : State) :
    exec (.entropyHealthFail) s = execEntropyHealthFail s := rfl
@[simp] theorem exec_entropyRecovery (s : State) :
    exec (.entropyRecovery) s = execEntropyRecovery s := rfl
@[simp] theorem exec_spareResume (s : State) {cell} {bad} :
    exec (.spareResume cell bad) s = execSpareResume cell bad s := rfl
@[simp] theorem exec_twinDigest (s : State) {cell} {slot} {lead} {shadow} :
    exec (.twinDigest cell slot lead shadow) s = execTwinDigest cell slot lead shadow s := rfl
@[simp] theorem exec_twinTimeout (s : State) {cell} {slot} :
    exec (.twinTimeout cell slot) s = execTwinTimeout cell slot s := rfl
@[simp] theorem exec_twinSelfTestDone (s : State) {cell} {slot} {leadPass} {shadowPass} :
    exec (.twinSelfTestDone cell slot leadPass shadowPass) s = execTwinSelfTestDone cell slot leadPass shadowPass s := rfl
@[simp] theorem exec_faultSample (s : State) {rails} :
    exec (.faultSample rails) s = execFaultSample rails s := rfl
@[simp] theorem exec_wireFault (s : State) {source} :
    exec (.wireFault source) s = execWireFault source s := rfl
@[simp] theorem exec_wireFaultClear (s : State) {source} :
    exec (.wireFaultClear source) s = execWireFaultClear source s := rfl
@[simp] theorem exec_faultWindowEnd (s : State) {source} :
    exec (.faultWindowEnd source) s = execFaultWindowEnd source s := rfl
@[simp] theorem exec_recordLogged (s : State) {recno} :
    exec (.recordLogged recno) s = execRecordLogged recno s := rfl
@[simp] theorem exec_stormIntervalEnd (s : State) {source} :
    exec (.stormIntervalEnd source) s = execStormIntervalEnd source s := rfl
@[simp] theorem exec_aliveToggle (s : State) :
    exec (.aliveToggle) s = execAliveToggle s := rfl
@[simp] theorem exec_watchdogFeedBenus (s : State) :
    exec (.watchdogFeedBenus) s = execWatchdogFeedBenus s := rfl
@[simp] theorem exec_watchdogFeedCollector (s : State) :
    exec (.watchdogFeedCollector) s = execWatchdogFeedCollector s := rfl
@[simp] theorem exec_aliveFeedMissing (s : State) {benus} :
    exec (.aliveFeedMissing benus) s = execAliveFeedMissing benus s := rfl
@[simp] theorem exec_benusRestart (s : State) {startFails} :
    exec (.benusRestart startFails) s = execBenusRestart startFails s := rfl
@[simp] theorem exec_benusLockstepMismatch (s : State) :
    exec (.benusLockstepMismatch) s = execBenusLockstepMismatch s := rfl
@[simp] theorem exec_mbxDoorbell (s : State) {m} {t} {irqEn} {request} :
    exec (.mbxDoorbell m t irqEn request) s = execMbxDoorbell m t irqEn request s := rfl
@[simp] theorem exec_mbxCancel (s : State) {m} {t} {irqEn} {tag} :
    exec (.mbxCancel m t irqEn tag) s = execMbxCancel m t irqEn tag s := rfl
@[simp] theorem exec_mgtRequest (s : State) {session} {request} :
    exec (.mgtRequest session request) s = execMgtRequest session request s := rfl
@[simp] theorem exec_svcRequest (s : State) {m} {request} :
    exec (.svcRequest m request) s = execSvcRequest m request s := rfl
@[simp] theorem exec_tlsSessionOpen (s : State) {session} {fingerprint} :
    exec (.tlsSessionOpen session fingerprint) s = execTlsSessionOpen session fingerprint s := rfl
@[simp] theorem exec_tlsIdleTimeout (s : State) {session} :
    exec (.tlsIdleTimeout session) s = execTlsIdleTimeout session s := rfl
@[simp] theorem exec_commandStart (s : State) {m} :
    exec (.commandStart m) s = execCommandStart m s := rfl
@[simp] theorem exec_modIdentity (s : State) {m} :
    exec (.modIdentity m) s = execModIdentity m s := rfl
@[simp] theorem exec_sensorRead (s : State) {m} :
    exec (.sensorRead m) s = execSensorRead m s := rfl
@[simp] theorem exec_logRead (s : State) {m} :
    exec (.logRead m) s = execLogRead m s := rfl
@[simp] theorem exec_ledgerStatus (s : State) {m} :
    exec (.ledgerStatus m) s = execLedgerStatus m s := rfl
@[simp] theorem exec_timeGet (s : State) {m} :
    exec (.timeGet m) s = execTimeGet m s := rfl
@[simp] theorem exec_memTelemetry (s : State) {m} :
    exec (.memTelemetry m) s = execMemTelemetry m s := rfl
@[simp] theorem exec_fwStatus (s : State) {m} :
    exec (.fwStatus m) s = execFwStatus m s := rfl
@[simp] theorem exec_partCreate (s : State) {m} :
    exec (.partCreate m) s = execPartCreate m s := rfl
@[simp] theorem exec_partQuiesce (s : State) {m} :
    exec (.partQuiesce m) s = execPartQuiesce m s := rfl
@[simp] theorem exec_partDestroy (s : State) {m} :
    exec (.partDestroy m) s = execPartDestroy m s := rfl
@[simp] theorem exec_partCellarSet (s : State) {m} :
    exec (.partCellarSet m) s = execPartCellarSet m s := rfl
@[simp] theorem exec_partVectorSet (s : State) {m} :
    exec (.partVectorSet m) s = execPartVectorSet m s := rfl
@[simp] theorem exec_partEventSet (s : State) {m} :
    exec (.partEventSet m) s = execPartEventSet m s := rfl
@[simp] theorem exec_spaceBind (s : State) {m} :
    exec (.spaceBind m) s = execSpaceBind m s := rfl
@[simp] theorem exec_spaceUnbind (s : State) {m} :
    exec (.spaceUnbind m) s = execSpaceUnbind m s := rfl
@[simp] theorem exec_cacheWaysSet (s : State) {m} :
    exec (.cacheWaysSet m) s = execCacheWaysSet m s := rfl
@[simp] theorem exec_pantrySet (s : State) {m} :
    exec (.pantrySet m) s = execPantrySet m s := rfl
@[simp] theorem exec_pantryClear (s : State) {m} :
    exec (.pantryClear m) s = execPantryClear m s := rfl
@[simp] theorem exec_placePinSet (s : State) {m} :
    exec (.placePinSet m) s = execPlacePinSet m s := rfl
@[simp] theorem exec_workqSet (s : State) {m} :
    exec (.workqSet m) s = execWorkqSet m s := rfl
@[simp] theorem exec_flowBind (s : State) {m} :
    exec (.flowBind m) s = execFlowBind m s := rfl
@[simp] theorem exec_twinResync (s : State) {m} :
    exec (.twinResync m) s = execTwinResync m s := rfl
@[simp] theorem exec_chanSubSet (s : State) {m} :
    exec (.chanSubSet m) s = execChanSubSet m s := rfl
@[simp] theorem exec_chanPathSet (s : State) {m} :
    exec (.chanPathSet m) s = execChanPathSet m s := rfl
@[simp] theorem exec_engineSliceSet (s : State) {m} :
    exec (.engineSliceSet m) s = execEngineSliceSet m s := rfl
@[simp] theorem exec_engineSliceQuiesce (s : State) {m} :
    exec (.engineSliceQuiesce m) s = execEngineSliceQuiesce m s := rfl
@[simp] theorem exec_engineSliceResume (s : State) {m} :
    exec (.engineSliceResume m) s = execEngineSliceResume m s := rfl
@[simp] theorem exec_engineSliceReset (s : State) {m} :
    exec (.engineSliceReset m) s = execEngineSliceReset m s := rfl
@[simp] theorem exec_ledgerNoticeSet (s : State) {m} :
    exec (.ledgerNoticeSet m) s = execLedgerNoticeSet m s := rfl
@[simp] theorem exec_ledgerQuotaSet (s : State) {m} :
    exec (.ledgerQuotaSet m) s = execLedgerQuotaSet m s := rfl
@[simp] theorem exec_cpSwap (s : State) {m} :
    exec (.cpSwap m) s = execCpSwap m s := rfl
@[simp] theorem exec_faultReactSet (s : State) {m} :
    exec (.faultReactSet m) s = execFaultReactSet m s := rfl
@[simp] theorem exec_faultRecordClose (s : State) {m} :
    exec (.faultRecordClose m) s = execFaultRecordClose m s := rfl
@[simp] theorem exec_faultAliveRearm (s : State) {m} :
    exec (.faultAliveRearm m) s = execFaultAliveRearm m s := rfl
@[simp] theorem exec_timeSet (s : State) {m} :
    exec (.timeSet m) s = execTimeSet m s := rfl
@[simp] theorem exec_fwStage (s : State) {m} :
    exec (.fwStage m) s = execFwStage m s := rfl
@[simp] theorem exec_fwCommit (s : State) {m} :
    exec (.fwCommit m) s = execFwCommit m s := rfl
@[simp] theorem exec_fwConfirm (s : State) {m} :
    exec (.fwConfirm m) s = execFwConfirm m s := rfl
@[simp] theorem exec_fwRevert (s : State) {m} :
    exec (.fwRevert m) s = execFwRevert m s := rfl
@[simp] theorem exec_debugChallenge (s : State) {m} :
    exec (.debugChallenge m) s = execDebugChallenge m s := rfl
@[simp] theorem exec_debugUnlock (s : State) {m} :
    exec (.debugUnlock m) s = execDebugUnlock m s := rfl
@[simp] theorem exec_debugLock (s : State) {m} :
    exec (.debugLock m) s = execDebugLock m s := rfl
@[simp] theorem exec_mbxAssign (s : State) {m} :
    exec (.mbxAssign m) s = execMbxAssign m s := rfl
@[simp] theorem exec_roleSet (s : State) {m} :
    exec (.roleSet m) s = execRoleSet m s := rfl
@[simp] theorem exec_ledgerPair (s : State) {m} :
    exec (.ledgerPair m) s = execLedgerPair m s := rfl
@[simp] theorem exec_modConfigSet (s : State) {m} :
    exec (.modConfigSet m) s = execModConfigSet m s := rfl
@[simp] theorem exec_modReset (s : State) {m} :
    exec (.modReset m) s = execModReset m s := rfl
@[simp] theorem exec_modZeroize (s : State) {m} :
    exec (.modZeroize m) s = execModZeroize m s := rfl
@[simp] theorem exec_bootKeySet (s : State) {m} :
    exec (.bootKeySet m) s = execBootKeySet m s := rfl
@[simp] theorem exec_sensorSample (s : State) {readings} :
    exec (.sensorSample readings) s = execSensorSample readings s := rfl
@[simp] theorem exec_logFlashWrite (s : State) :
    exec (.logFlashWrite) s = execLogFlashWrite s := rfl
@[simp] theorem exec_logForward (s : State) {arrives} :
    exec (.logForward arrives) s = execLogForward arrives s := rfl
@[simp] theorem exec_calendarStore (s : State) :
    exec (.calendarStore) s = execCalendarStore s := rfl
@[simp] theorem exec_fabricLinkTrained (s : State) {port} {corrected} :
    exec (.fabricLinkTrained port corrected) s = execFabricLinkTrained port corrected s := rfl
@[simp] theorem exec_identSend (s : State) {port} :
    exec (.identSend port) s = execIdentSend port s := rfl
@[simp] theorem exec_ident (s : State) {port} {m} :
    exec (.ident port m) s = execIdent port m s := rfl
@[simp] theorem exec_hartDecision (s : State) {group} {epoch} {d} :
    exec (.hartDecision group epoch d) s = execHartDecision group epoch d s := rfl
@[simp] theorem exec_hartHeartbeat (s : State) {acknowledged} :
    exec (.hartHeartbeat acknowledged) s = execHartHeartbeat acknowledged s := rfl
@[simp] theorem exec_hartLeaseEnd (s : State) :
    exec (.hartLeaseEnd) s = execHartLeaseEnd s := rfl
@[simp] theorem exec_standbyTakeover (s : State) :
    exec (.standbyTakeover) s = execStandbyTakeover s := rfl
@[simp] theorem exec_moduleDeadDeclare (s : State) {module} :
    exec (.moduleDeadDeclare module) s = execModuleDeadDeclare module s := rfl
@[simp] theorem exec_linkDelayMeasure (s : State) {port} {offset} :
    exec (.linkDelayMeasure port offset) s = execLinkDelayMeasure port offset s := rfl
@[simp] theorem exec_ptpMessage (s : State) {masterSelected} {offset} {utcOffset} :
    exec (.ptpMessage masterSelected offset utcOffset) s = execPtpMessage masterSelected offset utcOffset s := rfl
@[simp] theorem exec_ppsEdge (s : State) {offset} :
    exec (.ppsEdge offset) s = execPpsEdge offset s := rfl
@[simp] theorem exec_holdoverEntry (s : State) :
    exec (.holdoverEntry) s = execHoldoverEntry s := rfl
@[simp] theorem exec_ppsOutPulse (s : State) :
    exec (.ppsOutPulse) s = execPpsOutPulse s := rfl
@[simp] theorem exec_pmcWrap (s : State) {cell} {n} :
    exec (.pmcWrap cell n) s = execPmcWrap cell n s := rfl
@[simp] theorem exec_pmcDump (s : State) :
    exec (.pmcDump) s = execPmcDump s := rfl
@[simp] theorem exec_debugAuthExpiry (s : State) :
    exec (.debugAuthExpiry) s = execDebugAuthExpiry s := rfl
@[simp] theorem exec_halt (s : State) {q} :
    exec (.halt q) s = execHalt q s := rfl
@[simp] theorem exec_resume (s : State) {q} :
    exec (.resume q) s = execResume q s := rfl
@[simp] theorem exec_step (s : State) {q} :
    exec (.step q) s = execStep q s := rfl
@[simp] theorem exec_breakpoint (s : State) {q} :
    exec (.breakpoint q) s = execBreakpoint q s := rfl
@[simp] theorem exec_tbreak (s : State) {q} :
    exec (.tbreak q) s = execTbreak q s := rfl
@[simp] theorem exec_watch (s : State) {q} :
    exec (.watch q) s = execWatch q s := rfl
@[simp] theorem exec_regrd (s : State) {q} :
    exec (.regrd q) s = execRegrd q s := rfl
@[simp] theorem exec_regwr (s : State) {q} :
    exec (.regwr q) s = execRegwr q s := rfl
@[simp] theorem exec_memrd (s : State) {q} :
    exec (.memrd q) s = execMemrd q s := rfl
@[simp] theorem exec_memwr (s : State) {q} :
    exec (.memwr q) s = execMemwr q s := rfl
@[simp] theorem exec_trace (s : State) {q} :
    exec (.trace q) s = execTrace q s := rfl
@[simp] theorem exec_trcrd (s : State) {q} :
    exec (.trcrd q) s = execTrcrd q s := rfl
@[simp] theorem exec_status (s : State) {q} :
    exec (.status q) s = execStatus q s := rfl
@[simp] theorem exec_extest (s : State) {pins} :
    exec (.extest pins) s = execExtest pins s := rfl
@[simp] theorem exec_idcode (s : State) :
    exec (.idcode) s = execIdcode s := rfl
@[simp] theorem exec_samplePreload (s : State) {pins} :
    exec (.samplePreload pins) s = execSamplePreload pins s := rfl
@[simp] theorem exec_clamp (s : State) :
    exec (.clamp) s = execClamp s := rfl
@[simp] theorem exec_highz (s : State) :
    exec (.highz) s = execHighz s := rfl
@[simp] theorem exec_dbgpkt (s : State) {shifted} :
    exec (.dbgpkt shifted) s = execDbgpkt shifted s := rfl
@[simp] theorem exec_bypass (s : State) {tdi} :
    exec (.bypass tdi) s = execBypass tdi s := rfl
@[simp] theorem exec_evtInChange (s : State) {input} {asserted} :
    exec (.evtInChange input asserted) s = execEvtInChange input asserted s := rfl
@[simp] theorem exec_evtInAccept (s : State) {input} :
    exec (.evtInAccept input) s = execEvtInAccept input s := rfl
@[simp] theorem exec_evtCoalesceEnd (s : State) {input} :
    exec (.evtCoalesceEnd input) s = execEvtCoalesceEnd input s := rfl
@[simp] theorem exec_evtStuck (s : State) {input} :
    exec (.evtStuck input) s = execEvtStuck input s := rfl
@[simp] theorem exec_outputShort (s : State) {output} :
    exec (.outputShort output) s = execOutputShort output s := rfl
@[simp] theorem exec_outputShortRetry (s : State) {output} :
    exec (.outputShortRetry output) s = execOutputShortRetry output s := rfl
@[simp] theorem exec_outputOpen (s : State) {output} :
    exec (.outputOpen output) s = execOutputOpen output s := rfl
@[simp] theorem exec_feedLoss (s : State) {feed} :
    exec (.feedLoss feed) s = execFeedLoss feed s := rfl
@[simp] theorem exec_feedOvervoltage (s : State) {feed} :
    exec (.feedOvervoltage feed) s = execFeedOvervoltage feed s := rfl
@[simp] theorem exec_feedReturn (s : State) {feed} :
    exec (.feedReturn feed) s = execFeedReturn feed s := rfl
@[simp] theorem exec_bothFeedsLost (s : State) {flushReaches} :
    exec (.bothFeedsLost flushReaches) s = execBothFeedsLost flushReaches s := rfl
@[simp] theorem exec_restartAfterFlush (s : State) :
    exec (.restartAfterFlush) s = execRestartAfterFlush s := rfl
@[simp] theorem exec_railStart (s : State) {rail} :
    exec (.railStart rail) s = execRailStart rail s := rfl
@[simp] theorem exec_railSequencingFault (s : State) {rail} :
    exec (.railSequencingFault rail) s = execRailSequencingFault rail s := rfl
@[simp] theorem exec_sequenceRetry (s : State) :
    exec (.sequenceRetry) s = execSequenceRetry s := rfl
@[simp] theorem exec_railOutOfRange (s : State) {rail} :
    exec (.railOutOfRange rail) s = execRailOutOfRange rail s := rfl
@[simp] theorem exec_standbyRailLoss (s : State) :
    exec (.standbyRailLoss) s = execStandbyRailLoss s := rfl
@[simp] theorem exec_overtemperatureProtect (s : State) {cluster} :
    exec (.overtemperatureProtect cluster) s = execOvertemperatureProtect cluster s := rfl
@[simp] theorem exec_noFlowProtect (s : State) :
    exec (.noFlowProtect) s = execNoFlowProtect s := rfl
@[simp] theorem exec_lockWrite (s : State) {w} {address} {value} :
    exec (.lockWrite w address value) s = execLockWrite w address value s := rfl
@[simp] theorem exec_w1cWrite (s : State) {w} {address} {value} :
    exec (.w1cWrite w address value) s = execW1cWrite w address value s := rfl
@[simp] theorem exec_reg64LoRead (s : State) {w} {address} :
    exec (.reg64LoRead w address) s = execReg64LoRead w address s := rfl
@[simp] theorem exec_reg64HiWrite (s : State) {w} {address} {value} :
    exec (.reg64HiWrite w address value) s = execReg64HiWrite w address value s := rfl
@[simp] theorem exec_evecWrite (s : State) {w} {address} {value} :
    exec (.evecWrite w address value) s = execEvecWrite w address value s := rfl
@[simp] theorem exec_lfsrWrite (s : State) {w} {address} {value} :
    exec (.lfsrWrite w address value) s = execLfsrWrite w address value s := rfl
@[simp] theorem exec_pmcFrozenRelease (s : State) {w} {address} {value} :
    exec (.pmcFrozenRelease w address value) s = execPmcFrozenRelease w address value s := rfl
@[simp] theorem exec_tstInjWrite (s : State) {w} {value} :
    exec (.tstInjWrite w value) s = execTstInjWrite w value s := rfl
@[simp] theorem exec_tstLfsrForce (s : State) {w} {cluster} {value} :
    exec (.tstLfsrForce w cluster value) s = execTstLfsrForce w cluster value s := rfl
@[simp] theorem exec_tstLfsrStep (s : State) {w} {cluster} {value} :
    exec (.tstLfsrStep w cluster value) s = execTstLfsrStep w cluster value s := rfl
@[simp] theorem exec_registerWrite (s : State) {w} {address} {value} :
    exec (.registerWrite w address value) s = execRegisterWrite w address value s := rfl
@[simp] theorem exec_pauseFrame (s : State) {port} {priorities} {on} :
    exec (.pauseFrame port priorities on) s = execPauseFrame port priorities on s := rfl
@[simp] theorem exec_fabricLinkLoss (s : State) {port} :
    exec (.fabricLinkLoss port) s = execFabricLinkLoss port s := rfl
@[simp] theorem exec_externalBackupChange (s : State) {present} :
    exec (.externalBackupChange present) s = execExternalBackupChange present s := rfl
@[simp] theorem exec_droopControl (s : State) {cluster} {mhz} :
    exec (.droopControl cluster mhz) s = execDroopControl cluster mhz s := rfl
@[simp] theorem exec_fittedModuleInsert (s : State) {fabric} {cage} {watts} :
    exec (.fittedModuleInsert fabric cage watts) s = execFittedModuleInsert fabric cage watts s := rfl
@[simp] theorem exec_peerPlacement (s : State) {source} {part} {sid} {code} {hint} :
    exec (.peerPlacement source part sid code hint) s = execPeerPlacement source part sid code hint s := rfl

end Sys2Proof.Machine
end

