-- ==== Sys2Proof/Laws/Fetch.lean ====
section
/-! SUPPORT. What bringing a sector into the caches does to the strands, said once: it may end reservations, and leaves
everything else of every strand as it was (09 R378 to R381, 10 R442). -/

namespace Sys2Proof.Machine

/-- No strand changes but for the end of its reservation, and no time passes. -/
structure OnlyResv (s t : State) : Prop where
  now : t.now = s.now
  slot : ∀ c k, t.slot c k = { s.slot c k with resv := (t.slot c k).resv }

theorem OnlyResv.rfl_ (s : State) : OnlyResv s s := ⟨rfl, fun _ _ => rfl⟩

theorem OnlyResv.of_slots {s t : State} (hs : t.slots = s.slots) (hn : t.now = s.now) : OnlyResv s t := by
  refine ⟨hn, fun c k => ?_⟩
  simp only [State.slot, hs]

theorem OnlyResv.trans {s t u : State} (h : OnlyResv s t) (g : OnlyResv t u) : OnlyResv s u := by
  refine ⟨g.now.trans h.now, fun c k => ?_⟩
  have a := g.slot c k
  have b := h.slot c k
  rw [b] at a
  exact a

theorem OnlyResv.each {α : Type} (xs : List α) (f : State → α → State) (h : ∀ s x, OnlyResv s (f s x)) (s : State) :
    OnlyResv s (s.each xs f) := by
  induction xs generalizing s with
  | nil => exact .rfl_ s
  | cons x xs ih => exact (h s x).trans (ih (f s x))

theorem OnlyResv.getD {s t : State} (o : Option State) (h : OnlyResv s t) (g : ∀ u, o = some u → OnlyResv s u) :
    OnlyResv s (o.getD t) := by
  cases o with
  | none => exact h
  | some u => exact g u rfl

theorem OnlyResv.modSlot_resv (s : State) (c : CellId) (k : SlotId) :
    OnlyResv s (s.modSlot c k fun x => { x with resv := none }) := by
  refine ⟨rfl, fun c' k' => ?_⟩
  by_cases e : c' = c ∧ k' = k
  · obtain ⟨rfl, rfl⟩ := e
    simp
  · have e' : c' ≠ c ∨ k' ≠ k := by
      by_cases h : c' = c
      · exact .inr fun h' => e ⟨h, h'⟩
      · exact .inl h
    simp [State.slot_setSlot_ne s _ e']

theorem State.dropResv_onlyResv (s : State) (g : BitVec 4) (sec : Nat) (keep : Option (CellId × SlotId)) :
    OnlyResv s (s.dropResv g sec keep) := by
  refine .each _ _ (fun s c => .each _ _ (fun s k => ?_) s) s
  split
  · exact .rfl_ s
  · exact .modSlot_resv s c k

theorem State.dropLines_onlyResv (s : State) (g : BitVec 4) (sec : Nat) (keep : Option CellId) :
    OnlyResv s (s.dropLines g sec keep) := by
  refine .each _ _ (fun s c => ?_) s
  split
  · exact .rfl_ s
  · exact .of_slots rfl rfl

theorem State.leaveArray_onlyResv (s : State) (g : BitVec 4) (b : Block) : OnlyResv s (s.leaveArray g b) :=
  .each _ _ (fun s _ => (s.dropLines_onlyResv _ _ _).trans (State.dropResv_onlyResv _ _ _ _)) s

theorem State.victim_onlyResv (s : State) (g : BitVec 4) (p : BitVec 6) (set : Nat) : OnlyResv s (s.victim g p set).2 := by
  unfold State.victim
  dsimp only
  split
  · exact .rfl_ s
  · split
    · exact .rfl_ s
    · exact .of_slots rfl rfl

theorem State.evict_onlyResv {s t : State} {g : BitVec 4} {k : Nat} (h : s.evict g k = some t) : OnlyResv s t := by
  unfold State.evict at h
  dsimp only at h
  split at h
  · cases h; exact s.leaveArray_onlyResv _ _
  · split at h
    · cases h; exact (s.leaveArray_onlyResv _ _).trans (.of_slots rfl rfl)
    · cases h

theorem State.wayFor_onlyResv {s t : State} {g : BitVec 4} {p : BitVec 6} {h : BitVec 4} {blk k : Nat}
    (e : s.wayFor g p h blk = some (k, t)) : OnlyResv s t := by
  unfold State.wayFor at e
  split at e
  · cases e; exact .of_slots rfl rfl
  · have hv := s.victim_onlyResv g p (setOf blk)
    split at e
    · cases e
    · rename_i w u hu
      rw [hu] at hv
      dsimp only at e
      split at e
      · cases e
      · rename_i v hv'
        cases e
        exact (hv.trans (State.evict_onlyResv hv')).trans (.of_slots rfl rfl)

theorem State.toHome_onlyResv (s : State) (sec : Nat) (m : Instr) : OnlyResv s (s.toHome sec m) := by
  unfold State.toHome
  split <;> exact .of_slots rfl rfl

theorem State.openMiss_onlyResv {s t : State} {g : BitVec 4} {m : Miss} (e : s.openMiss g m = some t) :
    OnlyResv s t := by
  unfold State.openMiss at e
  split at e
  · cases e
  · split at e
    · cases e
    · rename_i k u hu
      cases e
      refine (State.wayFor_onlyResv hu).trans (OnlyResv.trans ?_ (State.toHome_onlyResv _ _ _))
      exact .of_slots rfl rfl

theorem State.openPrefetches_onlyResv (s : State) (g : BitVec 4) (p : BitVec 6) (h : BitVec 4) (sec : Nat)
    (hNext : BitVec 4) : OnlyResv s (s.openPrefetches g p h sec hNext) := by
  unfold State.openPrefetches
  have go (hm : BitVec 4) (s : State) (x : Nat) : OnlyResv s
      (if ((s.cluster g).sectorAt x).st != 0 || ((s.cluster g).missOf x).isSome || ((s.cluster g).porchOf x).isSome then s
      else (s.openMiss g { newMiss x hm 0 p with prefetch := true }).getD s) := by
    split
    · exact .rfl_ s
    · exact .getD _ (.rfl_ s) fun u hu => State.openMiss_onlyResv hu
  exact (OnlyResv.each _ _ (go hNext) s).trans (OnlyResv.each _ _ (go h) _)

/-- A request that joins or opens a miss entry. -/
theorem State.joinMiss_onlyResv {s t : State} {g : BitVec 4} {p : BitVec 6} {h : BitVec 4} {sec : Nat} {wantX : Bool}
    {r : Requester} {word : Nat} {hNext : BitVec 4} (e : s.joinMiss g p h sec wantX r word hNext = some t) :
    OnlyResv s t := by
  unfold State.joinMiss at e
  split at e
  · split at e
    · cases e
    · cases e; exact .of_slots rfl rfl
  · dsimp only at e
    split at e
    · cases e
    · rename_i u hu
      cases e
      exact (State.openMiss_onlyResv hu).trans (State.openPrefetches_onlyResv _ _ _ _ _ _)

theorem State.cancelEviction_onlyResv {s t : State} {g : BitVec 4} {p : BitVec 6} {blk : Nat}
    (e : s.cancelEviction g p blk = some t) : OnlyResv s t := by
  unfold State.cancelEviction at e
  split at e
  · cases e; exact .rfl_ s
  · dsimp only at e
    split at e
    · cases e; exact .of_slots rfl rfl
    · have hv := (s.bump (cchBase g.toNat + 0x2C)).victim_onlyResv g p (setOf blk)
      split at e
      · cases e
      · rename_i w u hu
        rw [hu] at hv
        cases e
        refine (OnlyResv.of_slots (s := s) (t := s.bump (cchBase g.toNat + 0x2C)) rfl rfl).trans (hv.trans ?_)
        exact (State.leaveArray_onlyResv _ _ _).trans (.of_slots rfl rfl)

theorem State.takeBack_onlyResv (s : State) (g : BitVec 4) (p : BitVec 6) (sec : Nat) : OnlyResv s (s.takeBack g p sec) := by
  unfold State.takeBack
  split
  · split
    · exact .getD _ (.rfl_ s) fun u hu => State.cancelEviction_onlyResv hu
    · exact .rfl_ s
  · exact .rfl_ s

theorem State.clusterRead_onlyResv (s : State) (g : BitVec 4) (p : BitVec 6) (w : Nat) :
    OnlyResv s (s.clusterRead g p w).2 := by
  unfold State.clusterRead
  split
  · exact .rfl_ s
  · have pre := s.takeBack_onlyResv g p (sectorOf w)
    dsimp only
    split
    · exact pre
    · split
      · exact pre.trans (.of_slots rfl rfl)
      · exact pre

theorem OnlyResv.ite {s t u : State} {p : Prop} [Decidable p] (h : OnlyResv s t) (g : OnlyResv s u) :
    OnlyResv s (if p then t else u) := by
  split
  · exact h
  · exact g

theorem State.setReg_onlyResv (s : State) (a : Nat) (v : Word) : OnlyResv s (s.setReg a v) := .of_slots rfl rfl

theorem State.setReg64_onlyResv (s : State) (a v : Nat) : OnlyResv s (s.setReg64 a v) :=
  (s.setReg_onlyResv _ _).trans (State.setReg_onlyResv _ _ _)

theorem State.eventToken_onlyResv (s : State) (w : Who) (p : BitVec 6) (m : BitVec 16) (v : TWord) :
    OnlyResv s (s.eventToken w p m v) := by
  unfold State.eventToken State.send
  dsimp only
  exact .ite (.rfl_ s) (.ite (.of_slots rfl rfl) (.of_slots rfl rfl))

theorem State.pmcWrapped_onlyResv (s : State) (c : CellId) (n : Nat) : OnlyResv s (s.pmcWrapped c n) := by
  have wrapped (u : State) (sel : Word) (h : OnlyResv s u) : OnlyResv s
      (if bit sel 15 then u.setReg (pmcCell c + 0xC0) (u.reg (pmcCell c + 0xC0) ||| 2) else u) :=
    .ite (h.trans (u.setReg_onlyResv _ _)) h
  have counted := (s.setReg64_onlyResv (pmcCell c + 0x40 + 8 * n) 0).trans
    (State.setReg_onlyResv _ (pmcCell c + 0xC4)
      ((s.setReg64 (pmcCell c + 0x40 + 8 * n) 0).reg (pmcCell c + 0xC4) ||| BitVec.ofNat 32 (2 ^ n)))
  exact wrapped _ _ (.ite (counted.trans (State.eventToken_onlyResv _ _ _ _ _)) counted)

theorem State.pmc_onlyResv (s : State) (c : CellId) (sup : Option Bool) (ev : Nat) : OnlyResv s (s.pmc c sup ev) := by
  unfold State.pmc
  exact .ite (.rfl_ s) (.each _ _ (fun s n =>
    .ite (.rfl_ s) (.ite (s.pmcWrapped_onlyResv c n) (s.setReg64_onlyResv _ _))) s)

theorem State.tlbLookup_onlyResv (s : State) (c : CellId) (sid : BitVec 16) (p : BitVec 6) (va : Word) :
    OnlyResv s (s.tlbLookup c sid p va).2 := by
  unfold State.tlbLookup
  split
  · exact .rfl_ s
  · dsimp only
    split <;> exact .of_slots rfl rfl

/-- The fetch of a branch's target may end reservations, and changes no strand otherwise (05 R216). -/
theorem State.fetchAhead_onlyResv (s : State) (c : CellId) (k : SlotId) (va : Word) : OnlyResv s (s.fetchAhead c k va) := by
  have ht := s.tlbLookup_onlyResv c (s.sidFor c (s.slot c k) false) (s.slot c k).part va
  unfold State.fetchAhead
  dsimp only
  revert ht
  generalize s.tlbLookup c (s.sidFor c (s.slot c k) false) (s.slot c k).part va = r
  obtain ⟨_ | e, u⟩ := r
  · exact id
  · intro ht
    refine .ite ht (.ite ht ?_)
    have hr := (ht.trans (u.pmc_onlyResv c (some (s.slot c k).sup) 0x10)).trans
      (State.clusterRead_onlyResv _ (clusterOf c) (s.slot c k).part (e.word va))
    revert hr
    generalize (u.pmc c (some (s.slot c k).sup) 0x10).clusterRead (clusterOf c) (s.slot c k).part (e.word va) = q
    obtain ⟨_ | _ | _, w⟩ := q
    · exact fun hr => hr.trans (.of_slots rfl rfl)
    · exact id
    · exact fun hr => hr.trans (.getD _ (.rfl_ w) fun u hu => State.joinMiss_onlyResv hu)

end Sys2Proof.Machine
end

