-- ==== Sys2Proof/Laws/Integer.lean ====
section
/-! SUPPORT. What the shared operations of the integer instructions do, said once each: the tag that PFX.TAG gives, a
computed value, and the operand rules of `binary`. -/

namespace Sys2Proof.Machine

@[simp] theorem TWord.int_tag (w : Word) : (TWord.int w).tag = Tag.int := rfl
@[simp] theorem TWord.int_data (w : Word) : (TWord.int w).data = w := rfl
@[simp] theorem TWord.bool_tag (b : Bool) : (TWord.bool b).tag = Tag.bool := rfl
@[simp] theorem TWord.bool_data (b : Bool) : (TWord.bool b).data = if b then 1 else 0 := rfl
@[simp] theorem TWord.zero_tag : TWord.zero.tag = Tag.int := rfl
@[simp] theorem TWord.zero_data : TWord.zero.data = 0 := rfl
@[simp] theorem TWord.empty_tag : TWord.empty.tag = Tag.empty := rfl
@[simp] theorem Tag.int_ne_poison : Tag.int ≠ Tag.poison := by decide
@[simp] theorem Tag.bool_ne_poison : Tag.bool ≠ Tag.poison := by decide
@[simp] theorem Tag.ptr_ne_poison : Tag.ptr ≠ Tag.poison := by decide
@[simp] theorem Tag.ctx_ne_poison : Tag.ctx ≠ Tag.poison := by decide
@[simp] theorem Tag.code_ne_poison : Tag.code ≠ Tag.poison := by decide
@[simp] theorem Tag.int_ne_bool : Tag.int ≠ Tag.bool := by decide
@[simp] theorem Tag.bool_ne_int : Tag.bool ≠ Tag.int := by decide
@[simp] theorem Tag.int_ne_ptr : Tag.int ≠ Tag.ptr := by decide
@[simp] theorem Tag.ptr_ne_int : Tag.ptr ≠ Tag.int := by decide

/-- Where TagAllowed holds, the value written is the one taggedAs names. -/
theorem tagged_ok {x : LongOp} {sup : Bool} {v : TWord} (h : TagAllowed x sup v) :
    tagged x.pre sup v = .ok (taggedAs x v) := by
  unfold TagAllowed at h
  unfold tagged taggedAs retagV
  cases hp : preTag x.pre with
  | none => rfl
  | some g =>
    simp only [hp] at h
    obtain ⟨h1, h2, h3⟩ := h
    dsimp only
    rw [if_neg (not_or.mpr ⟨h1, h2⟩)]
    by_cases hq : v.tag = Tag.poison
    · rw [if_pos hq, if_pos hq]
    · obtain ⟨h4, h5⟩ := h3.resolve_left hq
      rw [if_neg hq, if_neg hq, if_neg, if_neg]
      · rintro ⟨h6, h7⟩
        have := h5 h6
        omega
      · rintro ⟨h6, h7⟩
        simp [h4 h6] at h7

theorem tagged_none {x : LongOp} {sup : Bool} {v : TWord} (h : preTag x.pre = none) : tagged x.pre sup v = .ok v := by
  unfold tagged
  rw [h]

/-- A computed value whose tag may be written is written. -/
theorem State.compute_ok {s : State} {i : Iss} {len : Nat} {pre : List Pfx} {d : Reg} {sup : Bool}
    {e : Except Byte TWord} {v w : TWord} (he : e = .ok v) (hw : tagged pre sup v = .ok w) :
    s.compute i len pre d sup e = .done (s.finish i len [(d, w)]) := by
  subst he
  unfold State.compute
  rw [show (Except.ok v : Except Byte TWord).bind (tagged pre sup) = tagged pre sup v from rfl, hw]

/-- A computation that raises an event raises it. -/
theorem State.compute_error {s : State} {i : Iss} {len : Nat} {pre : List Pfx} {d : Reg} {sup : Bool}
    {e : Except Byte TWord} {r : Byte} (he : e = .error r) : s.compute i len pre d sup e = .event (tagEv r) s := by
  subst he
  rfl

/-- A long operation that computes one value. -/
theorem State.aluLong_ok {s f : State} {i : Iss} {x : LongOp} {l : Layout} {u : Bool}
    {g : Slot → TWord → TWord → Except Byte TWord} {v w : TWord} (h : Issues s i x.len x.regs f)
    (hl : x.legal l u true = true) (hv : g (f.me i) ((f.me i).g x.a) (x.opB (f.me i)) = .ok v)
    (hw : tagged x.pre (f.me i).sup v = .ok w) :
    Completes (s.aluLong i x l u g) (Wrote f i x.len [(x.d, w)]) := by
  refine ⟨_, (State.issue_ok h hl rfl).trans ?_, State.wrote_finish h.countersOff⟩
  exact congrArg (Act.settle i.cell i.slot) (State.compute_ok hv hw)

/-- A long operation that raises a tag event. -/
theorem State.aluLong_error {s f : State} {i : Iss} {x : LongOp} {l : Layout} {u : Bool}
    {g : Slot → TWord → TWord → Except Byte TWord} {r : Byte} (h : Issues s i x.len x.regs f)
    (hl : x.legal l u true = true) (hv : g (f.me i) ((f.me i).g x.a) (x.opB (f.me i)) = .error r) :
    Raises (s.aluLong i x l u g) f i (tagEv r) :=
  (State.issue_ok h hl rfl).trans (congrArg (Act.settle i.cell i.slot) (State.compute_error hv))

/-- A POISON operand of a computing operation: the result is the first one (03 R94). -/
theorem binary_poison {u : Bool} {f : Word → Word → Word} {g : TWord → TWord → Except Byte TWord} {a b : TWord}
    (h : a.tag = Tag.poison ∨ b.tag = Tag.poison) : binary u f g a b = .ok (if a.tag = Tag.poison then a else b) := by
  by_cases ha : a.tag = Tag.poison
  · simp [binary, poisonOf, ha]
  · simp [binary, poisonOf, ha, h.resolve_left ha]

theorem binary_untyped {f : Word → Word → Word} {g : TWord → TWord → Except Byte TWord} {a b : TWord}
    (ha : a.tag ≠ Tag.poison) (hb : b.tag ≠ Tag.poison) : binary true f g a b = .ok (TWord.int (f a.data b.data)) := by
  simp [binary, poisonOf, ha, hb]

theorem binary_typed {f : Word → Word → Word} {g : TWord → TWord → Except Byte TWord} {a b : TWord}
    (ha : a.tag ≠ Tag.poison) (hb : b.tag ≠ Tag.poison) : binary false f g a b = g a b := by
  simp [binary, poisonOf, ha, hb]

end Sys2Proof.Machine
end

