-- ==== Sys2Proof/Laws/Memory.lean ====
section
/-! SUPPORT. Memory (01 R27; 08 R346): every operation that writes it keeps its one canonical form, and a read after a
write gives what was written there and leaves every other word. -/

namespace Sys2Proof.Machine

theorem State.memOk_of_mem {s t : State} (h : s.memOk) (e : t.mem = s.mem) : t.memOk := by unfold State.memOk; rw [e]; exact h

/-- A fold of steps that each keep the form keeps it. -/
theorem State.memOk_each {α : Type} (xs : List α) {f : State → α → State} (hf : ∀ s x, s.memOk → (f s x).memOk) :
    ∀ {s : State}, s.memOk → (s.each xs f).memOk := by
  induction xs with
  | nil => exact fun h => h
  | cons x xs ih => exact fun h => ih (hf _ x h)

/-- A fold of steps that each leave memory leaves it. -/
theorem State.mem_each {α : Type} (xs : List α) {f : State → α → State} (hf : ∀ s x, (f s x).mem = s.mem) (s : State) :
    (s.each xs f).mem = s.mem := by
  induction xs generalizing s with
  | nil => rfl
  | cons x xs ih => exact (ih (f s x)).trans (hf s x)

@[simp] theorem State.dropLines_mem (s : State) (g : BitVec 4) (sec : Nat) (keep : Option CellId) : (s.dropLines g sec keep).mem = s.mem :=
  State.mem_each _ (fun s c => by split <;> rfl) s

@[simp] theorem State.dropResv_mem (s : State) (g : BitVec 4) (sec : Nat) (keep : Option (CellId × SlotId)) :
    (s.dropResv g sec keep).mem = s.mem :=
  State.mem_each _ (fun s c => State.mem_each _ (fun s k => by split <;> rfl) s) s

/-! ### The writes -/

theorem State.reset_memOk_list : Memory.wf [] = true := rfl

theorem State.setDram_memOk {s : State} (w : Nat) (v : TWord) (h : s.memOk) : (s.setDram w v).memOk := Map.wf_set _ _ h

theorem State.setDramSector_memOk {s : State} (sec : Nat) (data : List TWord) (h : s.memOk) : (s.setDramSector sec data).memOk :=
  State.memOk_each _ (fun _ _ h => State.setDram_memOk _ _ h) h

theorem State.recall_memOk {s : State} (sec : Nat) (h : s.memOk) : (s.recall sec).memOk := by
  refine State.memOk_each _ (fun s g h => ?_) h
  have drop : ∀ u : State, u.memOk → ∀ cl : Cluster, (((u.setCluster g cl).dropLines g sec none).dropResv g sec none).memOk :=
    fun u hu cl => State.memOk_of_mem hu (by simp)
  have data : ∀ u : State, u.memOk → ∀ d : Option (List TWord), (match d with
      | some d => u.setDramSector sec d
      | none => u).memOk := fun u hu d => by
    cases d with
    | none => exact hu
    | some d => exact State.setDramSector_memOk _ _ hu
  generalize hu : (if s.granting g sec then s.modCluster g fun cl => cl.modMiss sec fun m => { m with doomed := true } else s) = u
  have h3 : u.memOk := by
    rw [← hu]
    cases s.granting g sec
    · exact h
    · exact State.memOk_of_mem h rfl
  dsimp only
  cases (u.cluster g).holds sec
  · exact h3
  · exact drop _ (data _ h3 _) _

theorem State.poke_memOk {s : State} (w : Nat) (v : TWord) (h : s.memOk) : (s.poke w v).memOk := by
  unfold State.poke
  dsimp only
  split
  · split
    · exact State.memOk_of_mem h (by simp)
    · exact State.setDram_memOk _ _ (State.recall_memOk _ h)
  · exact h

theorem State.returnData_memOk {s : State} (sec : Nat) (x : Sector) (h : s.memOk) : (s.returnData sec x).memOk := by
  unfold State.returnData
  split
  · exact State.setDramSector_memOk _ _ h
  · exact h

theorem State.eraseBlocks_memOk {s : State} (b n : Nat) (h : s.memOk) : (s.eraseBlocks b n).memOk := Map.wf_filter _ h

theorem putWords_wf {m : Map TWord} (ws : Map TWord) (h : Memory.wf m = true) : Memory.wf (putWords m ws) = true := by
  unfold putWords
  induction ws generalizing m with
  | nil => exact h
  | cons e ws ih => exact ih (Map.wf_set _ _ h)

theorem withoutBlock_wf {m : Map TWord} (b : Nat) (h : Memory.wf m = true) : Memory.wf (withoutBlock m b) = true := Map.wf_filter _ h

theorem blockWords_wf {m : Map TWord} (b : Nat) (h : Memory.wf m = true) : Memory.wf (blockWords m b) = true := Map.wf_filter _ h

/-! ### Reading after a write -/

@[simp] theorem State.dram_setDram (s : State) (w : Nat) (v : TWord) : (s.setDram w v).dram w = v := Map.get_set_same _ _ _ _

theorem State.dram_setDram_ne (s : State) {w x : Nat} (v : TWord) (h : localWord x ≠ localWord w) : (s.setDram w v).dram x = s.dram x :=
  Map.get_set_ne _ _ _ h

end Sys2Proof.Machine
end

