-- ==== Sys2Proof/Tests/Slice0.lean ====
section
/-! SUPPORT. Small tests, each one step on a small state, and for each statement with hypotheses a state and operands that
meet them. Expected values are those of the rules that each section names, worked by hand. A theorem `test_…` says what a
command leaves; a theorem `meets_…` that the hypotheses of a clause are met by the state and operands it names. -/

set_option Elab.async false

open Sys2Proof Sys2Proof.Machine

namespace Sys2Proof.Tests

/-- The outcome is a next state of which `p` holds. -/
def nextIs (o : Outcome) (p : State → Bool) : Bool :=
  match o with
  | .next t => p t
  | _ => false

/-! ### Ill-formed commands (one for each check of WellFormed) -/

/-- A frame with nothing in it. -/
def noFrame : CFrame :=
  { ver := 1, first := true, last := true, retx := false, cmp := false, enc := false, prio := 0, lch := 0, tn := 0
    fseq := 0, ackseq := 0, offset := 0, flow := 0, session := 0, code := 0, payload := [], crcOk := true }

theorem wf_refuses_start : Instr.wf (.moduleStart ⟨[(0, 18)], []⟩ none) = false ∧ Instr.wf (.moduleStart ⟨[], [(0, 18)]⟩ none) = false := by
  decide
theorem wf_refuses_scrub : Instr.wf (.controlStoreScrub 0 18 0 false) = false := by decide
theorem wf_refuses_drain : Instr.wf (.cellDrainComplete 0 31) = false ∧ Instr.wf (.drainTimeout 0 20) = false := by decide
theorem wf_refuses_wb : Instr.wf (.wb 0 0 0 [(0, [])]) = false := by decide
theorem wf_refuses_data : Instr.wf (.dataS 0 0 []) = false ∧ Instr.wf (.dataX 0 0 [TWord.zero]) = false := by decide
theorem wf_refuses_answer : Instr.wf (.prbRsp 0 0 0 (.dirty [])) = false := by decide
theorem wf_refuses_frame : Instr.wf (.data 0 { noFrame with payload := List.replicate 8193 0 }) = false := by
  decide +kernel
theorem wf_refuses_type : Instr.wf (.reservedTypeFrame 0 10 noFrame) = false := by decide
theorem wf_refuses_class : Instr.wf (.engineDispatch 5 0) = false ∧ Instr.wf (.engineComplete 3 2) = false := by decide
theorem wf_refuses_engine : Instr.wf (.sha256 4) = false ∧ Instr.wf (.signP256 2) = false ∧ Instr.wf (.random 1) = false := by
  decide
theorem wf_refuses_source : Instr.wf (.wireFault 1536) = false ∧ Instr.wf (.faultSample [(2000, 1)]) = false := by decide
theorem wf_refuses_request : Instr.wf (.svcRequest 0 []) = false := by decide
theorem wf_refuses_output : Instr.wf (.outputShort 3) = false ∧ Instr.wf (.railStart 4) = false := by decide
theorem wf_takes : Instr.wf (.wireFault 1535) = true ∧ Instr.wf (.signP256 1) = true ∧ Instr.wf (.railStart 3) = true := by
  decide

/-! ### A strand at work -/

/-- A page of space 5 in partition 1: its words follow machine word 0x80000 (the block at 0x200000). -/
def page (vpn : Nat) (user : Bool) : TlbEnt :=
  { glob := false, sid := 5, part := 1, big := false, vpn := vpn, pblk := 0, modn := 0, ma := 0x200000 + vpn * 0x4000
    homing := 0, r := true, w := true, x := true, u := user, c := true, se := false, dev := false }

/-- The tables that map space 5 of partition 1 there with one 2 MiB page: its space entry, the stage-2 root and leaf, and
the stage-1 leaf (08 R326, R331, R338, R339), with rights R, W, X, U and C. -/
def tables : Map TWord :=
  [(22, ⟨Tag.sys, 0x81⟩), (8192, ⟨Tag.sys, 1⟩), (8193, ⟨Tag.sys, 0x10⟩), (0x4000, ⟨Tag.sys, 1⟩), (0x4001, ⟨Tag.sys, 1⟩),
   (0x80000, ⟨Tag.sys, 0xBF⟩), (0x80001, ⟨Tag.sys, 0⟩)]

/-- A strand of frame 1 in slot 0 of cell 0 at word 0x1000, a supervisor's at 0x2000, whose cell's fetch buffer holds the words
that it executes. -/
def strand (sup : Bool) (g : Map TWord) : Slot :=
  { slot0 with
    state := .run
    act := { act0 with
      ctx := 1
      iter := 7 }
    sid := 5
    part := 1
    pc := if sup then 0x2000 else 0x1000
    regs := g
    sup := sup }

/-- The machine with that strand. -/
def work (sup : Bool) (g : Map TWord) : State :=
  { State.reset with
    mem := tables
    cells := [(0, { cell0 with
      tlb := [page 1 true, page 2 false, page 3 true, page 4 false]
      buf := some ⟨0, [if sup then 0x8200 else 0x8100], none⟩ })]
    frames := [(1, { frame0 with
      sid := 5
      part := 1
      state := stActive
      ctx := 1
      count := 3 })]
    slots := [(0, strand sup g)] }

def me0 : Iss := { cell := 0, slot := 0, fetchTag := Tag.int, check := .ok }

/-- Long words of layouts LR and LI, and of layout LR with U. -/
def lr (d a b : Reg) : LongOp := ⟨[], .lr d a false 0 0 b⟩
def li (d a : Reg) (n : BitVec 11) : LongOp := ⟨[], .li d a n⟩
def lrU (d a b : Reg) : LongOp := ⟨[], .lr d a true 0 0 b⟩

/-- Whether the strand issues an instruction there, fetching nothing new. -/
def issues (s : State) (len : Nat) (uses : List Reg) : Bool :=
  s.canIssue 0 0 && (s.sample 0 0).isNone && (s.codeBreak 0 (s.slot 0 0)).isNone &&
    decide (s.fetch 0 0 (s.slot 0 0).pc len = (.ok, s)) && !uses.any (s.slot 0 0).busy &&
    s.reg (pmcCell 0 + 0xC0) == 0

/-- `issues` says that the hypothesis `Issues` of the statements is met. -/
theorem issues_of {s : State} {len : Nat} {uses : List Reg} (h : issues s len uses = true) : Issues s me0 len uses s := by
  simp only [issues, Bool.and_eq_true, decide_eq_true_eq, beq_iff_eq, Option.isNone_iff_eq_none, Bool.not_eq_true'] at h
  obtain ⟨⟨⟨⟨⟨a, b⟩, c⟩, d⟩, e⟩, f⟩ := h
  exact ⟨a, b, c, rfl, d, rfl, e, f⟩

/-- Whether an access reaches machine word `w`, changing nothing. -/
def reaches (s : State) (va : Word) (a : Access) (e : TlbEnt) (w : Nat) : Bool :=
  decide (s.xlate 0 0 va a = (.ok e w, s)) && (s.watchHit 0 (s.slot 0 0) va (a.kind == 1)).isNone &&
    s.reg (pmcCell 0 + 0xC0) == 0

/-- `reaches` says that the hypothesis `Reaches` of the statements is met. -/
theorem reaches_of {s : State} {va : Word} {a : Access} {e : TlbEnt} {w : Nat} (h : reaches s va a e w = true) :
    Reaches s me0 va a e w s := by
  simp only [reaches, Bool.and_eq_true, decide_eq_true_eq, beq_iff_eq, Option.isNone_iff_eq_none] at h
  exact ⟨h.1.1, h.1.2, h.2⟩

/-- The state after the commit point of a commit-first operation, and whether there is one. -/
def cfAt (s : State) (st : Bool) : State := match s.cfBefore me0 st with | .ok v => v | .error v => v
def cfGoes (s : State) (st : Bool) : Bool := match s.cfBefore me0 st with | .ok v => v.reg (pmcCell 0 + 0xC0) == 0 | .error _ => false

/-- What register `r` reads after a command completes, at which address the strand then is, and that memory and the frames
are as they were. -/
def gives (c : Instr) (s : State) (r : Reg) (v : TWord) : Bool :=
  nextIs (exec c s) fun t => (t.slot 0 0).g r == v && (t.slot 0 0).pc == (s.slot 0 0).pc + 1 &&
    decide (t.mem = s.mem) && decide (t.frames = s.frames)

/-- The strand enters its handler for a tag event of a reason (03 R120). -/
def tagRaised (c : Instr) (s : State) (why : Byte) : Bool :=
  nextIs (exec c s) fun t => (t.slot 0 0).state == .handler && (t.slot 0 0).ecause == 3 &&
    (t.slot 0 0).einfo == why.setWidth 32

def two (a b : TWord) : State := work false [(1, a), (2, b)]

/-! ### Integer, logic, compare, move and tag instructions -/

theorem test_add_wraps : gives (.add me0 (.long (lr 3 1 2))) (two (TWord.int 0xFFFFFFFF) (TWord.int 2)) 3 (TWord.int 1) = true := by
  decide +kernel
theorem test_add_ptr : gives (.add me0 (.long (lr 3 1 2))) (two ⟨Tag.ptr, 8⟩ (TWord.int 2)) 3 ⟨Tag.ptr, 10⟩ = true := by
  decide +kernel
theorem test_sub_ptrs : gives (.sub me0 (.long (lr 1 1 2))) (two ⟨Tag.ptr, 8⟩ ⟨Tag.ptr, 10⟩) 1 (TWord.int 0xFFFFFFFE) = true := by
  decide +kernel
theorem test_sub_tags : tagRaised (.sub me0 (.long (lr 1 1 2))) (two (TWord.int 8) ⟨Tag.ptr, 10⟩) 0x01 = true := by
  decide +kernel
theorem test_and_bool : gives (.and me0 (.long (lr 3 1 2))) (two (TWord.bool true) (TWord.bool false)) 3 (TWord.bool false) = true := by
  decide +kernel
theorem test_or_mixed : gives (.or me0 (.long (lr 3 1 2))) (two (TWord.int 6) (TWord.bool true)) 3 (TWord.int 7) = true := by
  decide +kernel
theorem test_xor_poison : gives (.xor me0 (.long (lr 3 1 2))) (two (TWord.int 6) ⟨Tag.poison, 9⟩) 3 ⟨Tag.poison, 9⟩ = true := by
  decide +kernel
theorem test_andn : gives (.andn me0 (lr 3 1 2)) (two (TWord.int 7) (TWord.int 5)) 3 (TWord.int 2) = true := by decide +kernel
theorem test_min_signed : gives (.min me0 (.long (lr 3 1 2))) (two (TWord.int 0xFFFFFFFF) (TWord.int 5)) 3 (TWord.int 0xFFFFFFFF) = true := by
  decide +kernel
theorem test_max_li : gives (.max me0 (.long (li 3 1 0x7FF))) (two (TWord.int 0xFFFFFFF0) (TWord.int 5)) 3 (TWord.int 0xFFFFFFFF) = true := by
  decide +kernel
theorem test_shl_mod32 : gives (.shl me0 (lr 3 1 2)) (two (TWord.int 3) (TWord.int 33)) 3 (TWord.int 6) = true := by decide +kernel
theorem test_shr : gives (.shr me0 (lr 3 1 2)) (two (TWord.int 0x80000000) (TWord.int 31)) 3 (TWord.int 1) = true := by decide +kernel
theorem test_sar : gives (.sar me0 (lr 3 1 2)) (two (TWord.int 0x80000000) (TWord.int 31)) 3 (TWord.int 0xFFFFFFFF) = true := by
  decide +kernel
theorem test_rol : gives (.rol me0 (lr 3 1 2)) (two (TWord.int 0x80000001) (TWord.int 1)) 3 (TWord.int 3) = true := by decide +kernel
theorem test_rot : gives (.rot me0 (lr 3 1 2)) (two (TWord.int 3) (TWord.int 1)) 3 (TWord.int 0x80000001) = true := by
  decide +kernel
theorem test_clz_zero : gives (.clz me0 (lr 3 1 0)) (two (TWord.int 0) (TWord.int 0)) 3 (TWord.int 32) = true := by decide +kernel
theorem test_ctz : gives (.ctz me0 (lr 3 1 0)) (two (TWord.int 8) (TWord.int 0)) 3 (TWord.int 3) = true := by decide +kernel
theorem test_popc : gives (.popc me0 (lr 3 1 0)) (two (TWord.int 0xF0F) (TWord.int 0)) 3 (TWord.int 8) = true := by decide +kernel
theorem test_g0_discards : gives (.add me0 (.long (lr 0 1 2))) (two (TWord.int 3) (TWord.int 4)) 0 TWord.zero = true := by
  decide +kernel
theorem test_eq_tags : gives (.eq me0 (.long (lr 3 1 2))) (two ⟨Tag.ctx, 4⟩ ⟨Tag.ctx, 4⟩) 3 (TWord.bool true) = true := by
  decide +kernel
theorem test_ne_untyped : gives (.ne me0 (lrU 3 1 2)) (two ⟨Tag.ctx, 4⟩ (TWord.int 5)) 3 (TWord.int 1) = true := by decide +kernel
theorem test_lt_signed : gives (.lt me0 (.long (lr 3 1 2))) (two (TWord.int 0xFFFFFFFF) (TWord.int 0)) 3 (TWord.bool true) = true := by
  decide +kernel
theorem test_le_tags : tagRaised (.le me0 (lr 3 1 2)) (two ⟨Tag.ctx, 4⟩ ⟨Tag.ctx, 4⟩) 0x01 = true := by decide +kernel
theorem test_ltu : gives (.ltu me0 (.long (lr 3 1 2))) (two (TWord.int 0xFFFFFFFF) (TWord.int 0)) 3 (TWord.bool false) = true := by
  decide +kernel
theorem test_leu_ptr : gives (.leu me0 (lr 3 1 2)) (two ⟨Tag.ptr, 5⟩ ⟨Tag.ptr, 5⟩) 3 (TWord.bool true) = true := by decide +kernel
theorem test_li : gives (.li me0 (li 3 0 0x400)) (two TWord.zero TWord.zero) 3 (TWord.int 0xFFFFFC00) = true := by decide +kernel
theorem test_li_long : nextIs (exec (.li me0 ⟨[.imm 0x10], .li 3 0 5⟩) (two TWord.zero TWord.zero))
    (fun t => (t.slot 0 0).g 3 == TWord.int 0x805 && (t.slot 0 0).pc == 0x1002) = true := by decide +kernel
theorem test_mov_poison : gives (.mov me0 (.long (lr 3 1 0))) (two ⟨Tag.poison, 9⟩ TWord.zero) 3 ⟨Tag.poison, 9⟩ = true := by
  decide +kernel
theorem test_sel : gives (.sel me0 (lr 3 1 2)) (work false [(1, TWord.int 5), (2, TWord.int 6), (3, TWord.bool false)]) 3
    (TWord.int 6) = true := by decide +kernel
theorem test_self : gives (.self me0 (.long (lr 3 0 0))) (two TWord.zero TWord.zero) 3 ⟨Tag.ctx, 1⟩ = true := by decide +kernel
theorem test_iter : gives (.iter me0 (.long (lr 3 0 0))) (two TWord.zero TWord.zero) 3 (TWord.int 7) = true := by decide +kernel
theorem test_tagof : gives (.tagof me0 (.long (lr 3 1 0))) (two ⟨Tag.code, 4⟩ TWord.zero) 3 (TWord.int (Tag.code.setWidth 32)) = true := by
  decide +kernel
theorem test_ttest : gives (.ttest me0 (li 3 1 10)) (two ⟨Tag.poison, 4⟩ TWord.zero) 3 (TWord.bool true) = true := by decide +kernel
theorem test_retag_sys : tagRaised (.retag me0 (li 3 1 11)) (two (TWord.int 4) TWord.zero) 0x04 = true := by decide +kernel
theorem test_retag : gives (.retag me0 (li 3 1 12)) (two (TWord.int 4) TWord.zero) 3 ⟨12, 4⟩ = true := by decide +kernel

theorem test_retag_poison : gives (.retag me0 (lr 3 1 2)) (two (TWord.int 4) ⟨Tag.poison, 12⟩) 3 ⟨Tag.poison, 12⟩ = true := by
  decide +kernel

theorem meets_IntegerResults : (lr 3 1 2).legal .both true true = true ∧ Issues (two (TWord.int 5) (TWord.int 6)) me0 1 [3, 1, 2] (two (TWord.int 5) (TWord.int 6)) ∧
    TagAllowed (lr 3 1 2) false (TWord.int 11) := ⟨by decide, issues_of (by decide +kernel), trivial⟩
theorem meets_IntegerResults_tag : (⟨[.tag 0x1800000], .lr 3 1 false 0 0 2⟩ : LongOp).legal .both true true = true ∧
    preTag [.tag 0x1800000] = some 12 ∧ TagAllowed ⟨[.tag 0x1800000], .lr 3 1 false 0 0 2⟩ false (TWord.int 11) ∧
    issues (two (TWord.int 5) (TWord.int 6)) 2 [3, 1, 2] = true := by
  refine ⟨by decide, by decide, ?_, by decide +kernel⟩
  exact ⟨by decide, by decide, .inr ⟨by decide, by decide⟩⟩
theorem meets_TypedCombinations : ∀ a ∈ [Tag.int, Tag.ptr, Tag.bool, Tag.code], ∀ b ∈ [Tag.int, Tag.ptr, Tag.bool, Tag.code],
    issues (two ⟨a, 1⟩ ⟨b, 1⟩) 1 [3, 1, 2] = true ∧ ((two ⟨a, 1⟩ ⟨b, 1⟩).me me0).g 1 = ⟨a, 1⟩ ∧
    ((two ⟨a, 1⟩ ⟨b, 1⟩).me me0).g 2 = ⟨b, 1⟩ := by decide +kernel
theorem meets_Comparisons : (lrU 3 1 2).legal .both true true = true ∧ (lr 3 1 2).legal .both true true = true ∧
    preTag (lrU 3 1 2).pre = none ∧ issues (two ⟨Tag.code, 1⟩ ⟨Tag.code, 1⟩) 1 (lrU 3 1 2).regs = true := by decide +kernel
theorem meets_Moves : (li 3 0 5).legal .li false true = true ∧ (lr 3 1 2).legal .both false true = true ∧
    ∀ v ∈ [TWord.bool true, TWord.bool false, ⟨Tag.poison, 0⟩, TWord.int 1],
      issues (work false [(3, v)]) 1 [3, 1, 2] = true ∧ ((work false [(3, v)]).me me0).g 3 = v := by decide +kernel
theorem meets_TagOperations : (li 3 1 15).legal .both false true = true ∧ (li 3 1 15).opB (strand false []) = TWord.int 15 ∧
    issues (two ⟨Tag.poison, 0⟩ TWord.zero) 1 (li 3 1 15).regs = true ∧
    issues (work true [(1, TWord.int 2)]) 1 (li 3 1 15).regs = true ∧ preTag (lr 3 1 2).pre = none ∧
    issues (two (TWord.int 4) ⟨Tag.poison, 12⟩) 1 (lr 3 1 2).regs = true ∧
    ((lr 3 1 2).opB ((two (TWord.int 4) ⟨Tag.poison, 12⟩).me me0)).tag = Tag.poison := by decide +kernel

/-! ### Paired words, multiply and divide, floating point -/

/-- A pair: this half's D and S, the other half's word. -/
def pair (d s : Reg) (o : BitVec 15) : PairOp := { d := d, s := s, upper := true, other := o, bit15 := false }

/-- Both halves read before either writes: g1 + g2 to g1, and the old g1 to g2 (03 R111). -/
theorem test_pair : nextIs (exec (.add me0 (.short (pair 1 2 0x0441))) (two (TWord.int 5) (TWord.int 6)))
    (fun t => (t.slot 0 0).g 1 == TWord.int 11 && (t.slot 0 0).g 2 == TWord.int 5 && (t.slot 0 0).pc == 0x1001) = true := by
  decide +kernel
theorem test_addi : nextIs (exec (.addi me0 (pair 1 31 0)) (two (TWord.int 5) TWord.zero))
    (fun t => (t.slot 0 0).g 1 == TWord.int 4) = true := by decide +kernel
theorem test_shli : nextIs (exec (.shli me0 (pair 1 31 0)) (two (TWord.int 3) TWord.zero))
    (fun t => (t.slot 0 0).g 1 == TWord.int 0x80000000) = true := by decide +kernel
theorem test_sari : nextIs (exec (.sari me0 (pair 1 31 0)) (two (TWord.int 0x80000000) TWord.zero))
    (fun t => (t.slot 0 0).g 1 == TWord.int 0xFFFFFFFF) = true := by decide +kernel
theorem test_not_neg : nextIs (exec (.not me0 (pair 3 1 0x2082)) (two (TWord.int 5) (TWord.int 6)))
    (fun t => (t.slot 0 0).g 3 == TWord.int 0xFFFFFFFA && (t.slot 0 0).g 4 == TWord.int 0xFFFFFFFA) = true := by decide +kernel
theorem test_zxb : nextIs (exec (.zxb me0 (pair 3 1 0)) (two (TWord.int 0x1234) TWord.zero))
    (fun t => (t.slot 0 0).g 3 == TWord.int 0x34) = true := by decide +kernel
theorem test_andi : nextIs (exec (.andi me0 (pair 1 31 0)) (two (TWord.int 0x1234) TWord.zero))
    (fun t => (t.slot 0 0).g 1 == TWord.int 0x14) = true := by decide +kernel
theorem test_pair_same : tagRaised (.addi me0 (pair 1 31 0x0421)) (two (TWord.int 5) TWord.zero) 0x02 = true := by
  decide +kernel
theorem test_ill : tagRaised (.ill me0 0) (two TWord.zero TWord.zero) 0x02 = true := by decide +kernel

/-- 3 + 2 is 1 for the strand's registers: an addition beside a move of g1. -/
theorem meets_ShortWords : (pair 1 2 0x0441).other = (BitVec.ofNat 5 1 ++ (2 : Reg) ++ (1 : Reg) : BitVec 15) ∧
    issues (two (TWord.int 5) (TWord.int 6)) 1 [1, 2, 2, 1] = true := by decide +kernel
theorem meets_IllegalWords : issues (two TWord.zero TWord.zero) 1 [] = true ∧
    noOperation 0x7C000000 = true ∧ noOperation 0x02312002 = false ∧ ((two TWord.zero TWord.zero).cellImage 0).isShipped = true ∧
    noOperation 0xF4200000 = true ∧
    (pair 1 31 0x7440).other = ((29 : Reg) ++ (2 : Reg) ++ (0 : Reg) : BitVec 15) ∧
    (pair 1 31 0x0001).other = ((0 : Reg) ++ (0 : Reg) ++ (1 : Reg) : BitVec 15) ∧
    (pair 1 31 0x6C41).other = ((27 : Reg) ++ (2 : Reg) ++ (1 : Reg) : BitVec 15) := by decide +kernel

/-- An iterative operation is in flight with its result. -/
def flies (c : Instr) (s : State) (v : TWord) (cycles : Nat) : Bool :=
  nextIs (exec c s) fun t => match (t.slot 0 0).iter with
    | some o => o.writes == [(3, v)] && o.cycles == cycles && (t.slot 0 0).g 3 == TWord.zero
    | none => false

theorem test_mul : flies (.mul me0 (lr 3 1 2)) (two (TWord.int 0x80000000) (TWord.int 0xFFFFFFFF)) (TWord.int 0x80000000) 1 = true := by
  decide +kernel
theorem test_mulh : flies (.mulh me0 (lr 3 1 2)) (two (TWord.int 0x80000000) (TWord.int 0x80000000)) (TWord.int 0x40000000) 4 = true := by
  decide +kernel
theorem test_mulhu : flies (.mulhu me0 (lr 3 1 2)) (two (TWord.int 0xFFFFFFFF) (TWord.int 0xFFFFFFFF)) (TWord.int 0xFFFFFFFE) 4 = true := by
  decide +kernel
theorem test_div : flies (.div me0 (lr 3 1 2)) (two (TWord.int 0xFFFFFFF9) (TWord.int 2)) (TWord.int 0xFFFFFFFD) 2 = true := by
  decide +kernel
theorem test_divu_zero : flies (.divu me0 (lr 3 1 2)) (two (TWord.int 0x80000000) TWord.zero) (TWord.int 0xFFFFFFFF) 1 = true := by
  decide +kernel
theorem test_rem : flies (.rem me0 (lr 3 1 2)) (two (TWord.int 0xFFFFFFF9) (TWord.int 2)) (TWord.int 0xFFFFFFFF) 2 = true := by
  decide +kernel
theorem test_remu : flies (.remu me0 (lr 3 1 2)) (two (TWord.int 0xFFFFFFFF) (TWord.int 1)) TWord.zero 17 = true := by decide +kernel
theorem test_mul_tags : tagRaised (.mul me0 (lr 3 1 2)) (two ⟨Tag.ptr, 1⟩ (TWord.int 1)) 0x01 = true := by decide +kernel

/-- A strand whose multiplication is in flight. -/
def multiplying : State := (work false []).modSlot 0 0 fun t => { t with
  iter := some { pc := 0xFFF, unit := 0, writes := [(3, TWord.int 6)], flags := 0, trap := none, cycles := 1 } }
theorem test_iterative_complete : nextIs (exec (.iterativeComplete 0 0) multiplying)
    (fun t => (t.slot 0 0).g 3 == TWord.int 6 && (t.slot 0 0).iter == none) = true := by decide +kernel
/-- A PFX.TAG with tag 12 before a long word (03 R113, R114): what REMU leaves has that tag, but a POISON. -/
def tagged12 : LongOp := ⟨[.tag 0x1800000], .lr 3 1 false 0 0 2⟩
theorem test_remu_tag : flies (.remu me0 tagged12) (two (TWord.int 7) (TWord.int 4)) ⟨12, 3⟩ 2 = true ∧
    flies (.mul me0 tagged12) (two (TWord.int 7) ⟨Tag.poison, 4⟩) ⟨Tag.poison, 4⟩ 1 = true := by decide +kernel
theorem meets_IterativeOperations_tag : tagged12.legal .lr true true = true ∧
    TagAllowed tagged12 false (TWord.int 3) ∧ TagAllowed tagged12 false ⟨Tag.poison, 0⟩ ∧
    issues (two (TWord.int 7) (TWord.int 4)) 2 tagged12.regs = true ∧ issues (two (TWord.int 7) ⟨Tag.poison, 4⟩) 2 tagged12.regs = true := by
  refine ⟨by decide, ?_, ?_, by decide +kernel, by decide +kernel⟩
  · exact ⟨by decide, by decide, .inr ⟨by decide, by decide⟩⟩
  · exact ⟨by decide, by decide, .inl rfl⟩
theorem meets_IterativeOperations : (lr 3 1 2).legal .lr true true = true ∧
    issues (two (TWord.int 5) (TWord.int 6)) 1 [3, 1, 2] = true ∧
    (∀ j : SlotId, ((two (TWord.int 5) (TWord.int 6)).slot 0 j).iter.map IterOp.unit ≠ some 0) ∧
    ((multiplying.slot 0 0).iter.map IterOp.trap) = some none ∧ (multiplying.slot 0 0).dueMc = none ∧
    (multiplying.slot 0 0).dueDbg = none ∧ (multiplying.slot 0 0).dueTs = false := by decide +kernel

/-- 1.0 and 2^-24 of binary32 and of binary64, in single registers and in pairs (04 R185). -/
def f32 (n : Word) : TWord := ⟨Tag.f32, n⟩
def floats : State := work false [(1, f32 0x3F800000), (2, f32 0x33800000), (4, ⟨Tag.f64h, 0x3FF00000⟩), (5, ⟨Tag.f64l, 0⟩),
  (6, ⟨Tag.f64h, 0x3FF00000⟩), (7, ⟨Tag.f64l, 0⟩), (9, ⟨Tag.ptr, 0⟩), (12, TWord.int 0xFFFFFFFE)]
theorem test_fadd_tie : nextIs (exec (.faddS me0 (lr 3 1 2)) floats)
    (fun t => (t.slot 0 0).g 3 == f32 0x3F800000 && (t.slot 0 0).fpf == FFlags.x) = true := by decide +kernel
theorem test_faddD : nextIs (exec (.faddD me0 (lr 10 4 6)) floats)
    (fun t => (t.slot 0 0).g 10 == ⟨Tag.f64h, 0x40000000⟩ && (t.slot 0 0).g 11 == ⟨Tag.f64l, 0⟩ && (t.slot 0 0).fpf == 0) = true := by
  decide +kernel
theorem test_fmul : gives (.fmulS me0 (lr 3 1 2)) floats 3 (f32 0x33800000) = true := by decide +kernel
theorem test_fma : gives (.fmaS me0 (lr 1 1 1)) floats 1 (f32 0x40000000) = true := by decide +kernel
theorem test_flt : gives (.fltS me0 (lr 3 2 1)) floats 3 (TWord.bool true) = true := by decide +kernel
theorem test_cvt : gives (.cvtSI me0 (lr 3 12 0)) floats 3 (f32 0xC0000000) = true := by decide +kernel
theorem test_fclass : gives (.fclassS me0 (lr 3 1 0)) floats 3 (TWord.int 0x40) = true := by decide +kernel
theorem test_fadd_tags : tagRaised (.faddS me0 (lr 3 1 9)) floats 0x01 = true := by decide +kernel
theorem test_fdiv : nextIs (exec (.fdivS me0 (lr 3 1 1)) floats)
    (fun t => (t.slot 0 0).iter.map (fun o => (o.writes, o.cycles)) == some ([(3, f32 0x3F800000)], 12)) = true := by
  decide +kernel
theorem test_fsqrtD : nextIs (exec (.fsqrtD me0 (lr 10 4 0)) floats)
    (fun t => (t.slot 0 0).iter.map (fun o => (o.writes, o.cycles)) ==
      some ([(10, ⟨Tag.f64h, 0x3FF00000⟩), (11, ⟨Tag.f64l, 0⟩)], 24)) = true := by decide +kernel

theorem meets_FloatingResults : (lr 3 1 2).legal .lr false false = true ∧ issues floats 1 [1, 2, 3] = true ∧
    [((FK.s, 1) : FK × Reg), (.s, 2)].mapM (fun y => (floats.me me0).fval y.1 y.2) = some [0x3F800000, 0x33800000] ∧
    issues floats 1 [4, 5, 6, 7, 10, 11] = true ∧
    [((FK.d, 4) : FK × Reg), (.d, 6)].mapM (fun y => (floats.me me0).fval y.1 y.2) =
      some [0x3FF0000000000000, 0x3FF0000000000000] := by decide +kernel
/-- The inexact trap is enabled (SSR_FPC, 03 R106). -/
theorem meets_FloatingResults_trap :
    let s := floats.modSlot 0 0 fun t => { t with fpc := 0xF8 }
    issues s 1 [1, 2, 3] = true ∧ (fpTrapInfo (s.me me0).enables FFlags.x).isSome = true := by decide +kernel
theorem meets_FloatingIterative : issues floats 1 [4, 5, 6, 7, 10, 11] = true ∧
    ∀ j : SlotId, (floats.slot 0 j).iter.map IterOp.unit ≠ some 2 := by decide +kernel

/-! ### Instruction words and microwords (03 R109 to R118; 06 R245 to R264) -/

/-- Words written out from the layouts: SUB g3 := g1 - g2 (major 0x01, FN 1), LI g3 := -1 (major 0x05, layout LI), SEND of
V g4 to C g5, PORT 2, ITM 3, STMT 9 (major 0x18, layout LS), the pair ADD g1 += g2 and MOV g2 := g1, PFX.IMM 0x10, a
reserved FN of major 0x03, and a reserved major. -/
theorem test_words : decodeWord me0 [] true 0b00000010001100001001000000000010 = some (.sub me0 (.long (lr 3 1 2))) ∧
    decodeWord me0 [] true 0b00001010001100000000111111111111 = some (.li me0 (li 3 0 0x7FF)) ∧
    decodeWord me0 [] true 0b00110000010000101101100000001001 = some (.send me0 { pre := [], v := 4, c := 5, port := 2, itm := 3, stmt := 9 }) ∧
    decodeWord me0 [] true 0b10001000001000100000010001000001 = some (.add me0 (.short (pair 1 2 0x0441))) ∧
    decodeWord me0 [] false 0b10001000001000100000010001000001 =
      some (.mov me0 (.short { d := 2, s := 1, upper := false, other := 0x0822, bit15 := false })) ∧
    decodePfx 0b01111100000000000000000100000000 = some (.imm 0x100) ∧
    decodeWord me0 [] true 0b00000110001100001111000000000010 = none ∧
    decodeWord me0 [] true 0b00001110001100001000000000000010 = none := by decide

/-- A microword by its fields (06 R245): CLEN, SEQ, NEXT, SRCA, SRCB, ALUOP, DEST, TCHK, MEMOP, TOKOP, SSR, IMM16, TRAIL. -/
def mw (clen seq next srcA srcB alu dest tchk mem tok ssr imm trail : Nat) : Nat :=
  clen * 2 ^ 126 + seq * 2 ^ 123 + next * 2 ^ 110 + srcA * 2 ^ 99 + srcB * 2 ^ 93 + alu * 2 ^ 88 + dest * 2 ^ 82 + tchk * 2 ^ 78 +
    mem * 2 ^ 69 + tok * 2 ^ 66 + ssr * 2 ^ 48 + imm * 2 ^ 32 + trail * 2 ^ 31

/-- What a routine finds when a strand sends g4 (INT 7) to g5 (the CTX of frame 1) with ITM 1 at iteration 7. -/
def sendEnv : MicroEnv :=
  { slot := { (strand false [(4, TWord.int 7), (5, ⟨Tag.ctx, 1⟩)]) with its := 0 }
    d := 0, a := 0, b := 0, x := 4, c := 5, imm := 0, itm := 1, fn := 0, untyped := false, immPfx := false, tagPfx := none
    header2 := TWord.zero, header4 := TWord.zero, first := 0x1000, einfo := 0x45, eaddr := 0x77, walker := TWord.zero
    unit := TWord.zero, memory := TWord.zero, vector := 0x9000, holds := [] }

/-- The routine of SEND (06 R263): m0 at issue, m1 and m2 in the trailing lane. -/
def sendRoutine (u : Nat) : Nat :=
  [mw 0 0 1 0x04 0x03 0 0x20 8 0 1 0 0 0, mw 0 0 2 0x16 0x05 24 0x20 0 0 0 0 0 1, mw 0 6 0 0x04 0x03 0 0x20 0 0 2 0 0 1].getD u 0
theorem test_micro_send :
    (microRun sendRoutine sendEnv false 8 0 micro0).1 = .trails 1 ∧
    (microRun sendRoutine sendEnv false 8 0 micro0).2.acts = [.token 1 ⟨Tag.ctx, 1⟩ (TWord.int 7) 0] ∧
    (microRun sendRoutine sendEnv true 8 1 micro0).1 = .ended ∧
    (microRun sendRoutine sendEnv true 8 1 micro0).2.acts = [.token 2 ⟨Tag.ctx, 1⟩ (TWord.int 7) 8] ∧
    (microRun sendRoutine { sendEnv with c := 4 } false 8 0 micro0).1 = .raises 1 0x01 := by decide +kernel

/-- The event-entry routine, e0 to e6, of cause 3 (06 R264). -/
def entryRoutine (u : Nat) : Nat :=
  [mw 0 0 1 0x06 0x13 0 0x20 0 0 0 0x35 3 0, mw 0 0 2 0x12 0x14 0 0x20 0 0 0 0x37 0 0, mw 0 0 3 0x06 0 0 0x20 0 0 0 0x29 1 0,
   mw 3 0 4 0 0 0 0x20 0 0 0 0 0 0, mw 0 0 5 0x1D 0 0 0x08 0 0 0 0 0 0, mw 1 0 6 0 0 0 0x20 0 15 0 0 0 0, mw 0 6 0 0 0 0 0x20 0 0 0 0 0 0].getD u 0
theorem test_micro_entry :
    let r := microRun entryRoutine sendEnv false 12 0 micro0
    let t := sendEnv.slot.afterEntry r.2
    r.1 = .ended ∧ r.2.held = 11 ∧ t.ecause = 3 ∧ t.einfo = 0x45 ∧ t.epc = 0x1000 ∧ t.eaddr = 0x77 ∧ t.sup = true ∧
      t.state = .handler ∧ t.pc = 0x9000 ∧ r.2.prefetches = true := by decide +kernel

/-! ### Branches, sends, windows, time, strand state registers and events -/

/-- Where the strand goes. -/
def goes (c : Instr) (s : State) (pc : Word) : Bool := nextIs (exec c s) fun t => (t.slot 0 0).pc == pc && (t.slot 0 0).state == .run

theorem test_b : goes (.b me0 (li 0 0 0x7FE)) (work false []) 0xFFE = true := by decide +kernel
theorem test_b_long : goes (.b me0 ⟨[.imm 0x10], .li 0 0 0⟩) (work false []) 0x1800 = true := by decide +kernel
theorem test_bz : goes (.bz me0 (li 3 0 4)) (work false []) 0x1004 = true := by decide +kernel
theorem test_bnz : goes (.bnz me0 (li 3 0 4)) (work false []) 0x1001 = true := by decide +kernel
theorem test_bz_tag : tagRaised (.bz me0 (li 1 0 4)) (two ⟨Tag.ptr, 0⟩ TWord.zero) 0x01 = true := by decide +kernel
theorem test_jr : goes (.jr me0 (lr 0 1 0)) (two ⟨Tag.code, 0x1234⟩ TWord.zero) 0x1234 = true := by decide +kernel
theorem test_end : nextIs (exec (.endStrand me0 (.long (lr 0 0 0))) (work false [])) (fun t => (t.slot 0 0).state == .commit) = true := by
  decide +kernel
theorem meets_Branches : (li 3 0 4).legal .li false false = true ∧ (lr 0 1 0).legal .lr false false = true ∧
    ∀ v ∈ [TWord.int 0, TWord.bool true, ⟨Tag.poison, 0⟩, ⟨Tag.code, 4⟩],
      issues (two v TWord.zero) 1 [1] = true ∧ issues (two v TWord.zero) 1 [] = true ∧
      ((two v TWord.zero).me me0).g 1 = v := by decide +kernel

/-- An LS word: the value in g1, the destination or the predicate in g2. -/
def ls (c : Reg) (port itm : BitVec 2) (stmt : BitVec 11) : LsOp := { pre := [], v := 1, c := c, port := port, itm := itm, stmt := stmt }

/-- What stands at the end of the send list. -/
def sends (c : Instr) (s : State) (p : Token → Bool) : Bool :=
  nextIs (exec c s) fun t => (t.slot 0 0).items == 1 && match (t.slot 0 0).sends with
    | [.token k] => p k
    | _ => false
theorem test_send : sends (.send me0 (ls 2 1 1 9)) (two (TWord.int 5) ⟨Tag.ctx, 0x400002⟩)
    (fun k => k.ctx == 0x400002 && k.stmt == 9 && k.iter == 8 && k.port == 1 && k.sid == 5 && k.val == TWord.int 5) = true := by
  decide +kernel
theorem test_send_self : sends (.send me0 (ls 0 2 2 9)) (two (TWord.int 5) TWord.zero)
    (fun k => k.ctx == 1 && k.iter == 0) = true := by decide +kernel
theorem test_sendE : nextIs (exec (.sendE me0 (ls 0 2 2 9)) (two (TWord.int 5) TWord.zero))
    (fun t => (t.slot 0 0).state == .commit) = true := by decide +kernel
theorem test_switch : sends (.switch me0 (ls 2 2 0 9)) (two (TWord.int 5) (TWord.bool false))
    (fun k => k.ctx == 1 && k.stmt == 10 && k.iter == 7) = true := by decide +kernel
theorem test_sendx : sends (.sendx me0 (ls 2 2 0 9)) ((work true [(1, TWord.int 5), (2, ⟨Tag.ctx, 3⟩)]).modSlot 0 0
    fun t => { t with xsid := 77 }) (fun k => k.ctx == 3 && k.sid == 77) = true := by decide +kernel
theorem test_sendx_user : tagRaised (.sendx me0 (ls 2 2 0 9)) (two (TWord.int 5) ⟨Tag.ctx, 3⟩) 0x03 = true := by decide +kernel
theorem meets_Sends : (ls 2 1 1 9).legal = true ∧ issues (two (TWord.int 5) ⟨Tag.ctx, 0x400002⟩) 1 [1, 2] = true ∧
    issues (two (TWord.int 5) (TWord.bool true)) 1 [1, 2] = true ∧
    issues (work true [(1, TWord.int 5), (2, ⟨Tag.ctx, 3⟩)]) 1 [1, 2] = true := by decide +kernel

theorem test_winset : nextIs (exec (.winset me0 (lr 0 1 0)) (two (TWord.int 512) TWord.zero))
    (fun t => (t.slot 0 0).wins == [.winset 512]) = true := by decide +kernel
theorem test_winset_range : tagRaised (.winset me0 (lr 0 1 0)) (two (TWord.int 513) TWord.zero) 0x0F = true := by decide +kernel
theorem test_iretire : nextIs (exec (.iretire me0 (lr 0 1 0)) (two (TWord.int 511) TWord.zero))
    (fun t => (t.slot 0 0).wins == [.retire 511]) = true := by decide +kernel
def timed : State := { work false [(1, TWord.int 1), (2, TWord.int 16)] with now := 0x500000007 }
theorem test_rdtime : gives (.rdtime me0 (li 3 0 0)) timed 3 (TWord.int 7) = true := by decide +kernel
theorem test_agree_high : gives (.agree me0 (lr 3 1 0)) timed 3 (TWord.int 5) = true := by decide +kernel
theorem meets_WindowsAndTime : (lr 0 1 0).legal .lr false false = true ∧ (li 3 0 2).legal .both false false = true ∧
    (([0, 1, 2, 15, 16, 31, 32, 511, 512, 513, 1023, 1024] : List Word).all fun n => issues (two (TWord.int n) TWord.zero) 1 [3, 1]) = true ∧
    ((two TWord.zero TWord.zero).frame 1).base = 0 := by
  decide +kernel

theorem test_rdsr : gives (.rdsr me0 (li 3 0 9)) (work true []) 3 (TWord.int 1) = true := by decide +kernel
theorem test_rdsr_user : tagRaised (.rdsr me0 (li 3 0 5)) (work false []) 0x03 = true := by decide +kernel
theorem test_wrsr : nextIs (exec (.wrsr me0 (li 1 0 0)) (two (TWord.int 0x12345) TWord.zero))
    (fun t => (t.slot 0 0).its == 0x345) = true := by decide +kernel
theorem test_wrsr_ro : tagRaised (.wrsr me0 (li 1 0 9)) (work true [(1, TWord.int 0)]) 0x0F = true := by decide +kernel
/-- SID 5 is bound to partition 1 (08 R329), so that SSR_XSID may take it. -/
theorem meets_StrandRegisters : (li 1 0 3).legal .both false false = true ∧ (lr 3 1 0).legal .both false false = true ∧
    issues (work true [(1, TWord.int 3)]) 1 [1, 0] = true ∧ issues (two (TWord.int 10) TWord.zero) 1 [3, 1] = true ∧
    (work true [(1, TWord.int 5)]).sidBoundTo 5 1 = true := by decide +kernel

/-- A strand in its handler, at a vector whose words the prefetch store holds. -/
def handling : State :=
  let s := (work false [(1, ⟨Tag.code, 0x1008⟩)]).modSlot 0 0 fun t => { t with
    state := .handler
    ecause := 1
    epc := 0x1000
    sup := true
    afterSvc := 1
    pc := 0x9000 }
  s.modCell 0 fun c => { c with
    vectors := [(1, 0x9000)]
    buf := some ⟨0, [], some (0x9000, 0)⟩
    prefetch := [(0, TWord.int 0)] }
theorem test_svc : nextIs (exec (.svc me0 (li 0 0 0x123)) ((work false []).modCell 0 fun c => { c with vectors := [(1, 0x9000)] }))
    (fun t => (t.slot 0 0).state == .handler && (t.slot 0 0).ecause == 1 && (t.slot 0 0).einfo == 0x123 &&
      (t.slot 0 0).epc == 0x1000 && (t.slot 0 0).pc == 0x9000 && (t.slot 0 0).sup) = true := by decide +kernel
theorem test_eret_svc : goes (.eret me0 (lr 0 0 0)) handling 0x1001 = true := by decide +kernel
theorem test_eret_code : goes (.eret me0 (lr 0 1 0)) handling 0x1008 = true := by decide +kernel
theorem meets_EventsAndReturn : issues (work false []) 1 [] = true ∧ (work false []).reg (pmcCell 0 + 0xC0) = 0 ∧
    ((work false []).me me0).state ≠ .handler ∧ issues handling 1 [1] = true ∧ (handling.me me0).sup = true ∧
    (handling.me me0).state = .handler ∧ (handling.me me0).dueTs = false := by decide +kernel

/-! ### Memory access -/

theorem test_lds : gives (.lds me0 (.long (li 3 0 9))) ((work false []).modFrame 1 fun f => { f with slots := [(9, TWord.int 4)] })
    3 (TWord.int 4) = true := by decide +kernel
theorem test_lds_range : tagRaised (.lds me0 (.long (li 3 0 224))) (work false []) 0x0F = true := by decide +kernel
theorem test_sts : nextIs (exec (.sts me0 (.long (li 1 0 223))) (two (TWord.int 4) TWord.zero))
    (fun t => t.slotWord 0 0 1 223 == TWord.int 4 && (t.frame 1).slots.isEmpty) = true := by decide +kernel
theorem meets_FrameSlots : (li 1 0 223).legal .both false false = true ∧
    (([TWord.int 4, TWord.empty, ⟨Tag.defer, 0⟩, ⟨Tag.sys, 0⟩] : List TWord).all fun v =>
      issues (two v TWord.zero) 1 [1, 0]) = true ∧
    (two TWord.zero TWord.zero).storesOf 0 0 = [] ∧ ((two TWord.zero TWord.zero).cell 0).stbuf.length = 0 ∧
    (li 1 0 224).opB (strand false []) = TWord.int 224 := by decide +kernel

/-- The cell holds the line of the words 0x3000 to 0x300F of the space, and the cluster its sector with X: word 0 and word 1
are INT, word 2 CTX and word 3 DEFER. -/
def sector : List TWord := [TWord.int 0x80818283, TWord.int 0x90919293, ⟨Tag.ctx, 7⟩, ⟨Tag.defer, 1⟩] ++ List.replicate 12 TWord.empty
def cached (x : TWord) : State :=
  let s := two ⟨Tag.ptr, 0x3000⟩ x
  let s := s.modCell 0 fun c => c.fillLine 0x8300
  s.modCluster 0 fun c => { c with ways := [((0x20C0 % 4096) * 16, { block0 with
    block := 0x20C0
    used := true
    sectors := [(0, { st := 2, dirty := true, data := sector })] })] }
def long (f : Iss → LongOp → Instr) (o : BitVec 11) : Instr := f me0 (li 3 1 o)

theorem test_ld : gives (.ld me0 (li 3 1 2)) (cached TWord.zero) 3 ⟨Tag.ctx, 7⟩ = true := by decide +kernel
theorem test_ld_defer : gives (.ld me0 (li 3 1 3)) (cached TWord.zero) 3 TWord.empty = true := by decide +kernel
theorem test_ldb : gives (.ldb me0 (li 3 1 3)) (cached TWord.zero) 3 (TWord.int 0xFFFFFF80) = true := by decide +kernel
theorem test_ldbu : gives (.ldbu me0 (li 3 1 1)) (cached TWord.zero) 3 (TWord.int 0x82) = true := by decide +kernel
theorem test_ldh : gives (.ldh me0 (li 3 1 2)) (cached TWord.zero) 3 (TWord.int 0xFFFF8081) = true := by decide +kernel
theorem test_ldhu_split : gives (.ldhu me0 (li 3 1 3)) (cached TWord.zero) 3 (TWord.int 0x9380) = true := by decide +kernel
theorem test_ldx_split : gives (.ldx me0 (li 3 1 1)) (cached TWord.zero) 3 (TWord.int 0x93808182) = true := by decide +kernel
theorem test_ldb_tag : tagRaised (.ldb me0 (li 3 1 8)) (cached TWord.zero) 0x0A = true := by decide +kernel
theorem meets_CachedLoads : issues (cached TWord.zero) 1 [3, 1] = true ∧ ((cached TWord.zero).me me0).loadsBound = true ∧
    reaches (cached TWord.zero) 0x3002 accLoad (page 3 true) 0x83002 = true ∧
    reaches (cached TWord.zero) 0x3000 accSubLoad (page 3 true) 0x83000 = true ∧
    reaches (cached TWord.zero) 0x3001 accSubLoad (page 3 true) 0x83001 = true ∧
    ((cached TWord.zero).cell 0).hasLine (sectorOf 0x83002) = true ∧ (cached TWord.zero).ownStores 0 0 = [] ∧
    (cached TWord.zero).lineWord 0 0x83001 = TWord.int 0x90919293 := by decide +kernel

/-- The last entry of the store buffer. -/
def stored (c : Instr) (s : State) (k : StKind) (w : Nat) (m : BitVec 4) (v : TWord) : Bool :=
  nextIs (exec c s) fun t => match (t.cell 0).stbuf with
    | [e] => e.kind == k && e.addr == w && e.mask == m && e.val == v && decide (t.mem = s.mem)
    | _ => false
def storing (v : TWord) : State := (cached TWord.zero).modSlot 0 0 fun t => { t with regs := Map.set TWord.zero t.regs 3 v }
theorem test_st : stored (.st me0 (li 3 1 2)) (storing ⟨Tag.code, 5⟩) .word 0x83002 15 ⟨Tag.code, 5⟩ = true := by decide +kernel
theorem test_st_defer : tagRaised (.st me0 (li 3 1 3)) (storing (TWord.int 5)) 0x09 = true := by decide +kernel
theorem test_stb : stored (.stb me0 (li 3 1 3)) (storing (TWord.int 0x105)) .sub 0x83000 8 (TWord.int 0x05000000) = true := by
  decide +kernel
theorem test_sth_tag : tagRaised (.sth me0 (li 3 1 8)) (storing (TWord.int 5)) 0x0A = true := by decide +kernel
theorem test_sth : stored (.sth me0 (li 3 1 2)) (storing (TWord.int 0xABCD)) .sub 0x83000 12 (TWord.int 0xABCD0000) = true := by
  decide +kernel
theorem test_stx : nextIs (exec (.stx me0 (li 3 1 1)) (storing (TWord.int 0x44332211)))
    (fun t => (t.cell 0).stbuf.map (fun e => (e.addr, e.mask, e.val)) ==
      [(0x83000, 14, TWord.int 0x33221100), (0x83001, 1, TWord.int 0x44)]) = true := by decide +kernel
theorem meets_Stores : issues (storing (TWord.int 5)) 1 [3, 1] = true ∧
    reaches (storing (TWord.int 5)) 0x3002 accStore (page 3 true) 0x83002 = true ∧
    reaches (storing (TWord.int 5)) 0x3000 accSubStore (page 3 true) 0x83000 = true ∧
    reaches (storing (TWord.int 5)) 0x3001 accSubStore (page 3 true) 0x83001 = true ∧
    (storing (TWord.int 5)).peek 0x83003 = ⟨Tag.defer, 1⟩ ∧ (storing (TWord.int 5)).peek 0x83002 = ⟨Tag.ctx, 7⟩ ∧
    (storing (TWord.int 5)).peek 0x83004 = TWord.empty ∧ ((storing (TWord.int 5)).cell 0).stbuf = [] := by decide +kernel

/-- An LS word: the index in V, the pointer in g1. -/
def lsAt (port : BitVec 2) (stmt : BitVec 11) : LsOp := { pre := [], v := 0, c := 1, port := port, itm := 0, stmt := stmt }
theorem test_ldp : nextIs (exec (.ldp me0 (lsAt 1 9)) (cached TWord.zero)) (fun t => match (t.slot 0 0).sends with
    | [.request q] => !q.fetch && q.addr == 0x83000 && q.resp.ctx == 1 && q.resp.stmt == 9 && q.resp.port == 1
    | _ => false) = true := by decide +kernel
theorem test_ifetch : nextIs (exec (.ifetch me0 (lsAt 1 9)) (cached TWord.zero)) (fun t => match (t.slot 0 0).sends with
    | [.request q] => q.fetch && q.va == 0x3000
    | _ => false) = true := by decide +kernel
theorem meets_SplitPhaseRequests : (lsAt 1 9).legal = true ∧ issues (cached TWord.zero) 1 [0, 1] = true ∧
    reaches (cached TWord.zero) 0x3000 accSplit (page 3 true) 0x83000 = true ∧ ((cached TWord.zero).me me0).items = 0 := by
  decide +kernel

theorem test_istore : nextIs (exec (.istore me0 (li 3 1 2)) (storing (TWord.int 5))) (fun t => t.wire ==
    [.hop (homeOf 0 0x83002) 0 0x83002 (.istore 0 0 1 (TWord.int 5))]) = true := by decide +kernel
theorem test_iclear : nextIs (exec (.iclear me0 (li 0 1 2)) (storing (TWord.int 5))) (fun t => t.wire ==
    [.hop (homeOf 0 0x83002) 0 0x83002 (.iclear 0 0)] && (t.slot 0 0).wait != .none) = true := by decide +kernel
theorem meets_HomeOperations : issues (storing (TWord.int 5)) 1 [3, 1] = true ∧ cfGoes (storing (TWord.int 5)) true = true ∧
    reaches (storing (TWord.int 5)) 0x3002 accHomeW (page 3 true) 0x83002 = true ∧
    (cfAt (storing (TWord.int 5)) true).isOwn 0x83000 = true := by decide +kernel

theorem test_loadr : nextIs (exec (.loadr me0 (li 3 1 2)) (cached TWord.zero)) (fun t =>
    (t.slot 0 0).resv == some 0x8300 && (t.slot 0 0).loads.map (fun l => (l.reg, l.parts)) == [(3, [(0x83002, some ⟨Tag.ctx, 7⟩)])]) = true := by
  decide +kernel
def reserved (sec : Option Nat) : State := (cached (TWord.int 5)).modSlot 0 0 fun t => { t with resv := sec }
theorem test_storec : nextIs (exec (.storec me0 (lr 3 1 2)) (reserved (some 0x8300))) (fun t =>
    (t.slot 0 0).g 3 == TWord.bool true && (t.slot 0 0).resv == none &&
      wordOf ((t.cluster 0).sectorAt 0x8300).data 0x83000 == TWord.int 5) = true := by decide +kernel
theorem test_storec_lost : gives (.storec me0 (lr 3 1 2)) (reserved none) 3 (TWord.bool false) = true := by decide +kernel
theorem meets_ReservedPair : issues (cached TWord.zero) 1 [3, 1] = true ∧
    reaches (cached TWord.zero) 0x3002 accHomeR (page 3 true) 0x83002 = true ∧ (cached TWord.zero).pantryOf 0x83002 = none ∧
    ((cached TWord.zero).clusterRead 0 1 0x83002).1 = .hit ⟨Tag.ctx, 7⟩ ∧
    (((cached TWord.zero).clusterRead 0 1 0x83002).2.cluster 0).writable 0x8300 = true ∧
    ((cached TWord.zero).clusterRead 0 1 0x83002).2.reg (pmcCell 0 + 0xC0) = 0 ∧
    issues (reserved (some 0x8300)) 1 [3, 1, 2] = true ∧ cfGoes (reserved (some 0x8300)) true = true ∧
    reaches (reserved (some 0x8300)) 0x3000 accHomeW (page 3 true) 0x83000 = true ∧
    (let v := cfAt (reserved (some 0x8300)) true
     (v.storecForced 0).1 = false ∧ v.pantryOf 0x83000 = none ∧ (v.cluster 0).writable 0x8300 = true ∧
       (v.cluster 0).combineOf 0x8300 = none ∧ (v.cluster 0).porchOf 0x8300 = none ∧
       ((v.cluster 0).sectorAt 0x8300).data.length = 16) := by decide +kernel

theorem test_fence : gives (.fence me0 (lr 3 0 0)) (work false []) 3 (TWord.bool true) = true := by decide +kernel
theorem test_fence_lost : gives (.fenceSS me0 (lr 3 0 0)) ((work false []).modSlot 0 0 fun t => { t with storeLost := true })
    3 (TWord.bool false) = true := by decide +kernel
theorem test_fenceLL : gives (.fenceLL me0 (lr 3 0 0)) (work false []) 3 (TWord.bool true) = true := by decide +kernel
theorem meets_Fences : (lr 3 0 0).legal .lr false false = true ∧ issues (work false []) 1 [3] = true ∧
    issues (work false []) 1 [] = true ∧ ((work false []).me me0).allWritten = true ∧ (work false []).awaitsTwin 0 0 = false ∧
    ((work false []).commitPoint 0 0 0x1000).storesOf 0 0 = [] ∧
    ((work false []).commitPoint 0 0 0x1000).reg (pmcCell 0 + 0xC0) = 0 := by decide +kernel

/-- A supervisor with the pointer 0x4002 in g1. -/
def supAt (x : TWord) : State := work true [(1, ⟨Tag.ptr, 0x4002⟩), (2, x)]
theorem test_clean : stored (.cmaintClean me0 (lr 0 1 2)) (supAt (TWord.int 1)) .clean 0x84003 0 TWord.zero = true := by decide +kernel
theorem test_zero : stored (.cmaintZero me0 (lr 0 1 2)) (supAt (TWord.int 1)) .zero 0x84003 0 TWord.zero = true := by decide +kernel
theorem test_cmaint_user : tagRaised (.cmaintFlush me0 (lr 0 1 2)) (cached (TWord.int 0)) 0x03 = true := by decide +kernel
theorem meets_CacheMaintenance : (lr 0 1 2).legal .lr false false = true ∧ issues (supAt (TWord.int 1)) 1 [0, 1, 2] = true ∧
    reaches (supAt (TWord.int 1)) 0x4003 { kind := 1, needR := true } (page 4 false) 0x84003 = true ∧
    reaches (supAt (TWord.int 1)) 0x4003 accSubStore (page 4 false) 0x84003 = true ∧
    ((cached TWord.zero).me me0).sup = false := by decide +kernel

theorem test_tlbi : nextIs (exec (.tlbiVa me0 (lr 0 1 2)) (supAt (TWord.int 5))) (fun t =>
    (t.cell 0).tlb == [page 1 true, page 2 false, page 3 true] && (t.slot 0 0).wait == .tlbi 1) = true := by decide +kernel
theorem test_tlbi_sid : nextIs (exec (.tlbiSid me0 (lr 0 0 2)) (supAt (TWord.int 5))) (fun t => (t.cell 0).tlb == []) = true := by
  decide +kernel
theorem test_tlbi_ack : nextIs (exec (.tlbInvalidateAck 0 0) ((work true []).modSlot 0 0 fun t => { t with wait := .tlbi 1 }))
    (fun t => (t.slot 0 0).wait == .none) = true := by decide +kernel
theorem meets_TlbInvalidation : issues (supAt (TWord.int 5)) 1 [0, 1, 2] = true ∧ issues (supAt (TWord.int 5)) 1 [0, 0, 0] = true ∧
    ((supAt (TWord.int 5)).me me0).allWritten = true ∧ (supAt (TWord.int 5)).awaitsTwin 0 0 = false ∧
    ((supAt (TWord.int 5)).commitPoint 0 0 0x2000).storesOf 0 0 = [] ∧ (supAt (TWord.int 5)).sidBoundTo 5 1 = true := by
  decide +kernel

/-! ### Contexts, work and submissions -/

/-- Partition 1 has cells 0 and 1 and a quota of 64 frames of its span, this module. -/
def peopled (sup : Bool) (g : Map TWord) : State := (work sup g).setPart 1 { part0 with
  isLive := true
  cells := [0, 1]
  memMib := 2
  quota := 64
  span := [0]
  weights := [(0, 1)] }
theorem test_alloc_none : gives (.alloc me0 (lr 3 1 2)) (work false [(1, ⟨Tag.code, 0x1000⟩), (2, TWord.int 0x4000)]) 3 TWord.zero = true := by
  decide +kernel
theorem meets_Allocation : issues (peopled false [(1, ⟨Tag.code, 0x1000⟩), (2, TWord.int 0x4000)]) 1 [3, 1, 2] = true ∧
    badHint 0x4000 = false ∧ bit (0x4000 : Word) 14 = true ∧
    cfGoes (peopled false [(1, ⟨Tag.code, 0x1000⟩), (2, TWord.int 0x4000)]) false = true ∧
    (⟨[.imm 0], .li 2 1 9⟩ : LongOp).legal .li false false = true ∧
    (cfAt (work false [(1, ⟨Tag.code, 0x1000⟩), (2, TWord.int 0x4000)]) false).place
      (placing 1 0 0x4000 none false) frame0 = none := by decide +kernel

/-- The own frame is in the context map; the span's rotation is at module 1. -/
def placer (local_ : Bool) : State :=
  { (peopled false [(1, ⟨Tag.code, 0x1000⟩), (2, TWord.int (if local_ then 0x4000 else 0))]).modPart 1 fun p => { p with
    weights := if local_ then p.weights else [(1, 1)] } with
    ctxMap := [(1, { ctxEnt0 with valid := true })] }
def toPlace : State := cfAt (placer true) false
theorem toPlace_free (n : Nat) : ∃ f, toPlace.draw.2.freeFrameFrom 3 n = some f ∧ f ≠ 0 ∧ f ≠ 1 := by
  have h (k : BitVec 20) : (toPlace.draw.2.ctxEnt k).valid = decide (k = 1) := by
    have m : toPlace.draw.2.ctxMap = [(1, { ctxEnt0 with valid := true })] := by decide +kernel
    simp only [State.ctxEnt, m, Map.get]
    by_cases e : k = 1
    · subst e; decide
    · have : (1 : Nat) ≠ k.toNat := fun w => e (BitVec.eq_of_toNat_eq (by simpa using w.symm))
      simp [this, ctxEnt0]
      exact e
  simp only [State.freeFrameFrom, h, decide_eq_false_iff_not]
  have e0 (k : Nat) : BitVec.ofNat 20 k = 0 ↔ k % 2 ^ 20 = 0 := by simp [← BitVec.toNat_inj]
  have e1 (k : Nat) : BitVec.ofNat 20 k = 1 ↔ k % 2 ^ 20 = 1 := by simp [← BitVec.toNat_inj]
  by_cases c1 : BitVec.ofNat 20 n ≠ 0 ∧ ¬BitVec.ofNat 20 n = 1
  · exact ⟨_, if_pos c1, c1⟩
  by_cases c2 : BitVec.ofNat 20 (n + 1) ≠ 0 ∧ ¬BitVec.ofNat 20 (n + 1) = 1
  · exact ⟨_, by rw [if_neg c1, if_pos c2], c2⟩
  have c3 : BitVec.ofNat 20 (n + 1 + 1) ≠ 0 ∧ ¬BitVec.ofNat 20 (n + 1 + 1) = 1 := by
    simp only [ne_eq, e0, e1] at c1 c2 ⊢
    omega
  exact ⟨_, by rw [if_neg c1, if_neg c2, if_pos c3], c3⟩
/-- It places a context on the module, on a frame that is not its own. -/
theorem meets_Allocation_placed : ∃ ctx y, toPlace.place (placing 1 0 0x4000 (some (toPlace.frame 1)) false) { frame0 with
      sid := 5
      code := 0x1000 } = some (ctx, y) ∧ ctx ≠ 0 ∧ frameOf ctx ≠ 1 ∧ y.reg (pmcCell 0 + 0xC0) = 0 := by
  have hb : toPlace.bestCell (placing 1 0 0x4000 (some (toPlace.frame 1)) false)
      (toPlace.candidates (placing 1 0 0x4000 (some (toPlace.frame 1)) false)) = some 0 := by decide +kernel
  have hq : ¬((toPlace.part 1).quota ≤ toPlace.framesHeld 1) := by decide +kernel
  have hm : toPlace.hier.modn = 0 := by decide +kernel
  have hr : toPlace.reg (pmcCell 0 + 0xC0) = 0 := by decide +kernel
  have hl : toPlace.draw.2.ctxMap.length + 2 = 3 := by decide +kernel
  obtain ⟨f, hf, h0, h1⟩ := toPlace_free (toPlace.draw.1.toNat % 2 ^ 20)
  have hp : (placing 1 0 0x4000 (some (toPlace.frame 1)) false).part = 1 := rfl
  have ha : (placing 1 0 0x4000 (some (toPlace.frame 1)) false).aff = 0 := by decide
  have hc : toPlace.draw.2.ctxOf f = (0 : BitVec 12) ++ f := by
    show toPlace.hier.modn ++ f = _
    rw [hm]
  have hz : ((0 : BitVec 12) ++ f).setWidth 20 = f := by
    rw [BitVec.setWidth_append]
    simp
  have key (u : State) (h : u.reg (pmcCell 0 + 0xC0) = 0) : (u.pmc 0 none 0x40).reg (pmcCell 0 + 0xC0) = 0 := by
    rw [State.pmc_off _ _ h]; exact h
  simp only [State.place, hb, State.settle, hp, hq, if_false, hl, hf, ha, if_true]
  refine ⟨_, _, rfl, ?_, ?_, ?_⟩
  · rw [hc]; intro e; apply h0; rw [← hz, e]; rfl
  · rw [hc]; intro e; apply h1; rw [← hz]; exact e
  · exact key _ hr
theorem meets_Allocation_peer : bit (0 : Word) 14 = false ∧ badHint 0 = false ∧ issues (placer false) 1 [3, 1, 2] = true ∧
    cfGoes (placer false) false = true ∧
    ((cfAt (placer false) false).part 1).rotate (cfAt (placer false) false).hier.modn = 1 ∧
    ((cfAt (placer false) false).part 1).weights ≠ [] := by decide +kernel

def complete (sid : BitVec 16) : State := (two ⟨Tag.ctx, 2⟩ TWord.zero).setFrame 2 { frame0 with
  sid := sid
  part := 1
  ctx := 2
  state := stComplete }
theorem test_free : nextIs (exec (.free me0 (lr 3 1 0)) (complete 5))
    (fun t => (t.slot 0 0).g 3 == TWord.bool true && (t.frame 2).state == stFree) = true := by decide +kernel
theorem test_free_other : gives (.free me0 (lr 3 1 0)) (complete 6) 3 (TWord.bool false) = true := by decide +kernel
/-- A frame of module 1 is asked for there; g0 names the own context; an operand that is no CTX is refused. -/
theorem test_free_peer : nextIs (exec (.free me0 (lr 3 1 0)) (two ⟨Tag.ctx, 0x100002⟩ TWord.zero))
    (fun t => t.out == [.freeFrame 0x100002 5]) = true := by decide +kernel
theorem test_free_own : gives (.free me0 (lr 3 0 0)) (work false []) 3 (TWord.bool false) = true := by decide +kernel
theorem test_free_tag : tagRaised (.free me0 (lr 3 1 0)) (two (TWord.int 2) TWord.zero) 0x01 = true := by decide +kernel
theorem meets_Freeing_else : ctxModule 0x100002 ≠ (cfAt (two ⟨Tag.ctx, 0x100002⟩ TWord.zero) false).hier.modn ∧
    issues (two ⟨Tag.ctx, 0x100002⟩ TWord.zero) 1 [3, 1] = true ∧ cfGoes (two ⟨Tag.ctx, 0x100002⟩ TWord.zero) false = true ∧
    issues (two ⟨Tag.poison, 0⟩ TWord.zero) 1 [3, 1] = true := by decide +kernel
theorem meets_Freeing : (lr 3 1 0).legal .lr false false = true ∧ issues (complete 5) 1 [3, 1] = true ∧
    cfGoes (complete 5) false = true ∧ ((cfAt (complete 5) false).frame 2).state = stComplete := by decide +kernel

/-- Queue 2 of partition 1 is bound, with an item that waits (07 R310, R311). -/
def item1 : WItem :=
  { id := 1, part := 1, queue := 2, desc := 0x3100, sid := 5, flow := none, seq := 0, taken := false, taker := none, releases := 0
    ended := false, finished := false, abandoned := false, tn := 0 }
def queued (items : List WItem) (g : Map TWord) : State := { (work false g).setWorkq 1 2 { workq0 with
  bound := true
  sid := 5
  items := items.map WItem.id } with items := items }
theorem test_workget : nextIs (exec (.workget me0 (li 3 0 2)) (queued [item1] [])) (fun t =>
    (t.slot 0 0).g 3 == ⟨Tag.ptr, 0x3100⟩ && t.items.map (fun i => (i.taken, i.taker)) == [(true, some 1)]) = true := by decide +kernel
theorem test_workget_parks : nextIs (exec (.workget me0 (li 3 0 2)) (queued [] [])) (fun t =>
    (t.slot 0 0).state == .parked && (t.cell 0).parked == [0] && (t.workq 1 2).parked == [(0, 0)]) = true := by decide +kernel
def parked1 : State := ((queued [] []).modSlot 0 0 fun t => { t with
  state := .parked
  wait := .work 1 2 3 0x1001 }).modCell 0 fun c => { c with parked := [0] }
theorem test_workget_timeout : nextIs (exec (.workgetTimeout 0 0) parked1) (fun t =>
    (t.slot 0 0).wait == .none && (t.slot 0 0).pc == 0x1001 && (t.cell 0).parked == []) = true := by decide +kernel
theorem test_fldone : nextIs (exec (.fldone me0 (lr 0 1 0)) (queued [{ item1 with taken := true }] [(1, ⟨Tag.ptr, 0x3100⟩)]))
    (fun t => (t.slot 0 0).pc == 0x1001 && t.items.all fun i => i.ended) = true := by decide +kernel
theorem test_flcommit : nextIs (exec (.flcommit me0 (lr 0 1 0)) (queued [{ item1 with taken := true }] [(1, ⟨Tag.ptr, 0x3100⟩)]))
    (fun t => (t.slot 0 0).pc == 0x1001) = true := by decide +kernel
theorem test_release_free : nextIs (exec (.releaseStoreFree 0 0) ((work false []).modSlot 0 0 fun t => { t with wait := .release none }))
    (fun t => (t.slot 0 0).wait == .none) = true := by decide +kernel
theorem meets_Work : issues (queued [item1] []) 1 [3, 0] = true ∧ ((queued [item1] []).workq 1 2).bound = true ∧
    (queued [item1] []).nextItem 1 2 = some item1 ∧ (queued [] []).nextItem 1 2 = none ∧
    ((queued [] []).cell 0).parked.length = 0 ∧ (parked1.quietNs 1).isSome = true ∧
    (let s := queued [{ item1 with taken := true }] [(1, ⟨Tag.ptr, 0x3100⟩)]
     issues s 1 [1] = true ∧ s.itemAt 1 5 0x3100 = some { item1 with taken := true } ∧ cfGoes s false = true ∧
       ((cfAt s false).endItem 1).reg (pmcCell 0 + 0xC0) = 0 ∧ (s.submitRelease { item1 with taken := true } (.memory [])).1 = .passed) ∧
    (work false []).storeUsed < 65536 := by decide +kernel

/-- Slice 0 of the AES class is bound to SID 5 with a depth of 1. -/
def sliced (st : BitVec 2) (sid : BitVec 16) : State :=
  (work false [(1, ⟨Tag.ptr, 0x3200⟩), (2, TWord.int 0x100)]).setEclass 1 { eclass0 with slices := [(0, { slice0 with
    state := st
    sid := sid
    part := 1
    depth := 1 })] }
def statusIs (c : Instr) (s : State) (n : Word) : Bool := nextIs (exec c s) fun t => (t.slot 0 0).g 3 == TWord.int n
theorem test_esubmit_sid : statusIs (.esubmit me0 (lr 3 1 2)) (sliced slActive 6) 2 = true := by decide +kernel
theorem test_lcommit_form : statusIs (.lcommit me0 (lr 3 1 0)) (sliced slActive 5) 3 = true := by decide +kernel
theorem test_mbxSend_range : statusIs (.mbxSend me0 (lr 3 1 2)) (work true [(1, TWord.int 32), (2, ⟨Tag.ptr, 0x4000⟩)]) 4 = true := by
  decide +kernel
theorem test_mbxPoll : statusIs (.mbxPoll me0 (lr 3 1 0)) (work true [(1, TWord.int 3)]) 0 = true := by decide +kernel
theorem test_cstart : statusIs (.cstart me0 (lr 3 1 2)) (work true [(1, ⟨Tag.ptr, 0x4000⟩), (2, TWord.int 0)]) 2 = true := by
  decide +kernel
theorem meets_Submissions : issues (sliced slActive 6) 1 [3, 1, 2] = true ∧ cfGoes (sliced slActive 6) true = true ∧
    ((cfAt (sliced slActive 6) true).readDesc 5 0x3200 16).1 = some (List.replicate 16 TWord.empty) ∧
    (cfAt (sliced slActive 5) true).lcommitRefused 5 1 0x3200 (List.replicate 12 TWord.empty) none = some 3 ∧
    issues (work true [(1, TWord.int 32), (2, ⟨Tag.ptr, 0x4000⟩)]) 1 [3, 1, 2] = true ∧
    reaches (work true [(1, TWord.int 3), (2, ⟨Tag.ptr, 0x4000⟩)]) 0x4000 accSubLoad (page 4 false) 0x84000 = true ∧
    reaches (work true [(1, TWord.int 3), (2, ⟨Tag.ptr, 0x4000⟩)]) 0x4000 accSubStore (page 4 false) 0x84000 = true := by
  decide +kernel

/-! ### The front end of a cell -/

/-- Whether a command completes. -/
def completes (c : Instr) (s : State) : Bool := nextIs (exec c s) fun _ => true

/-- Partition 1's Cellar: its descriptor at 0x1040, a pool of 64 buckets at 0x300000, the first free one 1 (02 R62). -/
def housed : State :=
  let s := (work false []).setReg (clcBase 0 + 0x808) 0x1000
  let s := s.setDescWord 1 0 0x300000
  let s := s.setDescWord 1 12 64
  let s := s.setDescWord 1 16 1
  (s.setDescWord 1 20 63).modCell 0 fun c => { c with hdr := [1] }

/-- A token of the strand's space for frame 1. -/
def tok (port : BitVec 2) (n : Word) : Token := mkToken 1 3 7 port 0 5 (TWord.int n)
def from0 : Sender := ⟨.cell 0, 1⟩
def copyOf (t : Token) : Retained := { snd := from0, tok := t, ctx := none, report := false, split := false, state := .flight, fails := 0 }
def coming (t : Token) : State := { housed.modCluster 0 fun c => { c with mapCache := [(1, 0)] } with
  retained := [copyOf t]
  ids := 2 }

theorem test_accept : nextIs (exec (.tokenAccept 0 (tok 2 9) from0 0 .direct) (coming (tok 2 9))) (fun u =>
    (u.cell 0).inq.map (fun q => q.tok) == [tok 2 9] && (u.frame 1).count == 4) = true := by decide +kernel
theorem test_accept_check : nextIs (exec (.tokenAccept 0 { tok 2 9 with check := 0 } from0 0 .direct) (coming (tok 2 9)))
    (fun u => (u.cell 0).inq == [] && (u.frame 1).count == 3) = true := by decide +kernel
theorem test_check_differs : tokenCheck (tok 2 9) ≠ 0 := by decide +kernel
/-- The conditions of `ReachesTk`, for a token with a right CHECK and for one with a wrong one. -/
theorem meets_TokensReachTk : ∀ t ∈ [tok 2 9, { tok 2 9 with check := 0 }], (coming (tok 2 9)).copyMatches t from0 = true ∧
    Machine.sourceOk from0.who 0 = true ∧ ctxModule t.ctx = 0 ∧ (coming t).cellOf (frameOf t.ctx) = 0 ∧
    (coming t).routesTo from0 0 (frameOf t.ctx) 0 = true ∧ ((coming t).cell 0).dataQueued < 960 ∧ ((coming t).cell 0).ovf = [] ∧
    ((coming t).cell 0).queued.length < 1024 ∧ ((coming t).cell 0).stopped = false ∧
    (coming t).overtakes from0 0 = false ∧ (coming t).reg (pmcCell 0 + 0xC0) = 0 := by decide +kernel
theorem meets_TokensReachTk_takes : frameOf (tok 2 9).ctx ∈ ((coming (tok 2 9)).cell 0).hdr ∧
    ((coming (tok 2 9)).cell 0).movedEntry 1 = none ∧ ((coming (tok 2 9)).frame 1).refuses (tok 2 9) = none ∧
    ((coming (tok 2 9)).frame 1).state = stActive ∧ ((coming (tok 2 9)).frame 1).window (tok 2 9) = .takes ∧
    (tok 2 9).flags &&& flTrace = 0 ∧ goodCheck (tok 2 9) = true ∧ from0.id ≠ 0 := by decide +kernel
/-- A context that FAILED, and a cell whose header cache does not have the frame. -/
def failed : State := (coming (tok 2 9)).modFrame 1 fun f => { f with state := stFailed }
def absent : State := (coming (tok 2 9)).modCell 0 fun c => { c with hdr := [] }
theorem test_accept_failed : nextIs (exec (.tokenAccept 0 (tok 2 9) from0 0 .direct) failed)
    (fun u => (u.cell 0).inq == [] && u.wire == [.ackReceive from0]) = true := by decide +kernel
theorem test_accept_absent : nextIs (exec (.tokenAccept 0 (tok 2 9) from0 0 .direct) absent)
    (fun u => ((u.cell 0).hdrWait.map fun q => q.tok) == [tok 2 9]) = true := by decide +kernel
theorem meets_TokensReachTk_else : (failed.frame 1).refuses (tok 2 9) = none ∧ (failed.frame 1).state = stFailed ∧
    frameOf (tok 2 9).ctx ∉ (absent.cell 0).hdr ∧ (absent.cell 0).movedEntry 1 = none := by decide +kernel

def qtok (t : Token) : QTok := { tok := t, snd := from0, src := 0, selfSent := false, report := false, counted := false }
def waiting : State := absent.modCell 0 fun c => { c with hdrWait := [qtok (tok 2 9)] }
theorem test_header_fill : nextIs (exec (.frameHeaderFill 0 1) waiting)
    (fun u => (u.cell 0).hdr == [1] && (u.cell 0).inq == [qtok (tok 2 9)] && (u.frame 1).count == 4) = true := by decide +kernel
/-- One token of the cell stands in its overflow chain. -/
def overflowed : State :=
  let s : State := { housed with parts := [(1, { part0 with
    isLive := true
    cells := [0] })] }
  match s.chainAdd 1 (.cell 0) kindQueue 0 0 (tok 2 9) false with
  | some (h, s) => s.modCell 0 fun c => { c with
      ovf := [qtok (tok 2 9)]
      ovfHead := h
      hdr := [] }
  | none => s
/-- The same of a token that has passed TK (02 R48): it does not pass it again. -/
def recounted : State := overflowed.modCell 0 fun c => { c with ovf := [{ qtok (tok 2 9) with counted := true }] }
theorem test_queue_refill_counted : nextIs (exec (.queueRefill 0 .ok) recounted) (fun u =>
    (u.cell 0).inq == [{ qtok (tok 2 9) with counted := true }] && (u.cell 0).hdrWait == [] && (u.frame 1).count == 3) = true := by
  decide +kernel
/-- A response that answers a request, for a context that FAILED (02 R715): COUNT falls by one. -/
def answer9 : Token := { tok 2 9 with flags := flDefr }
theorem test_accept_answer_failed :
    let t := { answer9 with check := tokenCheck answer9 }
    nextIs (exec (.tokenAccept 0 t from0 0 .direct) ((coming t).modFrame 1 fun f => { f with state := stFailed }))
      (fun u => (u.cell 0).inq == [] && (u.frame 1).count == 2) = true := by decide +kernel
theorem test_queue_refill : nextIs (exec (.queueRefill 0 .ok) overflowed)
    (fun u => (u.cell 0).ovf == [] && (u.cell 0).ovfHead == 0 && (u.cell 0).hdrWait == [qtok (tok 2 9)]) = true := by
  decide +kernel
theorem meets_TokensReachTk_refill : (overflowed.cell 0).ovf = [qtok (tok 2 9)] ∧
    overflowed.chainList (overflowed.partOfCell 0) (overflowed.cell 0).ovfHead = [(1, 0, tok 2 9)] ∧
    (overflowed.cell 0).movedEntry 1 = none ∧ overflowed.reg (pmcCell 0 + 0xC0) = 0 ∧ (recounted.cell 0).ovf.map QTok.counted = [true] ∧
    frameOf (tok 2 9).ctx ∉ (overflowed.cell 0).hdr ∧ (waiting.cell 0).hdrWait = [qtok (tok 2 9)] ∧
    (waiting.frame 1).window (tok 2 9) = .takes := by decide +kernel

/-- The head of the input queue at MT, and a partner that waits in its set. -/
def atMt (t : Token) (ways : List Token) (locked : Bool) : State := housed.modCell 0 fun c => { c with
  inq := [qtok t]
  ms := [((msSet 0 t).toNat, { ways := ways, spill := 0, locked := locked })] }
theorem test_match_single : nextIs (exec (.matchTok 0 .ok) (atMt (tok 2 9) [] false))
    (fun u => (u.cell 0).ready == [loneActivity (tok 2 9)]) = true := by decide +kernel
theorem test_match_pair : nextIs (exec (.matchTok 0 .ok) (atMt (tok 0 9) [tok 1 8] false))
    (fun u => (u.cell 0).ready.map (fun a => (a.g1, a.g2, a.used)) == [(TWord.int 9, TWord.int 8, 2)]) = true := by decide +kernel
theorem test_match_waits : nextIs (exec (.matchTok 0 .ok) (atMt (tok 0 9) [] false))
    (fun u => (u.cell 0).ready == [] && (u.msAt 0 (msSet 0 (tok 0 9)).toNat).ways == [tok 0 9]) = true := by decide +kernel
theorem test_match_locked : nextIs (exec (.matchTok 0 .ok) (atMt (tok 0 9) [] true))
    (fun u => (u.cell 0).side == [qtok (tok 0 9)]) = true := by decide +kernel
theorem meets_Matching : ((atMt (tok 0 9) [tok 1 8] false).cell 0).inq = [qtok (tok 0 9)] ∧
    (atMt (tok 0 9) [tok 1 8] false).saltOf 0 = 0 ∧
    ((atMt (tok 0 9) [tok 1 8] false).msAt 0 (msSet 0 (tok 0 9)).toNat).ways.find? (partners (tok 0 9)) = some (tok 1 8) ∧
    ((atMt (tok 0 9) [] false).msAt 0 (msSet 0 (tok 0 9)).toNat).ways.find? (partners (tok 0 9)) = none ∧
    ((atMt (tok 0 9) [] true).msAt 0 (msSet 0 (tok 0 9)).toNat).locked = true ∧
    ((atMt (tok 2 9) [] false).cell 0).movedEntry 1 = none ∧ ((atMt (tok 2 9) [] false).cell 0).ready.length < 128 ∧
    ((atMt (tok 2 9) [] false).frame 1).state = stActive := by decide +kernel
def unlocking : State := (atMt (tok 0 9) [] true).modCell 0 fun c => { c with
  inq := []
  side := [qtok (tok 0 9)]
  locks := [(msSet 0 (tok 0 9)).toNat] }
theorem test_side_release : nextIs (exec (.sideBufferRelease 0 .ok) unlocking) (fun u => (u.cell 0).side == [] &&
    (u.msAt 0 (msSet 0 (tok 0 9)).toNat) == { ways := [tok 0 9], spill := 0, locked := false }) = true := by decide +kernel
/-- One token of the set stands in the set's chain of the Cellar. -/
def spilled : State :=
  let k := (msSet 0 (tok 0 9)).toNat
  let s : State := { housed with parts := [(1, { part0 with
    isLive := true
    cells := [0] })] }
  match s.chainAdd 1 (.cell 0) kindSpill 0 0 (tok 0 9) false with
  | some (h, s) => (s.poke (s.ownWord (s.spillDir 1 0 k)) ⟨Tag.sys, h⟩).modCell 0 fun c => { c with
      ms := [(k, { ways := [], spill := 1, locked := false })] }
  | none => s
theorem test_refill : nextIs (exec (.refill 0 .ok) spilled)
    (fun u => (u.msAt 0 (msSet 0 (tok 0 9)).toNat).ways == [tok 0 9]) = true := by decide +kernel
theorem meets_Matching_refill : spilled.refillSet 0 = some (msSet 0 (tok 0 9)).toNat ∧ (spilled.cell 0).inq = [] ∧
    (spilled.chainList (spilled.partOfCell 0) (spilled.peekData (spilled.spillDir (spilled.partOfCell 0) 0 (msSet 0 (tok 0 9)).toNat))) =
      [(1, 0, tok 0 9)] ∧ (unlocking.cell 0).side = [qtok (tok 0 9)] ∧
    (unlocking.msAt 0 (msSet 0 (tok 0 9)).toNat).ways = [] := by decide +kernel

/-- A retained copy in each of its states, with its message on its way. -/
def retainedIn (st : RetState) (ctx : Option Word) (c : Instr) : State := { work false [] with
  retained := [{ copyOf (tok 2 9) with
    state := st
    ctx := ctx }]
  wire := [c]
  ids := 2 }
theorem test_returned : nextIs (exec (.returnedTokenReceive from0) (retainedIn .flight none (.returnedTokenReceive from0)))
    (fun u => u.wire == [] && u.retained.map Retained.state == [.returned]) = true := by decide +kernel
theorem test_resend : nextIs (exec (.tokenResend from0) (retainedIn .returned none (.ackReceive from0)))
    (fun u => u.retained.map Retained.state == [.flight]) = true := by decide +kernel
theorem test_rejected : nextIs (exec (.retransmissionRequest from0) (retainedIn .flight none (.retransmissionRequest from0)))
    (fun u => u.retained.map Retained.fails == [1]) = true := by decide +kernel
theorem test_ack : nextIs (exec (.ackReceive from0) (retainedIn .arrived (some 1) (.ackReceive from0)))
    (fun u => u.retained == [] && (u.frame 1).count == 2) = true := by decide +kernel
theorem test_ack_completes : nextIs (exec (.ackReceive from0) ((retainedIn .arrived (some 1) (.ackReceive from0)).modFrame 1 fun f => { f with
    count := 1
    committed := true })) (fun u => (u.frame 1).state == stComplete && (u.frame 1).count == 0) = true := by decide +kernel
theorem meets_RetainedCopies : ((retainedIn .returned none (.ackReceive from0)).copy from0).isSome = true ∧
    Instr.ackReceive from0 ∈ (retainedIn .arrived (some 1) (.ackReceive from0)).wire ∧ from0.id < 2 ∧
    ((retainedIn .arrived (some 1) (.ackReceive from0)).frame 1).ignoresCount = false ∧
    ((retainedIn .arrived (some 1) (.ackReceive from0)).frame 1).count = 3 := by decide +kernel

/-- A token that the window held is in the hold chain of its frame, whose window has moved to it (02 R68, R69). -/
def held : State :=
  match housed.chainAdd 1 (.cell 0) kindHold 1 0 (tok 2 9) false with
  | some (h, s) => s.modFrame 1 fun f => { f with
      holdHead := h
      win := 8
      weff := 8 }
  | none => housed
theorem test_held_release : nextIs (exec (.heldReleaseRetry 0 1) held)
    (fun u => (u.cell 0).inq.map (fun q => q.tok) == [tok 2 9] && (u.frame 1).holdHead == 0) = true := by decide +kernel
def quiet : State := { housed with now := 0x100000 }
theorem test_stall : nextIs (exec (.stallDetect 0 1) quiet)
    (fun u => (u.frame 1).state == stStalled && (u.cell 0).scans == [(1, 0x100000)]) = true := by decide +kernel
theorem meets_HeldAndStalled : (held.cell 0).dataQueued < 960 ∧ (held.cell 0).ovf = [] ∧ (held.cell 0).queued.length < 1024 ∧
    held.chainList (held.frame 1).part (held.frame 1).holdHead = [(1, 0, tok 2 9)] ∧
    (held.frame 1).letsGo (tok 2 9) = true ∧ held.wouldStick 0 1 (tok 2 9) = false ∧ quiet.quietNs 1 = some 1000 ∧
    quiet.haltedOn 0 1 = false ∧ 1000 ≤ (quiet.now - (quiet.frame 1).lastCommit).toNat := by decide +kernel
def scanning : State := (quiet.modFrame 1 fun f => { f with state := stStalled }).modCell 0 fun c => { c with scans := [(1, 5)] }
theorem test_scan_done : nextIs (exec (.stallScanDone 0 1) scanning)
    (fun u => (u.cell 0).scans == [] && (u.frame 1).state == stStalled) = true := by decide +kernel
/-- The ring of partition 1 is at word 0x3800 of space 5, with room for two records (02 R78). -/
def ringed : State :=
  let s := (housed.setDescWord 1 32 0x3800).setDescWord 1 36 0x10005
  { (s.poke 0x83800 (TWord.int 0)).poke 0x83801 (TWord.int 0) with
    waitRecs := [(.cell 0, { part := 1, words := [7, 8] })] }
theorem test_ring : nextIs (exec (.ringRecheck (.cell 0) 1) ringed)
    (fun u => u.waitRecs == [] && u.dram 0x83800 == TWord.int 1 && u.dram 0x83811 == TWord.int 8) = true := by decide +kernel
theorem meets_HeldAndStalled_ring : (ringed.ringWrite (.cell 0) 1 ([7, 8])).isSome = true ∧
    (scanning.cell 0).scans.find? (fun e => e.1 == 1) = some (1, 5) := by decide +kernel
/-- A frame with a window on a cell whose matching store is full to the half. -/
def crowded (n : Nat) : State := { (housed.modCell 0 fun c => { c with
  ms := [(0, { ways := List.replicate n (tok 0 9), spill := 0, locked := false })] }).modFrame 1 fun f => { f with
    win := 8
    weff := 8 } with ctxMap := [(1, { ctxEnt0 with valid := true })] }
theorem test_adapt : nextIs (exec (.windowAdaptSample 0) (crowded 1)) (fun u => (u.frame 1).weff == 8 && !(u.cell 0).narrowed) = true := by
  decide +kernel
theorem meets_HeldAndStalled_adapt : bit ((crowded 1).reg (clcBase 0 + 0x800)) 16 = true ∧ (crowded 1).framesOn 0 = [1] ∧
    ((crowded 1).frame 1).holdHead = 0 ∧ ((crowded 1).cell 0).occupancy < (crowded 1).regField (clcBase 0 + 0x804) 5 0 * 512 := by
  decide +kernel
/-- A split-phase request that its home has turned away. -/
def asking : Request := { id := 4, fetch := true, addr := 0x83000, va := 0x3000, homing := 0, cacheable := true, part := 1
                          resp := tok 2 0, reissue := true, deferred := false }
theorem test_reissue : nextIs (exec (.ifetchReissue 0 4) (housed.modCell 0 fun c => { c with reqs := [asking] }))
    (fun u => u.wire == [.hop (homeOf 0 0x83000) 0 0x83000 (.ifetch 0 4 1 0x3000 (tok 2 0))]) = true := by decide +kernel
theorem meets_HeldAndStalled_reissue : ([asking].find? fun y => y.id == 4 && y.reissue) = some asking ∧
    housed.isOwn (sectorOf 0x83000 * 16) = true := by decide +kernel

/-! ### The life of a strand slot, loads, stores and walks -/

/-- The activity of statement 2, whose code block is at 0x1000 with its header and entry words (03 R100): FPC 0x81, three
statements, statement 2 at 0x1010. -/
def ready : State :=
  let s := (work false []).modCell 0 fun c => { c with ready := [loneActivity (mkToken 1 2 7 2 0 5 (TWord.int 9))] }
  let s := { s.modFrame 1 fun f => { f with code := 0x1000 } with slots := [] }
  (s.poke 0x81000 (TWord.int 0x810002)).poke 0x81003 ⟨Tag.code, 0x1010⟩
theorem test_slot_assign : nextIs (exec (.slotAssign 0 .ok) ready) (fun u => (u.slot 0 0).state == .run &&
    (u.slot 0 0).pc == 0x1010 && (u.slot 0 0).fpc == 0x81 && (u.slot 0 0).g 1 == TWord.int 9 && !(u.slot 0 0).sup) = true := by
  decide +kernel
theorem meets_StrandLife_assign : ready.saStopped 0 = false ∧ ready.nextActivity 0 = some (loneActivity (mkToken 1 2 7 2 0 5 (TWord.int 9))) ∧
    ready.freeSlot 0 = some 0 ∧ (ready.entryXlate 0 0 0x1000).1 = .walk ∧ (ready.peek 0x81000).tag = Tag.int ∧
    ready.peek 0x81003 = ⟨Tag.code, 0x1010⟩ ∧ ready.dbg.tbreaks = [] ∧ ready.storesOf 0 0 = [] := by decide +kernel
/-- The look-ups of the entry are made for the slot that SA has just given its space. -/
theorem meets_StrandLife_xlate : ((ready.modSlot 0 0 fun t => { t with
      sid := 5
      part := 1 }).entryXlate 0 0 0x1003).1 = .ok (page 1 true) 0x81003 := by decide +kernel

def committing : State := (work false []).modSlot 0 0 fun t => { t with
  state := .commit
  sends := [.token (tok 2 9)]
  items := 1
  act := { t.act with used := 2 } }
theorem test_firing_commit : nextIs (exec (.firingCommit 0 0 .ok) committing) (fun u => (u.slot 0 0) == slot0 &&
    u.retained.map Retained.tok == [tok 2 9] && (u.frame 1).count == 2 && (u.frame 1).committed) = true := by decide +kernel
theorem meets_StrandLife_commit : (committing.slot 0 0).sends = [tok 2 9].map Item.token ∧ committing.awaitsTwin 0 0 = false ∧
    committing.outqUsed 0 + 1 ≤ 256 ∧ (committing.frame 1).ignoresCount = false ∧ (committing.slot 0 0).allWritten = true ∧
    (committing.frame 1).count + BitVec.ofNat 32 1 - BitVec.ofNat 32 2 ≠ 0 ∧ committing.storesOf 0 0 = [] := by decide +kernel
theorem test_time_slice : nextIs (exec (.timeSliceExpiry 0 0 .ok) (work false []))
    (fun u => (u.slot 0 0).state == .handler && (u.slot 0 0).ecause == 6 && (u.slot 0 0).epc == 0x1000) = true := by decide +kernel
theorem meets_StrandLife_slice : ((work false []).slot 0 0).state = .run ∧ ((work false []).slot 0 0).halted = none ∧
    ((work false []).slot 0 0).dueMc = none ∧ ((work false []).slot 0 0).noSlice = false ∧
    (((work false []).modSlot 0 0 fun t => { t with noSlice := true }).slot 0 0).noSlice = true := by decide +kernel

/-- A load of g3 whose word has come; of a whole word, and of its byte 1. -/
def loaded (f : LdForm) (v : TWord) (w : Wait) : State := (work false []).modSlot 0 0 fun t => { t with
  loads := [{ reg := 3, form := f, parts := [(0x83000, some v)], homing := 0, cacheable := true, own := [], reserve := none }]
  wait := w }
theorem test_load_return : nextIs (exec (.loadDataReturn 0 0 3 .ok) (loaded .word ⟨Tag.ctx, 4⟩ .none))
    (fun u => (u.slot 0 0).g 3 == ⟨Tag.ctx, 4⟩ && (u.slot 0 0).loads == []) = true := by decide +kernel
theorem test_load_return_sub : nextIs (exec (.loadDataReturn 0 0 3 .ok) (loaded (.sub 1 1 true) (TWord.int 0x8000) (.load 0x1001)))
    (fun u => (u.slot 0 0).g 3 == TWord.int 0xFFFFFF80 && (u.slot 0 0).pc == 0x1001) = true := by decide +kernel
theorem meets_LoadsAndDrains_load :
    (((loaded (.sub 1 1 true) ⟨Tag.ctx, 4⟩ (.load 0x1001)).slot 0 0).loads.find? (fun y => y.reg == 3 && !y.unbound && y.reserve.isNone)).isSome = true ∧
    ((loaded (.sub 1 1 true) ⟨Tag.ctx, 4⟩ (.load 0x1001)).slot 0 0).state = .run ∧
    ((loaded .word ⟨Tag.defer, 4⟩ .none).slot 0 0).wait = .none := by decide +kernel

/-- A sealed store of g3 to word 0x83001, whose sector the cluster holds with X, or without C to its home. -/
def entry (k : StKind) (a : Nat) (c sent : Bool) : StEnt :=
  { id := 4, slot := 0, kind := k, addr := a, home := 0, cacheable := c, mask := 15, val := TWord.int 6, isSealed := true
    sent := sent, performed := false, shared := true, ended := false, waited := false }
def draining (k : StKind) (a : Nat) (c sent : Bool) : State :=
  (cached TWord.zero).modCell 0 fun x => { x with stbuf := [entry k a c sent] }
theorem test_drain : nextIs (exec (.storeDrain 0) (draining .word 0x83001 true false)) (fun u =>
    wordOf ((u.cluster 0).sectorAt 0x8300).data 0x83001 == TWord.int 6 && (u.cell 0).stbuf.map StEnt.performed == [true]) = true := by
  decide +kernel
theorem test_drain_home : nextIs (exec (.storeDrain 0) (draining .word 0x83001 false false)) (fun u =>
    u.wire == [.hop 0 0 0x83001 (.store 0 4 0 15 (TWord.int 6))]) = true := by decide +kernel
theorem test_store_ack : nextIs (exec (.storeAck 0 4) ((draining .word 0x83001 true true).modCell 0 fun x => { x with
    stbuf := x.stbuf.map fun e => { e with performed := true } })) (fun u => (u.cell 0).stbuf == []) = true := by decide +kernel
theorem test_store_lost : nextIs (exec (.storeLost 0 4) (draining .side 0x83001 false true))
    (fun u => (u.cell 0).stbuf == [] && (u.slot 0 0).storeLost && u.reg (dirBase 0 + 0x3C) == 1) = true := by decide +kernel
theorem meets_LoadsAndDrains_store : (draining .word 0x83001 true false).pantryOf 0x83001 = none ∧
    ((draining .word 0x83001 true false).cluster 0).writable 0x8300 = true ∧
    ((draining .word 0x83001 true false).cluster 0).porchOf 0x8300 = none ∧
    ((draining .word 0x83001 true false).peek 0x83001).tag ≠ Tag.defer ∧
    (draining .word 0x83001 false false).isOwn (0x8300 * 16) = true ∧
    ((draining .word 0x83001 true false).cell 0).stbuf.filter (fun y => y.sent && !y.performed && y.kind != .side) = [] := by
  decide +kernel
theorem test_hold_end : nextIs (exec (.reservationHoldEnd 0 0) ((work false []).modSlot 0 0 fun t => { t with holdProbes := true }))
    (fun u => !(u.slot 0 0).holdProbes) = true := by decide +kernel

/-- A strand whose access to word 0x3000 of its space walks, at a stage. -/
def walk0 (st : WalkStage) : Walk :=
  { va := 0x3000, sid := 5, kind := 0, window := false, stage := st, leaf := none, big := false, tries := 0, torn := false, suspended := false }
def walking (w : Walk) : State := (work false []).modSlot 0 0 fun t => { t with
  wait := .walk
  walk := some w }
/-- The walk with the sector of its next table read, as a fill brought it (08 R343). -/
def withSector (w : Walk) : Walk :=
  let sec := sectorOf ((walking w).walkWord 0 0 w).1
  { w with got := some (sec, (List.range 16).map fun i => (walking w).peek (16 * sec + i)) }
def stageIs (w : Walk) (p : Walk → Bool) : Bool :=
  nextIs (exec (.walkTableRead 0 0 .ok) (walking (withSector w))) fun u => ((u.slot 0 0).walk.map p).getD false
theorem test_walk_space : stageIs (walk0 .space) (fun w => w.stage == .s2root 0 (.level 2)) = true := by decide +kernel
theorem test_walk_root : stageIs (walk0 (.s2root 0 (.level 2))) (fun w => w.stage == .s2leaf 0 0x10000 (.level 2)) = true := by
  decide +kernel
theorem test_walk_leaf : stageIs (walk0 (.s2leaf 0 0x10000 (.level 2))) (fun w => w.stage == .s1 2 0x80000 0) = true := by
  decide +kernel
theorem test_walk_entry : stageIs (walk0 (.s1 2 0x80000 0)) (fun w => w.stage == .s2root 0xC000 .final && w.big) = true := by
  decide +kernel
theorem test_walk_final : nextIs (exec (.walkTableRead 0 0 .ok) (walking { withSector (walk0 (.s2leaf 0xC000 0x10000 .final)) with
    leaf := some 0xBF
    big := true })) (fun u => (u.slot 0 0).wait == .none && (u.cell 0).tlb.any fun e => e.big && e.vpn == 0 && e.ma == 0x200000) = true := by
  decide +kernel
theorem test_walk_suspends : stageIs (walk0 (.s2root 0x40000000 (.level 2))) (fun w => w.suspended) = true := by decide +kernel
theorem test_walk_unbound : nextIs (exec (.walkTableRead 0 0 .ok) (walking (withSector { walk0 .space with sid := 6 })))
    (fun u => (u.slot 0 0).state == .handler && (u.slot 0 0).ecause == 2 && (u.slot 0 0).eaddr == 0x3000) = true := by decide +kernel
theorem test_walk_invalid : nextIs (exec (.walkTableRead 0 0 .ok) (walking (withSector (walk0 (.s1 2 0x80002 0)))))
    (fun u => (u.slot 0 0).ecause == 2) = true := by decide +kernel
/-- A stage-1 entry whose two words differ in VER is torn (08 R334). -/
def torn (n : Nat) : State := (walking { walk0 (.s1 2 0x80000 0) with
  torn := true
  tries := n }).poke 0x80001 ⟨Tag.sys, 0x10000000⟩
theorem test_torn : nextIs (exec (.tornReread 0 0) (torn 0)) (fun u => ((u.slot 0 0).walk.map Walk.tries) == some 1) = true := by
  decide +kernel
theorem test_torn_often : nextIs (exec (.tornReread 0 0) (torn 15)) (fun u => (u.slot 0 0).ecause == 2) = true := by decide +kernel
theorem test_stage2_timeout : nextIs (exec (.stage2Timeout 0 0) (walking { walk0 (.s2root 0 (.level 2)) with suspended := true }))
    (fun u => (u.slot 0 0).ecause == 2) = true := by decide +kernel
/-- A walk whose root the cluster keeps takes no read for it; one whose sector nothing holds asks for the sector. -/
def rooted (w : Walk) : State := (walking w).modCluster 0 fun c => { c with roots := [(5, 0, 1)] }
theorem test_walk_rooted : nextIs (exec (.walkTableRead 0 0 .ok) (rooted { withSector (walk0 (.s2root 0 (.level 2))) with stage := .space }))
    (fun u => ((u.slot 0 0).walk.map Walk.stage) == some (.s2leaf 0 0x10000 (.level 2)) && u.reg (trnBase 0 + 0x24) == 1) = true := by
  decide +kernel
theorem test_walk_asks : nextIs (exec (.walkTableRead 0 0 .ok) (walking (walk0 .space)))
    (fun u => ((u.cluster 0).missOf 1).map Miss.reqs == some [.walk 0 0] && ((u.slot 0 0).walk == some (walk0 .space))) = true := by
  decide +kernel
/-- The cluster holds the sector of a table read. -/
def cachedTable : State := (walking (walk0 .space)).modCluster 0 fun c => { c with ways := [(0, { block0 with
    block := 0
    used := true
    sectors := [(1, { st := 1, dirty := false, data := (List.range 16).map fun i => (walking (walk0 .space)).peek (16 + i) })] })] }
theorem test_walk_cached : nextIs (exec (.walkTableRead 0 0 .ok) cachedTable)
    (fun u => ((u.slot 0 0).walk.map Walk.stage) == some (.s2root 0 (.level 2))) = true := by decide +kernel
theorem meets_Walks_held : ((withSector (walk0 .space)).got.map Prod.fst) = some 1 ∧ cachedTable.pantryOf 20 = none ∧
    (cachedTable.cluster 0).porchOf 1 = none ∧ ((cachedTable.cluster 0).sectorAt 1).st ≠ 0 ∧ (cachedTable.walkWord 0 0 (walk0 .space)).1 = 20 ∧
    ((rooted (walk0 .space)).cluster 0).roots.find? (fun r => r.1 == 5) = some (5, 0, 1) ∧
    ((rooted (walk0 .space)).cluster 0).tlb2.find? (fun e => e.part == 1 && e.pblk == 0) = none ∧
    (withSector (walk0 (.s1 2 0x80000 0))).entryWords (walking (walk0 .space)) 0x80000 = (⟨Tag.sys, 0xBF⟩, ⟨Tag.sys, 0⟩) ∧
    ((walking (walk0 .space)).cellImage 0).isShipped = true := by decide +kernel
/-- Benus maps a block that a suspended walk asks for: partition 1 has memory left, and module block 3 is free. -/
def asksBlock : State :=
  let s := walking { walk0 (.s2root 0x200000 (.level 2)) with suspended := true }
  { s with
    parts := [(1, { part0 with
      isLive := true
      memMib := 4 })]
    ben := { s.ben with running := true } }
theorem meets_Walks_asks : asksBlock.ben.running = true ∧ (walk0 (.s2root 0x200000 (.level 2))).asks = some 0x200000 ∧
    asksBlock.stage2 1 0x200000 = none ∧ (asksBlock.mapBlock 1 0x200000).isSome = true ∧ asksBlock.mapBlock 1 0x400000 = none := by
  decide +kernel
theorem meets_Walks : ((walking (walk0 .space)).slot 0 0).walk = some (walk0 .space) ∧ ((walking (walk0 .space)).slot 0 0).state = .run ∧
    (walking (walk0 .space)).spaceEntry 5 = some (0, 1) ∧ (walking (walk0 .space)).spaceEntry 6 = none ∧
    s2Table ((walking (walk0 .space)).peek64 ((walking (walk0 .space)).s2RootAt 1 0)) = some 0x10000 ∧
    ((walking (walk0 .space)).s2Leaf 1 ((walking (walk0 .space)).peek64 (s2LeafAt 0x10000 0))).isSome = true ∧
    s1Words 2 ((walking (walk0 .space)).peek 0x80000) ((walking (walk0 .space)).peek 0x80001) = .entry 0xBF ∧
    s1Words 2 ((torn 0).peek 0x80000) ((torn 0).peek 0x80001) = .torn ∧ (torn 0).regField (trnOf 0) 7 4 + 1 = 16 ∧
    (walk0 (.s2root 0 (.level 2))).asks = some 0 ∧ ((walking (walk0 .space)).stage2 1 0).isSome = true := by decide +kernel

/-! ### Cluster caches, homes and probes -/

/-- A sector's words, and the miss entry that waits for them: a load of g3 from word 1. -/
def words : List TWord := (List.range 16).map fun n => TWord.int (BitVec.ofNat 32 (n + 1))
def miss : Miss := { newMiss 0x8300 0 0 1 with
  reqs := [.load 0 0 3 0x83001]
  granted := some 2
  data := words }
def filling (m : Miss) : State := ((loaded .word TWord.zero .none).modSlot 0 0 fun t => { t with
  loads := t.loads.map fun l => { l with parts := [(0x83001, none)] } }).modCluster 0 fun c => { c with
    misses := [m]
    ways := [(0xC00, { block0 with
      block := 0x20C0
      used := true })] }
theorem test_beat : nextIs (exec (.sectorBeat 0 0x8300) (filling miss)) (fun u =>
    (u.slot 0 0).loads.map PLoad.parts == [[(0x83001, some (TWord.int 2))]]) = true := by decide +kernel
theorem test_install : nextIs (exec (.sectorInstall 0 0x8300) (filling { miss with
    beats := 4
    reqs := [] })) (fun u => (u.cluster 0).sectorAt 0x8300 == { st := 2, dirty := false, data := words } &&
      u.wire == [.done 0 0 0x8300]) = true := by decide +kernel
theorem meets_ClusterCaches_fill : ((filling miss).cluster 0).missOf 0x8300 = some miss ∧ 0x83001 % 16 / 4 = (miss.firstBeat + miss.beats) % 4 ∧
    ((filling miss).cluster 0).combineOf 0x8300 = none ∧ ((filling miss).cluster 0).findWay 0x20C0 = some (0x20C0 % 4096 * 16) ∧
    (filling miss).pantryOf 0x83000 = none ∧ (filling miss).redirect 0x83000 = 0x83000 := by decide +kernel
def porchEnt (st : PorchState) : Porch :=
  { state := st, block := 0x20C0, home := 0, sectors := [(0, { st := 2, dirty := true, data := words })], sector := 0, stores := [] }
def evicted (st : PorchState) (w : List Instr) : State :=
  { (work false []).modCluster 0 fun c => { c with porch := [porchEnt st] } with wire := w }
theorem test_writeback : nextIs (exec (.porchWritebackSend 0) (evicted .waiting []))
    (fun u => u.wire == [.wb 0 0 0x20C0 [(0, words)]] && (u.cluster 0).porch == [porchEnt .sent]) = true := by decide +kernel
theorem test_wb_ack : nextIs (exec (.wbAck 0 0x20C0) (evicted .sent [.wbAck 0 0x20C0]))
    (fun u => (u.cluster 0).porch == [] && u.wire == []) = true := by decide +kernel
theorem meets_ClusterCaches_porch : ((evicted .waiting []).cluster 0).porch.find? (fun q => q.state == .waiting) = some (porchEnt .waiting) ∧
    (evicted .waiting []).isOwn (0x20C0 * 64) = true ∧ agentCluster 0 = 0 := by decide +kernel
/-- Pantry pair 0 of cluster 0 takes machine block 1, and gives it back. -/
def pantry (step : Nat) (p : Map TWord) : State :=
  ((work false []).setReg (pantryReg 0 0) 0x1).modCluster 0 fun c => { c with
    pairs := [(0, { pair0 with
      step := step
      wasFixed := true })]
    pantry := p }
theorem test_pantry_copy : nextIs (exec (.pantryCopyDone 0 0) (pantry 2 []))
    (fun u => Map.get TWord.empty (u.cluster 0).pantry 0x80000 == ⟨Tag.sys, 0xBF⟩ && bit (u.reg (pantryReg 0 0)) 31) = true := by
  decide +kernel
theorem test_pantry_back : nextIs (exec (.pantryWritebackDone 0 0) (pantry 3 [(0x80005, TWord.int 4)]))
    (fun u => Map.get TWord.empty u.mem 0x80005 == TWord.int 4 && (u.cluster 0).pantry == []) = true := by decide +kernel
theorem meets_ClusterCaches_pantry : (pantry 2 []).pairBlock 0 0 = 1 ∧ (pantry 2 []).blockQuiet 1 = true ∧
    ((pantry 2 []).pair4 0 0).mailbox = none ∧ Memory.wf ((pantry 2 []).recallBlock 1).mem = true ∧
    (0x80000, ⟨Tag.sys, 0xBF⟩) ∈ ((pantry 2 []).recallBlock 1).mem ∧ Memory.wf [(0x80005, TWord.int 4)] = true := by decide +kernel

/-- Home 0 with the directory entry of block 0x20C0, and a message on its way to it. -/
def dirEnt (st : BitVec 2) (own : Agent) (sh : List Agent) : DirEnt := { dir0 with
  v := true
  tag := 0x20C0
  ds := Map.set 0 [] 0 st
  owner := Map.set 0 [] 0 own
  sharers := sh }
def atHome (e : DirEnt) (c : Instr) : State := { (work false []).modHome 0 fun x => { x with dir := [(0x20C * 16, e)] } with wire := [c] }
theorem test_rdS : nextIs (exec (.rdS 0 1 0x8300 .ok) (atHome (dirEnt 0 0 []) (.rdS 0 1 0x8300 .ok)))
    (fun u => u.wire == [.dataS 1 0x8300 (List.replicate 16 TWord.empty)] && ((u.home 0).ent (0x20C * 16)).sharers == [1]) = true := by
  decide +kernel
theorem test_rdX_probes : nextIs (exec (.rdX 0 1 0x8300 .ok) (atHome (dirEnt 2 3 []) (.rdX 0 1 0x8300 .ok)))
    (fun u => u.wire == [.prbI 3 0x8300]) = true := by decide +kernel
theorem test_upg : nextIs (exec (.upg 0 1 0x8300) (atHome (dirEnt 1 0 [1]) (.upg 0 1 0x8300)))
    (fun u => u.wire == [.grantX 1 0x8300] && ((u.home 0).ent (0x20C * 16)).state 0 == 2) = true := by decide +kernel
theorem test_zeroX : nextIs (exec (.zeroX 0 1 0x8300) (atHome (dirEnt 2 3 []) (.zeroX 0 1 0x8300)))
    (fun u => u.wire == [.prbI 3 0x8300]) = true := by decide +kernel
theorem meets_HomeRequests : ∀ c ∈ [Instr.rdS 0 1 0x8300 .ok, .rdX 0 1 0x8300 .ok, .upg 0 1 0x8300, .zeroX 0 1 0x8300],
    ∀ e ∈ [dirEnt 0 0 [], dirEnt 2 3 [], dirEnt 1 0 [1]],
    (reqSector c = 0x8300 ∧ reqAgent c = 1) ∧ (atHome e c).isOwn (reqSector c * 16) = true ∧ (atHome e c).isOwnAgent (reqAgent c) = true ∧
    (atHome e c).agentDead 0 (reqAgent c) = false ∧ ((atHome e c).home 0).blocked 0x20C0 = false ∧
    ((atHome e c).home 0).sampleCnt + 1 ≠ 0 ∧ (atHome e c).inStream c 0 = true ∧ ((atHome e c).home 0).queue = [] ∧
    ((atHome e c).home 0).pantryMap = [] ∧ (atHome e c).redirect 0x83000 = 0x83000 ∧
    (atHome e c).failedChannels 0 = 0 ∧ ((atHome e c).home 0).findEnt 0 0x20C0 = some (0x20C * 16) := by decide +kernel
def hopAt (op : HomeOp) : State := { work false [] with wire := [.hop 0 1 0x83000 op] }
theorem test_hop_ldp : nextIs (exec (.hop 0 1 0x83000 (.ldp 16 4)) (hopAt (.ldp 16 4)))
    (fun u => u.wire == [.hopAck 1 0x83000 (.ldp 16 4) TWord.empty true]) = true := by decide +kernel
theorem test_hop_istore : nextIs (exec (.hop 0 1 0x83000 (.istore 16 0 1 (TWord.int 3))) (hopAt (.istore 16 0 1 (TWord.int 3))))
    (fun u => u.dram 0x83000 == TWord.int 3) = true := by decide +kernel
/-- The second of two requests of one stream to one block does not come before the first (10 R449). -/
def inOrder (op1 op2 : HomeOp) : State := { work false [] with wire := [.hop 0 1 0x83000 op1, .hop 0 1 0x83000 op2] }
theorem test_hop_order : nextIs (exec (.hop 0 1 0x83000 (.store 16 9 1 15 (TWord.int 7))) (inOrder (.store 16 8 1 15 (TWord.int 6)) (.store 16 9 1 15 (TWord.int 7))))
    (fun u => u.dram 0x83000 == TWord.empty && u.wire.length == 2) = true := by decide +kernel
theorem test_wb : nextIs (exec (.wb 0 0 0x20C0 [(0, words)]) (evicted .sent [.wb 0 0 0x20C0 [(0, words)]]))
    (fun u => u.dram 0x83001 == TWord.int 2 && u.wire == [.wbAck 0 0x20C0]) = true := by decide +kernel
theorem meets_HomeRequests_else : ((hopAt (.ldp 16 4)).home 0).findEnt 0 0x20C0 = none ∧ ((hopAt (.ldp 16 4)).home 0).blocked 0x20C0 = false ∧
    ((hopAt (.ldp 16 4)).peek 0x83000).tag = Tag.empty ∧ (evicted .sent [.wb 0 0 0x20C0 [(0, words)]]).wbCounts 0 0 0x8300 = true ∧
    ((evicted .sent [.wb 0 0 0x20C0 [(0, words)]]).home 0).transOf 0x20C0 = none := by decide +kernel

def probed (d : Bool) (c : Instr) : State := { (cached TWord.zero).modCluster 0 fun x => { x with
  ways := x.ways.map fun e => (e.1, e.2.setSector 0 { st := 2, dirty := d, data := words }) } with wire := [c] }
theorem test_prbS : nextIs (exec (.prbS 0 0x8300) (probed true (.prbS 0 0x8300))) (fun u =>
    u.wire == [.prbRsp 0 0 0x8300 (.dirty words)] && ((u.cluster 0).sectorAt 0x8300).st == 1 && u.dram 0x83000 == TWord.int 1) = true := by
  decide +kernel
theorem test_prbI_clean : nextIs (exec (.prbI 0 0x8300) (probed false (.prbI 0 0x8300))) (fun u =>
    u.wire == [.prbRsp 0 0 0x8300 .clean] && ((u.cluster 0).sectorAt 0x8300).st == 0) = true := by decide +kernel
theorem test_prbF : nextIs (exec (.prbF 0 0x8300 1) (probed true (.prbF 0 0x8300 1))) (fun u =>
    u.wire == [.dataX 1 0x8300 words, .prbRsp 0 0 0x8300 (.dirty words)]) = true := by decide +kernel
theorem test_prb_none : nextIs (exec (.prbI 0 0x8300) { work false [] with wire := [.prbI 0 0x8300] }) (fun u =>
    u.wire == [.prbRsp 0 0 0x8300 .notHeld]) = true := by decide +kernel
theorem meets_ProbesAndGrants : (probed true (.prbS 0 0x8300)).isOwnAgent 0 = true ∧ (probed true (.prbS 0 0x8300)).isOwn 0x83000 = true ∧
    (probed true (.prbS 0 0x8300)).probeHeld 0 0x8300 = false ∧ ((probed true (.prbS 0 0x8300)).cluster 0).missOf 0x8300 = none ∧
    ((probed true (.prbS 0 0x8300)).cluster 0).porchOf 0x8300 = none ∧
    ((probed true (.prbS 0 0x8300)).cluster 0).sectorAt 0x8300 = { st := 2, dirty := true, data := words } := by decide +kernel
def asked (m : Miss) (w : List Instr) : State := { filling m with wire := w }
theorem test_dataS : nextIs (exec (.dataS 0 0x8300 words) (asked { miss with granted := none } [.dataS 0 0x8300 words])) (fun u =>
    ((u.cluster 0).missOf 0x8300).map Miss.granted == some (some 1)) = true := by decide +kernel
theorem test_retry : nextIs (exec (.retry 0 0x8300) (asked { miss with granted := none } [.retry 0 0x8300])) (fun u =>
    ((u.cluster 0).missOf 0x8300).map (fun m => (m.retrying, m.retries)) == some (true, 1)) = true := by decide +kernel
theorem test_request_again : nextIs (exec (.requestReissue 0 0x8300) (asked { miss with
    granted := none
    retrying := true } [])) (fun u => u.wire == [.rdS 0 0 0x8300 .ok]) = true := by decide +kernel
/-- A home's transaction for the sector: an owner was probed for agent 1, or the grant has left. -/
def trans (c : Instr) (aw : List (Agent × Nat)) (g : Bool) : Trans :=
  { block := 0x20C0, req := c, evict := false, awaits := aw, since := 0, second := false, fwd := false, sent := false, data := none, granted := g }
def serving (t : Trans) (c : Instr) : State := (atHome (dirEnt 2 0 []) c).modHome 0 fun x => { x with trans := [t] }
theorem test_prbRsp : nextIs (exec (.prbRsp 0 0 0x8300 (.dirty words)) (serving (trans (.rdX 0 1 0x8300 .ok) [(0, 0x8300)] false)
    (.prbRsp 0 0 0x8300 (.dirty words)))) (fun u => u.wire == [.dataX 1 0x8300 words] &&
      ((u.home 0).ent (0x20C * 16)).ownerOf 0 == 1) = true := by decide +kernel
theorem test_done : nextIs (exec (.done 0 1 0x8300) (serving (trans (.rdX 0 1 0x8300 .ok) [] true) (.done 0 1 0x8300)))
    (fun u => (u.home 0).trans == [] && !((u.home 0).ent (0x20C * 16)).pin) = true := by decide +kernel
theorem test_hop_ack : nextIs (exec (.hopAck 0 0x83001 (.store 0 4 1 15 (TWord.int 6)) TWord.empty true)
    { draining .word 0x83001 false true with wire := [.hopAck 0 0x83001 (.store 0 4 1 15 (TWord.int 6)) TWord.empty true] })
    (fun u => (u.cell 0).stbuf.map StEnt.performed == [true]) = true := by decide +kernel
theorem test_heartbeat : nextIs (exec (.coherenceHeartbeat 0 ⟨3, none⟩) { work false [] with now := 77 })
    (fun u => (u.home 0).heard == [(3, 77)]) = true := by decide +kernel
/-- A second module in the coherence group, silent for 10 ms. -/
def twoModules : State := ({ work false [] with now := 10000000 }).setRegField (dirBase 0 + 0xC) 7 4 3
theorem test_module_heartbeat : nextIs (exec (.coherenceHeartbeat 0 ⟨16, some 9⟩) twoModules)
    (fun u => (u.home 0).heard == [(65, 10000000)]) = true := by decide +kernel
theorem test_module_dead : nextIs (exec (.deadAgentDetect 0 ⟨16, some 9⟩) twoModules)
    (fun u => u.wire.length == 256 && u.hier.gone == [9] && u.out.length == 16) = true := by decide +kernel
theorem meets_ProbesAndGrants_module : twoModules.agentDead 0 16 = false ∧ twoModules.inGroup 0 16 = true ∧
    twoModules.isOwnAgent 16 = false ∧ twoModules.deadNs 0 ≤ 10000000 := by decide +kernel
theorem test_dead_notice : nextIs (exec (.deadAgentNotice 0 20) (atHome (dirEnt 2 20 []) (.deadAgentNotice 0 20)))
    (fun u => u.agentDead 0 20 && u.dram 0x83000 == ⟨Tag.poison, 0x10014⟩) = true := by decide +kernel
theorem meets_ProbesAndGrants_else : ((asked { miss with granted := none } []).cluster 0).missOf 0x8300 = some { miss with granted := none } ∧
    ((serving (trans (.rdX 0 1 0x8300 .ok) [(0, 0x8300)] false) (.done 0 1 0x8300)).home 0).transOf 0x20C0 =
      some (trans (.rdX 0 1 0x8300 .ok) [(0, 0x8300)] false) ∧
    (serving (trans (.rdX 0 1 0x8300 .ok) [(0, 0x8300)] false) (.done 0 1 0x8300)).awaitsWb 0 0x20C0 = false ∧
    (work false []).inGroup 0 3 = true ∧ (work false []).deadNs 0 ≤ 10000000 ∧ (work false []).isOwnAgent 20 = false := by decide +kernel

/-! ### Placement, migration, page moves and items -/

/-- Partition 1 lives on cells 0 and 16 of modules 0 and 7; its frame 1 is on cell 0, whose header cache has it. -/
def placed : State := { housed.setPart 1 { part0 with
    isLive := true
    span := [0, 7]
    cells := [0, 16]
    quota := 4 } with
  ctxMap := [(1, { ctxEnt0 with valid := true })] }
def ask1 : Placing := placing 1 0 0 none true
theorem test_span_summary : nextIs (exec (.spanSummary ⟨1, none⟩) placed) (fun u =>
    u.out == [.hart 0x10 1, .hart 0x11 3, .hart 0x12 0, .hart 0x13 0]) = true := by decide +kernel
/-- The module is the group Hart, and module 7 tells it of the partition: weights go out, by free frames and load (07 R291). -/
def hart1 : State := { placed with hier := { placed.hier with role := 1 } }
def told : Summary := { module := 7, free := 100, ready := 0, waiting := 0 }
theorem test_span_summary_arrives : nextIs (exec (.spanSummary ⟨1, some told⟩) hart1) (fun u =>
    Map.get none u.hier.summaries (4096 + 7) == some told && u.out.length == 1 &&
      (u.part 1).weights.map Prod.fst == [0, 7]) = true := by decide +kernel
theorem meets_PlacementAndMigration_hart : hart1.hier.role = 1 ∧ told.module.toNat / 64 = hart1.hier.modn.toNat / 64 ∧
    hart1.hier.heartbeat = false := by decide +kernel
theorem test_directive : nextIs (exec (.placementDirective 1 3 [(7, 9), (5, 1)]) placed)
    (fun u => (u.part 1).weights == [(7, 9)] && u.hier.gepoch == 3) = true := by decide +kernel
theorem test_sample : nextIs (exec .placementSample placed) (fun u => Map.get (0, 0, 0) u.samples 0 == (0, 0, 1)) = true := by
  decide +kernel
theorem test_directive_absent : nextIs (exec .directiveAbsent (placed.modPart 1 fun x => { x with weights := [(7, 9)] }))
    (fun u => (u.part 1).weights == []) = true := by decide +kernel
theorem meets_PlacementAndMigration : (placed.part 1).isLive = true ∧ 2 ≤ (placed.part 1).span.length ∧
    (placed.part 1).cells ≠ [] ∧ placed.hier.gepoch ≤ 3 ∧ (placed.part 1).epoch ≤ 3 ∧ placed.hier.role ≠ 1 ∧
    placed.hier.role ≠ 2 ∧ (7 : BitVec 12) ∈ (placed.part 1).span := by decide +kernel
theorem meets_PlacementAndMigration_peer : placed.bestCell ask1 (placed.candidates ask1) = some 0 ∧
    placed.framesHeld 1 < (placed.part 1).quota ∧ placed.reg (pmcCell 0 + 0xC0) = 0 ∧
    (placed.modPart 1 fun x => { x with cells := [] }).bestCell ask1
      ((placed.modPart 1 fun x => { x with cells := [] }).candidates ask1) = none := by decide +kernel
/-- Whatever value the search for a free frame begins at, one is found. -/
theorem meets_PlacementAndMigration_frame : ∃ f, ({ placed with ctxMap := [] } : State).freeFrameFrom
    ((({ placed with ctxMap := [] } : State)).ctxMap.length + 2)
    ((Config.freeValue ({ placed with ctxMap := [] } : State).free).toNat % 2 ^ 20) = some f := by
  generalize (Config.freeValue _).toNat % 2 ^ 20 = n
  by_cases h : BitVec.ofNat 20 n = 0#20
  · exact ⟨BitVec.ofNat 20 (n + 1), by
      have h1 : ¬BitVec.ofNat 20 (n + 1) = 0#20 := by bv_omega
      simp [State.freeFrameFrom, h, h1, State.ctxEnt, Map.get, ctxEnt0]⟩
  · exact ⟨BitVec.ofNat 20 n, by simp [State.freeFrameFrom, h, State.ctxEnt, Map.get, ctxEnt0]⟩

/-- Frame 1's tokens come from cluster 1, where cell 16 is: it migrates there (07 R297; the reset values of CLC_MIG_CTRL). -/
def drawn : State := placed.modFrame 1 fun x => { x with
  total := 64
  remote := 64
  candCl := 1
  candCnt := 64 }
theorem test_window : nextIs (exec (.migrationWindowEnd 0) drawn) (fun u => (u.frame 1).state == stActive &&
    (u.cell 0).fwd.map FwdEnt.moved == [false] && u.wire == [.header 1] && u.inMove == [(1, 0, 16)] && (u.ctxEnt 1).moving) = true := by
  decide +kernel
theorem test_window_stays : nextIs (exec (.migrationWindowEnd 0) (drawn.modFrame 1 fun x => { x with remote := 10 }))
    (fun u => (u.frame 1).state == stActive && (u.frame 1).total == 0) = true := by decide +kernel
theorem meets_PlacementAndMigration_window : (drawn.cell 0).hdr = [1] ∧ drawn.cellOf 1 = 0 ∧ (drawn.frame 1).state ≠ stFree ∧
    drawn.migrates 0 (drawn.frame 1) = true ∧ drawn.mayMigrate 0 1 = true ∧ drawn.newCell 0 (drawn.frame 1) = some 16 ∧
    drawn.reg (pmcCell 0 + 0xC0) = 0 ∧ placed.migrates 0 (placed.frame 1) = false := by decide +kernel

/-- Frame 1 leaves cell 0 for cell 16, with a message of the migration on its way. -/
def leaves : FwdEnt := { frame := 1, target := 16, marks := [], scanned := false, moved := true }
def migrating (e : FwdEnt) (w : List Instr) : State :=
  { (placed.modFrame 1 fun x => { x with
      saved := stActive
      state := stMigrating }).modCell 0 fun c => { c with
        hdr := []
        fwd := [e]
        ms := [(5, { ways := [tok 0 9], spill := 0, locked := false })] } with wire := w }
/-- The header of frame 1 is on its way, and the frame has not left yet (07 R301 steps 1 and 2). -/
def leaving0 : State := { placed.modCell 0 fun c => { c with fwd := [{ leaves with moved := false }] } with wire := [.header 1] }
theorem test_header : nextIs (exec (.header 1) leaving0) (fun u => (u.cell 16).hdr == [1] && (u.cell 0).hdr == [] &&
    (u.frame 1).state == stMigrating && (u.frame 1).saved == stActive && u.wire == [.headerConfirm 1]) = true := by decide +kernel
theorem meets_PlacementAndMigration_header : leaving0.leaving 1 = some (0, { leaves with moved := false }) ∧
    (leaving0.cell 0).fwd = [{ leaves with moved := false }] ∧ leaves.target ≠ 0 ∧ leaving0.reg (pmcCell 0 + 0xC0) = 0 := by decide +kernel
theorem test_header_confirm : nextIs (exec (.headerConfirm 1) (migrating leaves [.headerConfirm 1])) (fun u =>
    (u.ctxEnt 1).cell == 16 && (u.ctxEnt 1).version == 1 && u.wire.length == 16) = true := by decide +kernel
theorem test_map_invalidate : nextIs (exec (.mapInvalidate 2 1) ((migrating leaves [.mapInvalidate 2 1]).modCluster 2 fun c =>
    { c with mapCache := [(1, 0), (4, 0)] })) (fun u => (u.cluster 2).mapCache == [(4, 0)] && u.wire == [.mapMark 2 1]) = true := by decide +kernel
theorem test_map_mark : nextIs (exec (.mapMark 2 1) (migrating leaves [.mapMark 2 1]))
    (fun u => (u.cell 0).fwd.map FwdEnt.marks == [[2]] && u.wire == []) = true := by decide +kernel
def lastMark : State := migrating { leaves with
  marks := allClusters.filter (· != 0)
  scanned := true } [.mapMark 0 1]
def cleared : State := { lastMark with slots := [] }
theorem test_map_mark_last : nextIs (exec (.mapMark 0 1) cleared) (fun u => (u.cell 0).fwd == [] && u.wire == [.endFwd 1]) = true := by
  decide +kernel
/-- A token of the frame is still at the old cell: the entry stays (07 R301 step 8). -/
theorem test_map_mark_left : nextIs (exec (.mapMark 0 1) lastMark) (fun u => (u.cell 0).fwd.map (fun e => e.marks.length) == [16] && u.wire == []) = true := by
  decide +kernel
theorem meets_PlacementAndMigration_mark : cleared.leftAt 0 1 = false ∧ lastMark.leftAt 0 1 = true ∧
    (cleared.leaving 1).map (fun e => (e.1, e.2.scanned, e.2.moved)) = some (0, true, true) := by decide +kernel
theorem test_scan : nextIs (exec (.migrationScanDone 1) (migrating leaves [])) (fun u => (u.cell 0).fwd.map FwdEnt.scanned == [true] &&
    u.wire == [.tokenAccept 16 (tok 0 9) ⟨.cell 0, 0⟩ 0 .transferred] && (u.msAt 0 5).ways == []) = true := by decide +kernel
/-- The old cell has forgotten the frame. -/
def arrived : State := (migrating leaves [.endFwd 1]).modCell 0 fun c => { c with fwd := [] }
theorem test_end_fwd : nextIs (exec (.endFwd 1) arrived) (fun u => (u.frame 1).state == stActive && (u.frame 1).holdLeft == 4) = true := by
  decide +kernel
/-- A context with nothing open, whose completion came while it moved. -/
def dueThen : State := arrived.modFrame 1 fun x => { x with
  count := 0
  due := true
  committed := true }
theorem test_end_fwd_due : nextIs (exec (.endFwd 1) dueThen) (fun u => (u.frame 1).state == stComplete) = true := by decide +kernel
theorem meets_PlacementAndMigration_due : (dueThen.frame 1).saved = stActive ∧ (dueThen.frame 1).persist = false ∧
    isNullCtx (dueThen.frame 1).contCtx = true ∧ dueThen.tokensComing 1 = false ∧ (arrived.frame 1).due = false := by decide +kernel
theorem test_map_fill : nextIs (exec (.contextMapFill 2 1) arrived) (fun u => (u.cluster 2).mapCache == [(1, 0)]) = true := by decide +kernel
theorem meets_PlacementAndMigration_steps : (migrating leaves []).leaving 1 = some (0, leaves) ∧ leaves.moved = true ∧
    ((migrating leaves []).cell 0).fwd = [leaves] ∧ leaves.scanned = false ∧ leaves.marks.length ≠ 16 ∧
    ((migrating leaves []).cell 0).ms = [(5, { ways := [tok 0 9], spill := 0, locked := false })] ∧
    Instr.endFwd 1 ∈ arrived.wire ∧ arrived.tokensComing 1 = false ∧ (arrived.frame 1).state = stMigrating ∧
    (arrived.frame 1).count ≠ 0 ∧ (arrived.cluster 2).mapCache = [] := by decide +kernel

/-- Block 1 of machine memory backs block 0 of partition 1, and the samples of a window ask for HOMING 1. -/
def sampled (n : Nat) : State := { (placed.modPart 1 fun x => { x with memMib := 2 }).modHome 0 fun x => { x with
    pageSamples := [(1, List.replicate n 5)] } with
  moves := []
  ben := { placed.ben with movePool := [2048] } }
theorem test_sample_window_few : nextIs (exec (.pageSampleWindow 0) (sampled 31)) (fun u => u.moves == [] &&
    (u.home 0).pageSamples == []) = true := by decide +kernel
theorem test_sample_window : nextIs (exec (.pageSampleWindow 0) (sampled 32)) (fun u => (u.move 0).active &&
    (u.move 0).source == 1 && (u.move 0).target == 2048) = true := by decide +kernel
theorem meets_PagesAndItems_window : bit ((sampled 32).reg (clcBase 0 + 0xD00)) 24 = true ∧
    ((sampled 32).home 0).pageSamples = [(1, List.replicate 32 5)] ∧ (sampled 32).leafOf 1 = some (1, 0, (sampled 32).peek64 (s2LeafAt 0x10000 0)) ∧
    ((sampled 32).peek64 (s2LeafAt 0x10000 0)).getLsbD 1 = false ∧ (sampled 32).ben.movePool = [2048] ∧
    pageWish ((sampled 32).regField (dirBase 0 + 0xC) 1 0) 0 (List.replicate 32 5) = .homing 2 ∧
    bit (((sampled 32).setReg (clcBase 0 + 0xD00) 0).reg (clcBase 0 + 0xD00)) 24 = false := by decide +kernel

/-- A move of machine block 1 to block 2048 with no cache at work. -/
def copying : PageMove := { active := true, part := 1, pblk := 0, source := 1, target := 2048, homing := 2, copied := 3 }
def moving (m : PageMove) : State := { State.reset with
  mem := [(0x80000, ⟨Tag.sys, 4⟩), (0x800C5, TWord.int 9)]
  moves := [(0, m)] }
theorem test_block_copy : nextIs (exec (.pageMoveBlockCopy 0 (some 1)) (moving copying)) (fun u =>
    u.dram (2048 * 2 ^ 19 + 0xC5) == TWord.int 9 && (u.dram (2048 * 2 ^ 19 + 0xC1)).tag == Tag.poison && (u.move 0).copied == 4) = true := by
  decide +kernel
theorem test_move_ack : nextIs (exec (.pageMoveTlbAck 0) (moving { copying with copied := 8192 }))
    (fun u => u.mem == [] && u.move 0 == move0) = true := by decide +kernel
/-- Where no pair of the Pantry is valid, no word is in it. -/
theorem no_pantry (s : State) (h : (allClusters.all fun g => (List.range 4).all fun j => !bit (s.reg (pantryReg g j)) 31) = true) :
    ∀ w, s.pantryOf w = none := by
  intro w
  simp only [List.all_eq_true, Bool.not_eq_true'] at h
  unfold State.pantryOf
  split
  · simp only [List.find?_eq_none, List.any_eq_true, Bool.and_eq_true, not_exists, not_and]
    intro g hg j hj hb
    exact absurd (h g hg j hj) (by simp [hb])
  · rfl
theorem meets_PagesAndItems_copy : (moving copying).move 0 = copying ∧ copying.copied + 1 < 8192 ∧
    (moving copying).clusters = [] ∧ (moving copying).homes = [] ∧ copying.target / 2 ^ 19 = (moving copying).hier.modn.toNat ∧
    copying.target % 2 ^ 19 ≠ copying.source ∧ ∀ w, (moving copying).pantryOf w = none :=
  ⟨by decide, by decide, rfl, rfl, by decide, by decide, no_pantry _ (by decide +kernel)⟩
theorem meets_PagesAndItems_ack : ((moving { copying with copied := 8192 }).move 0).copied = 8192 ∧
    (moving { copying with copied := 8192 }).blockUnused 1 = true := by decide +kernel

/-- A transaction of 8 bytes for queue 2 of partition 1 is complete at port 0 and accepted; the queue has one free
descriptor, at 0x3010, of the ring at 0x3000 (07 R311, R314); its buffer is at 0x3400. Blocks 0 and 1 are in the Pantry of
cluster 0. -/
def shelved (s : State) : State := { (((s.setReg (pantryReg 0 0) 0x80000000).setReg (pantryReg 0 1) 0x80000001).modCluster 0
  fun c => { c with pantry := s.mem }) with mem := [] }
def came : Rx := { tn := 77, lch := 3, home := 0, sub := 4, part := 1, sid := 5, words := [0x10000010, 8, 0x3400, 0, 2]
                   entry := some 6, code := 0, cmp := false, enc := false, bytes := [1, 2, 3, 4, 5, 6, 7, 8], last := true }
def arriving : State :=
  let s := (shelved (work false [])).setWorkq 1 2 { workq0 with
    bound := true
    sid := 5
    ring := 0x3000
    entries := 4
    free := [0x3010] }
  (s.setEntry 6 { entry0 with
    state := ldAccepted
    tn := 77
    kind := 1
    part := 1 }).modPort 0 fun p => { p with rx := [came] }
def buffered : State := (((arriving.dropRx 0 77).writeBuffer (portSource 0 6) 5 0x3404 2 came.bytes).2)
def itemed : Except SpaceStop State := buffered.spaceWrites 5 0x3010 (itemWords none 0 0x3404 8 77 0)
theorem test_intake : nextIs (exec (.itemIntake 0 77) arriving) (fun u => u.items.map (fun i => (i.desc, i.queue, i.tn)) == [(0x3010, 2, 77)] &&
    (u.workq 1 2).free == [] && (u.workq 1 2).items == [1] && u.peek 0x83012 == ⟨Tag.ptr, 0x3404⟩ && u.peek 0x83405 == TWord.int 0x08070605) = true := by
  decide +kernel
theorem meets_PagesAndItems_intake : (arriving.port 0).rx.find? (fun r => r.tn == 77 && r.last) = some came ∧
    (arriving.entry 6).state = ldAccepted ∧ streamQueue came.words = 2 ∧ streamFlow came.words = none ∧
    (arriving.workq 1 2).free = [0x3010] ∧ (arriving.workq 1 2).parked = [] ∧ orderCmp came.words = false ∧ orderEnc came.words = false ∧
    ((0x3010 - (arriving.workq 1 2).ring).toNat / 8 * wordsOf 8 = 4) ∧
    ((arriving.dropRx 0 77).writeBuffer (portSource 0 6) 5 0x3404 2 came.bytes).1 = true ∧
    (match itemed with
      | .ok z => decide (z.streamAt 0 3 = none ∧ z.workqs = arriving.workqs)
      | .error _ => false) = true ∧ buffered.now = arriving.now := by decide +kernel

/-- The head item of flow 9 is past the limit of its flow (07 R319). -/
def late : WItem := { id := 3, part := 1, queue := 2, desc := 0x3010, sid := 5, flow := some 9, seq := 4, taken := false
                      taker := none, releases := 0, ended := false, finished := false, abandoned := false, tn := 77 }
def overdue : State := { (arriving.setFlow 9 { flow0 with
    bound := true
    part := 1
    queue := 2
    limit := 1
    nextSeq := 5
    nextRel := 4 }) with
  ports := []
  items := [late]
  now := 2000000
  ledger := [] }
theorem test_item_limit : nextIs (exec (.itemLimitExpiry 9) overdue) (fun u => u.items == [] && (u.flow 9).nextRel == 5 &&
    (u.workq 1 2).free == [0x3010, 0x3010] && u.peek 0x83017 == TWord.int 2) = true := by decide +kernel
theorem meets_PagesAndItems_limit : overdue.flow 9 = { (overdue.flow 9) with
      nextRel := late.seq
      held := [] } ∧ overdue.itemLimit 9 ≤ (overdue.now - (overdue.flow 9).headSince).toNat ∧
    (match (({ overdue with items := [{ late with
        abandoned := true
        releases := 0 }] } : State).setFlow 9 (overdue.flow 9)).spaceWrite 5 0x3017 (TWord.int 2) with
      | .ok y => (y.findEntry 77 true).isNone
      | .error _ => false) = true := by decide +kernel

/-! ### Images and updates -/

/-- Cluster 0 with its control-store scrub on and its physical cell 0 loaded; the microword at 5 was rewritten at time 0. -/
def scrubbing : State := ((work false []).setReg (clcBase 0 + 0xC00) 0x10000).setRegField (ucCellAt 0) 0 0 1
def scrubbedBefore : State := { scrubbing.modCluster 0 fun c => { c with rewritten := [(0, 5, 0)] } with now := 1000 }
theorem test_scrub : nextIs (exec (.controlStoreScrub 0 0 5 true) scrubbing) (fun u => (u.cluster 0).rewritten == [(0, 5, 0)] &&
    u.regField (clcBase 0 + 0xCA0) 15 8 == 1 && u.col.srcs == []) = true := by decide +kernel
theorem test_scrub_again : nextIs (exec (.controlStoreScrub 0 0 5 true) scrubbedBefore)
    (fun u => (Map.get source0 u.col.srcs (clusterSource 0 0)).raw) = true := by decide +kernel
theorem meets_Updates_scrub : bit (scrubbing.reg (clcBase 0 + 0xC00)) 16 = true ∧ scrubbing.isLoaded 0 = true ∧
    bit (scrubbedBefore.reg (clcBase 0 + 0xC00)) 16 = true ∧ scrubbedBefore.isLoaded 0 = true := by decide +kernel

/-- A patch has come to physical cell 0, to which cell 0 is bound; physical cell 1 follows it. -/
def run0 : PatchRun := { finishing := false, todo := [(0, 0), (1, 0)], left := [], patched := 3, mailbox := 2, since := 9 }
def patching (busy : Bool) : State :=
  let s := if busy then scrubbing else { scrubbing with slots := [] }
  let s := s.setRegField (clcCell 1 0xF40) 4 0 2
  { (s.modCluster 0 fun c => { c with newBank := true }).modCell 0 fun c => { c with draining := true } with
    ben := { Benus.start with patch := some run0 }
    frames := [] }
theorem test_drain_complete : nextIs (exec (.cellDrainComplete 0 0) (patching false)) (fun u => u.cellBank 0 && !(u.cell 0).draining &&
    u.ben.patch.map (fun r => (r.todo, r.patched)) == some ([(1, 0)], 4)) = true := by decide +kernel
theorem test_drain_timeout : nextIs (exec (.drainTimeout 0 0) (patching true)) (fun u => !u.cellBank 0 && !(u.cell 0).draining &&
    u.regField (ucCellAt 0) 15 8 == 1 && u.ben.patch.map (fun r => r.todo) == some [(1, 0), (0, 1)]) = true := by decide +kernel
theorem meets_Updates_patch : (patching false).boundCells 0 = [0] ∧ (patching false).boundCells 1 = [] ∧
    (patching false).isDrained 0 = true ∧ (patching true).isDrained 0 = false ∧ (patching false).isLoaded 0 = true ∧
    (patching true).boundCells 0 = [0] ∧ (patching true).boundCells 1 = [] ∧
    (∀ e ∈ (patching false).cells, e.2.draining = true → (patching false).framesOn (BitVec.ofNat 8 e.1) = []) ∧
    ∀ e ∈ (patching true).cells, e.2.draining = true → (patching true).framesOn (BitVec.ofNat 8 e.1) = [] := by decide +kernel

/-- Mailbox 3 runs a command of a code, and the machine with it. -/
def reqOf (code : Nat) (r : List Byte) : List Byte := natLe 2 code ++ natLe 2 r.length ++ [7, 0, 0, 0] ++ List.replicate 8 0 ++ r
def runsIn (s : State) (code : Nat) (r : List Byte) : State := { s with ben := { s.ben with
  running := true
  mbx := [(3, { mailbox0 with
    state := mbRunning
    transport := some .svc
    request := reqOf code r })]
  order := [3] } }
def runs (s : State) (code : Nat) (r : List Byte) : Bool := s.ben.running && (s.mbx 3).state == mbRunning && (s.mbx 3).cmd == code &&
  (s.mbx 3).payload == r && (s.mbx 3).newOwner == [] && (s.mbx 3).transport == some .svc
/-- `runs` says that the hypothesis `Runs` of the statements is met. -/
theorem runs_of {s : State} {code : Nat} {r : List Byte} (h : runs s code r = true) : Runs s 3 code r := by
  simp only [runs, Bool.and_eq_true, beq_iff_eq] at h
  obtain ⟨⟨⟨⟨⟨a, b⟩, c⟩, d⟩, e⟩, f⟩ := h
  exact ⟨a, b, c, d, e, f⟩
/-- The status, the detail and the payload of the response of mailbox 3. -/
def reply (c : Instr) (s : State) (st dt : Nat) (p : List Byte) (more : State → Bool) : Bool :=
  nextIs (exec c s) fun u => u.out.head? == some (.response 3 (responseBytes (s.mbx 3).request st dt p)) && (u.mbx 3).state == mbDone && more u

/-- An image without a body of a kind, signed so that both factors of the verification are 1: r and s are the digest of the
header, and the public key is the point of that x less the base point (worked out by hand from 12 R509 and 06 R268). -/
def imageOf (magic version : List Byte) (r : Nat) : List Byte :=
  magic ++ [1, 0, 1, 0] ++ version ++ [0, 0, 8, 0, 0, 0] ++ List.replicate 16 0 ++
  natBe 48 0x38b060a751ac96384cd9327eb1b1e36a21fdb71114be07434c0cc7bf63f6e1da274edebfe76f65fbd51ad2f14898b95b ++
  List.replicate 48 0 ++ natBe 48 r ++ natBe 48 r ++ List.replicate 32 0
def bootImage : List Byte := imageOf [0x4D, 0x56, 0x50, 0x42] [3, 0] 0xd1cbbf5ea68f0d1479e16ca76f382d3a0b069e646ba4c1e01c80f9017c9e29b377dc0f0bf6cd3c1a16140d4aadcc01c0
def bootKey : List Byte := [4] ++ natBe 48 0x4546ab8fa257b8e6e6c31020345b961c3c43c214067fe018b1a5909d1c282ac5ab39a170952fe6b43131562fbccc017 ++
  natBe 48 0x86749bf32f26a062572509fa45e8e8740fff907469911dd9bb7d6f4cf1713e949f359ae7590380617a6c9b3d6a02ffd1
def benusImage : List Byte := imageOf [0x4D, 0x56, 0x42, 0x46] [1, 0] 0xb0f55523c9f304c73157e7ebd9c5be095b3433583b2be620e5f6ff9dc74eaa96985f53c0a27529405ef065f73f83aca5
def benusKey : List Byte := [4] ++ natBe 48 0x18c6f30958ac6ba1e6f96948d583d84797905e8e20585c22e0d108331374427c494148d8c2adfd2fddbfbc30441c43a1 ++
  natBe 48 0x9a9d1af3eea9c937efedce4e82ea0d63fe3668d57b706cb2abaa78c3ffe9a0164196f63de454c5fc391940abeecfa8bf
def updating (code : Nat) (r : List Byte) : State := runsIn { State.reset with ben := { Benus.start with
  staging := [(1, { bytes := benusImage
                    complete := true }), (64, { bytes := bootImage
                                                complete := true })]
  fw := [(1, { fw0 with
    imgA := benusImage
    imgB := benusImage })]
  bootKey := bootKey } } code r
theorem test_stage : reply (.fwStage 3) (updating 0x0501 [3, 0, 1, 0, 0, 0, 0, 0, 9, 8]) 0 0 [2, 0, 0, 0]
    (fun u => (u.staged 3).bytes == [9, 8]) = true := by decide +kernel
theorem test_stage_offset : reply (.fwStage 3) (updating 0x0501 [3, 0, 0, 0, 4, 0, 0, 0, 9, 8]) stField 4 [] (fun u => (u.staged 3).bytes == []) = true := by
  decide +kernel
theorem test_image_ok : (updating 0x0502 [4, 0]).imageFault 4 bootImage 0 [] = none := by decide +kernel
theorem test_commit_absent : reply (.fwCommit 3) (updating 0x0502 [4, 1]) stState 0 [] (fun u => u.ben.bootImages == []) = true := by
  decide +kernel
theorem test_confirm : reply (.fwConfirm 3) (updating 0x0503 [1]) 0 0 [0, 0] (fun u => !(u.fwKind 1).trial) = true := by decide +kernel
theorem test_revert_empty : reply (.fwRevert 3) (updating 0x0504 [3]) stNotFound 0 [] (fun u => !(u.fwKind 3).active) = true := by
  decide +kernel
/-- Slot A of a kind holds the shipped version, 4.2, where nothing else was put there (00 R2, 06 R268). -/
theorem test_shipped : (fw0.version 1 false, fw0.version 2 false, fw0.version 1 true, fw0.has true) = (0x0402, 0x0402, 0, false) := by decide
theorem meets_Updates_stage : Runs (updating 0x0501 [3, 0, 1, 0, 0, 0, 0, 0, 9, 8]) 3 0x0501 [3, 0, 1, 0, 0, 0, 0, 0, 9, 8] ∧
    Runs (updating 0x0501 [3, 0, 0, 0, 4, 0, 0, 0, 9, 8]) 3 0x0501 [3, 0, 0, 0, 4, 0, 0, 0, 9, 8] :=
  ⟨runs_of (by decide +kernel), runs_of (by decide +kernel)⟩
theorem meets_Updates_commit : Runs (updating 0x0502 [4, 0]) 3 0x0502 [4, 0] ∧ Runs (updating 0x0502 [1, 0]) 3 0x0502 [1, 0] ∧
    Runs (updating 0x0503 [1]) 3 0x0503 [1] ∧ Runs (updating 0x0503 [3]) 3 0x0503 [3] ∧ Runs (updating 0x0504 [1]) 3 0x0504 [1] ∧
    ((updating 0x0502 [4, 0]).staged (stageKey 4 0)).complete = true ∧ ((updating 0x0502 [4, 1]).staged (stageKey 4 1)).complete = false ∧
    ((updating 0x0502 [1, 0]).mbx 3).progress = 0 ∧ ((updating 0x0502 [1, 0]).staged 1).complete = true ∧
    ((updating 0x0503 [1]).fwKind 1).has false = true ∧ ((updating 0x0504 [1]).fwKind 1).has true = true ∧
    ((updating 0x0504 [1]).fwKind 1).top true = benusImage ∧ ((updating 0x0503 [3]).fwKind 3).has false = true ∧
    (({ fw0 with active := true } : FwKind).has true) = false :=
  ⟨runs_of (by decide +kernel), runs_of (by decide +kernel), runs_of (by decide +kernel), runs_of (by decide +kernel),
    runs_of (by decide +kernel), by decide +kernel⟩
/-- The key that firmware of kinds 1 to 3 is signed with is the vendor's own (a free value of the model): with the key of this
image it passes, in the commit and in the revert alike, whatever runs now. -/
theorem meets_Updates_image (h : Config.imageKey = benusKey) (code running : Nat) (full : List Byte) :
    (updating code []).imageFault 1 benusImage running full = none := by
  have e : signatureOk benusKey benusImage = true := by decide +kernel
  have f : formatOk 1 benusImage = true ∧ (imageStepping benusImage).testBit 3 = true ∧ benusKey ≠ [] ∧
    imageRollback benusImage = 0 := by decide +kernel
  have g : ((updating code []).fwKind 1).counter = 0 := rfl
  simp [State.imageFault, h, e, f, g]

/-! ### Channel programs -/

/-- Subchannel 4 of port 0 runs a program of space 5 on link channel 3; its header is at 0x3020, and its order, the entry of
which is 6, at 0x3000. -/
def prog : Program := { program0 with
  running := true
  header := 0x3020
  part := 1
  sid := 5
  stmt := 8
  tport := 1
  order := 0x3000
  tn := 99 }
def order (code : Word) (n : Word) (w4 : Word) : List Word := [code, n, 0x3400, 0, w4, 0, 0, 0]
def upPort : Port := { port0 with
  link := linkUp
  window := 16
  maxPay := 1024
  session := 5
  fseq := 40
  lchs := [(3, { linkCh0 with creditOut := 4 })] }
def withProg (p : Port) (g : Program) : State :=
  (((shelved housed).modPort 0 fun _ => { p with subs := [(4, { sub0 with
    bound := true
    sid := 5
    part := 1
    lch := 3
    prog := g })] }).setEntry 6 { entry0 with
    state := ldOpen
    tn := 77
    part := 1
    sub := 4 }).modCluster 0 fun c => { c with pantry := Map.set TWord.empty c.pantry 0x83400 (TWord.int 0x04030201) }
def opened (p : Port) (code : Word) (n : Word) (w4 : Word) : State := withProg p { prog with
  words := order code n w4
  entry := some 6 }
def leftFrame (u : State) : Option (BitVec 4 × BitVec 64 × Byte × List Byte) := match u.out with
  | [.frame 0 t f] => if f.first && f.last && f.fseq == 40 then some (t, f.tn, f.code, f.payload) else none
  | _ => none
theorem test_read : nextIs (exec (.readOrder 0 4) (opened upPort 0x10000000 8 0)) (fun u =>
    leftFrame u == some (tyReq, 77, 1, [0, 0, 0, 8]) && (u.lch 0 3).startedOut == 1) = true := by decide +kernel
theorem test_write : nextIs (exec (.writeOrder 0 4) (opened upPort 0x20000000 3 0)) (fun u =>
    leftFrame u == some (tyData, 77, 0, [1, 2, 3]) && u.outTx.map OutTx.left == [true]) = true := by decide +kernel
theorem test_sense : nextIs (exec (.senseOrder 0 4) (opened upPort 0x30000000 0 0)) (fun u =>
    leftFrame u == some (tyReq, 77, 3, [0, 0, 0, 32])) = true := by decide +kernel
theorem test_control : nextIs (exec (.controlOrder 0 4) (opened upPort 0x40000000 0 2)) (fun u =>
    leftFrame u == some (tyData, 77, 2, [])) = true := by decide +kernel
theorem test_read_waits : nextIs (exec (.readOrder 0 4) (opened port0 0x10000000 8 0)) (fun u =>
    u.out == [] && u.outTx.map OutTx.path == [none]) = true := by decide +kernel
theorem meets_ChannelPrograms : (((opened upPort 0x20000000 3 0).sub 0 4).prog).ready = true ∧
    (opened upPort 0x20000000 3 0).plat.ledgerClosed = false ∧ (opened upPort 0x20000000 3 0).outTx = [] ∧
    orderStream (order 0x20000000 3 0) = false ∧ orderCmp (order 0x20000000 3 0) = false ∧ orderEnc (order 0x20000000 3 0) = false ∧
    orderCode (order 0x10000000 3 0) = codeRead ∧ orderCode (order 0x20000000 3 0) = codeWrite ∧
    orderCode (order 0x30000000 3 0) = codeSense ∧ orderCode (order 0x40000000 3 0) = codeControl ∧
    ((opened upPort 0x20000000 3 0).touches 5 0x3400 1).bufferBytes 5 0x3400 3 = some [1, 2, 3] := by decide +kernel
theorem meets_ChannelPrograms_path : (opened upPort 0x20000000 3 0).upPath 0 3 = some 0 ∧ (opened port0 0x20000000 3 0).upPath 0 3 = none ∧
    ((opened upPort 0x20000000 3 0).entry 6).state = ldOpen ∧ ((opened upPort 0x20000000 3 0).port 0).txq = [] ∧
    ((opened upPort 0x20000000 3 0).port 0).unacked.length < ((opened upPort 0x20000000 3 0).port 0).window.toNat ∧
    ((opened upPort 0x20000000 3 0).entry 6).flow ∉ ((opened upPort 0x20000000 3 0).lch 0 3).paused ∧
    0 < (((opened upPort 0x20000000 3 0).lch 0 3).creditOut - ((opened upPort 0x20000000 3 0).lch 0 3).startedOut).toNat ∧
    (((opened upPort 0x20000000 3 0).lch 0 3).creditOut - ((opened upPort 0x20000000 3 0).lch 0 3).startedOut).toNat < 2 ^ 31 := by
  decide +kernel

/-- The order of the program is in memory still; queue 2 of the partition is bound. -/
def unfetched (code : Word) (n : Word) (w4 : Word) : State :=
  ((withProg port0 prog).setWorkq 1 2 { workq0 with
    bound := true
    sid := 5
    entries := 4 }).modCluster 0 fun c => { c with pantry :=
      (((List.range 8).zip (order code n w4)).foldl (fun m e => Map.set TWord.empty m (0x83000 + e.1)
        (if e.1 = 2 then ⟨Tag.ptr, e.2⟩ else TWord.int e.2)) c.pantry) }
def fetched (code : Word) (n : Word) (w4 : Word) : Bool :=
  let s := unfetched code n w4
  let r := s.fetchOrder (s.sub 0 4) 0x3000
  r.1 == some (order code n w4) && r.2.sub 0 4 == s.sub 0 4 && decide (r.2.ports = s.ports ∧ r.2.workqs = s.workqs ∧ r.2.regs = s.regs ∧ r.2.flows = s.flows)
theorem test_jump : nextIs (exec (.jumpOrder 0 4) (unfetched 0x50000040 0 0)) (fun u =>
    (u.sub 0 4).prog.order == 0x3400 && (u.sub 0 4).prog.due == 1) = true := by decide +kernel
theorem test_wait_event : nextIs (exec (.waitEventOrder 0 4 false) (unfetched 0x60000001 0 9)) (fun u =>
    (u.sub 0 4).prog.event == some 9) = true := by decide +kernel
theorem test_wait_event_signalled : nextIs (exec (.waitEventOrder 0 4 true) (unfetched 0x60000001 0 9)) (fun u =>
    (u.sub 0 4).prog.event == none && (u.sub 0 4).prog.order == 0x3008) = true := by decide +kernel
theorem test_read_stream : nextIs (exec (.readStreamOrder 0 4) (unfetched 0x10000010 8 2)) (fun u =>
    (u.sub 0 4).prog.streaming && (u.sub 0 4).prog.words == order 0x10000010 8 2) = true := by decide +kernel
theorem meets_ChannelPrograms_fetch : fetched 0x50000040 0 0 = true ∧ fetched 0x60000001 0 9 = true ∧ fetched 0x10000010 8 2 = true ∧
    (unfetched 0x10000010 8 2).streamAt 0 3 = none ∧ ((unfetched 0x10000010 8 2).workq 1 (streamQueue (order 0x10000010 8 2))).bound = true ∧
    ((unfetched 0x10000010 8 2).workq 1 2).sid = 5 ∧ streamFlow (order 0x10000010 8 2) = none ∧
    orderCode (order 0x50000040 0 0) = codeJump ∧ orderCode (order 0x60000001 0 9) = codeWait ∧
    (((unfetched 0x10000010 8 2).ports.all fun e => e.2.link != linkUp) && port0.link != linkUp) = true := by decide +kernel

/-- A program at its end, whose header's words can be written; with an event context, and without. -/
def ending (ctx : Word) : State := (withProg port0 { prog with
  due := 2
  outcome := 1
  residual := 4 }).setDescWord 1 24 ctx
def headerWrites (s : State) : Bool := match (s.spaceWrite 5 0x3024 (TWord.int 1)) with
  | .error _ => false
  | .ok a => match (a.spaceWrite 5 0x3025 (TWord.int 4)) with
    | .error _ => false
    | .ok b => match (b.spaceWrite 5 0x3026 (TWord.int 99)) with
      | .error _ => false
      | .ok c => match (c.spaceWrite 5 0x3027 (TWord.int 0)) with
        | .error _ => false
        | .ok d => decide (d.ports = s.ports) && d.eventCtx 1 == s.eventCtx 1
theorem test_program_end : nextIs (exec (.programEnd 0 4) (ending 1)) (fun u => (u.sub 0 4).prog == program0 &&
    u.peek 0x83024 == TWord.int 1 && u.peek 0x83026 == TWord.int 99 && u.retained.map (fun r => r.tok.val) == [⟨Tag.ptr, 0x3020⟩]) = true := by
  decide +kernel
theorem meets_ChannelPrograms_end : headerWrites (ending 1) = true ∧ headerWrites (ending 0) = true ∧
    isNullCtx ((ending 1).eventCtx 1) = false ∧ isNullCtx ((ending 0).eventCtx 1) = true ∧ ((ending 1).sub 0 4).prog.running = true ∧
    ((ending 1).sub 0 4).prog.due ≠ 0 ∧ ((ending 1).sub 0 4).prog.done = [] := by decide +kernel

/-! ### Links and channel processor pairs -/

/-- A frame of the session of port 0, whose peer's next FSEQ is 0. -/
def inFrame (tn : BitVec 64) (code : Byte) (payload : List Byte) : CFrame := { frame11 3 tn code payload with session := 5 }
def atPort (p : Port) : State := { State.reset with
  ports := [(0, p)]
  outTx := [] }
/-- The conditions of `Comes` and of `MaySend`. -/
def comes (s : State) (n typ : BitVec 4) (f : CFrame) : Bool :=
  let p := s.port n
  p.link == linkUp && !p.switching && f.crcOk && f.ver == 1 && decide (f.payload.length ≤ p.maxPay.toNat) &&
    decide (p.maxPay.toNat ≤ ownMaxPay) && (match fixedLen typ with | some k => f.payload.length == k | none => true) &&
    f.session == p.session && !f.cmp && !f.enc && p.unacked.isEmpty && (!hasFseq typ || (f.fseq == p.ackseq && decide (p.sinceAck < 15)))
theorem comes_of {s : State} {n typ : BitVec 4} {f : CFrame} (h : comes s n typ f = true) : Comes s n typ f := by
  simp only [comes, Bool.and_eq_true, beq_iff_eq, decide_eq_true_eq, Bool.not_eq_true', List.isEmpty_iff, Bool.or_eq_true] at h
  obtain ⟨⟨⟨⟨⟨⟨⟨⟨⟨⟨⟨a, b⟩, c⟩, d⟩, e⟩, e2⟩, k⟩, g⟩, i⟩, j⟩, l⟩, m⟩ := h
  refine ⟨a, b, ⟨c, d, e, e2⟩, ?_, g, ⟨i, j⟩, l, ?_⟩
  · intro k' hk
    rw [hk] at k
    simpa using k
  · intro hf
    rcases m with m | ⟨m, m2⟩
    · rw [hf] at m
      cases m
    · exact ⟨m, m2⟩
theorem maySend_of {s : State} {n : BitVec 4} (h : ((s.port n).link == linkUp && !(s.port n).switching &&
    !(s.port n).pausedPrios.getLsbD 0 && (s.port n).txq.isEmpty && decide ((s.port n).unacked.length < (s.port n).window.toNat)) = true) :
    MaySend s n := by
  simp only [Bool.and_eq_true, beq_iff_eq, decide_eq_true_eq, Bool.not_eq_true', List.isEmpty_iff] at h
  obtain ⟨⟨⟨⟨a, b⟩, c⟩, d⟩, e⟩ := h
  exact ⟨a, b, c, d, e⟩

theorem test_bad_frame : nextIs (exec (.data 0 { inFrame 77 0 [] with crcOk := false }) (atPort upPort)) (fun u =>
    u.reg (chnBase 0 + 0x30) == 1 && (Map.get source0 u.col.srcs (portSource 0 5)).raw) = true := by decide +kernel
theorem test_reserved_type : nextIs (exec (.reservedTypeFrame 0 12 (inFrame 77 0 [])) (atPort upPort)) (fun u =>
    u.reg (chnBase 0 + 0x30) == 1) = true := by decide +kernel
theorem meets_Links_bad : ((atPort upPort).port 0).link = linkUp ∧ ((atPort upPort).port 0).switching = false ∧
    (inFrame 77 0 []).crcOk = true ∧ ({ inFrame 77 0 [] with crcOk := false } : CFrame).crcOk = false ∧ 11 ≤ (11 : BitVec 4).toNat := by
  decide +kernel
theorem meets_Links_comes : Comes (atPort upPort) 0 tyAck (inFrame 0 0 []) ∧ Comes (atPort upPort) 0 tyResolve (inFrame 77 1 []) ∧
    Comes (atPort upPort) 0 tyCredit (inFrame 0 0 [0, 0, 0, 9]) ∧ Comes (atPort upPort) 0 tyPause (inFrame 0 1 []) ∧
    Comes (atPort upPort) 0 tyHello (inFrame 0 0 (List.replicate 16 0)) ∧ MaySend (atPort upPort) 0 :=
  ⟨comes_of (by decide +kernel), comes_of (by decide +kernel), comes_of (by decide +kernel), comes_of (by decide +kernel),
    comes_of (by decide +kernel), maySend_of (by decide +kernel)⟩
theorem test_credit : nextIs (exec (.credit 0 (inFrame 0 0 [0, 0, 0, 9])) (atPort upPort)) (fun u =>
    (u.lch 0 3).creditOut == 9) = true := by decide +kernel
theorem test_flowpause : nextIs (exec (.flowpause 0 { inFrame 0 1 [] with flow := 6 }) (atPort upPort)) (fun u =>
    (u.lch 0 3).paused == [6]) = true := by decide +kernel
theorem test_ack_frame : nextIs (exec (.ack 0 (inFrame 0 0 [])) (atPort upPort)) (fun u =>
    u.reg (chnBase 0 + 0x24) == 1 && (u.port 0).sinceAck == 0) = true := by decide +kernel

/-- An outbound WRITE (entry 6) or READ has its frame at the peer; the subchannel's program waits for it. -/
def awaiting (code : Word) : State :=
  let s := opened upPort code 8 0
  { s with outTx := [{ entry := 6, tn := 77, port := 0, sub := 4, lch := 3, words := order code 8 0, flow := 0, bytes := [], path := none
                       begun := true, left := true, deferred := false, got := [], cmp := false, enc := false }] }
theorem test_data : nextIs (exec (.data 0 (inFrame 77 0 [5, 6])) (awaiting 0x10000000)) (fun u =>
    u.outTx.map OutTx.got == [[5, 6]]) = true := by decide +kernel
theorem test_deferred : nextIs (exec (.e2eAck 0 (inFrame 77 0 [])) (awaiting 0x20000000)) (fun u =>
    u.outTx.map OutTx.deferred == [true]) = true := by decide +kernel
theorem test_performed : nextIs (exec (.e2eAck 0 (inFrame 77 1 [])) (awaiting 0x20000000)) (fun u => u.outTx == [] &&
    (u.entry 6).outcome == ocPerformed && (u.sub 0 4).prog.due == 2 && (u.sub 0 4).prog.done == [6]) = true := by decide +kernel
theorem meets_Links_out : Comes (awaiting 0x10000000) 0 tyData (inFrame 77 0 [5, 6]) ∧ Comes (awaiting 0x20000000) 0 tyE2e (inFrame 77 0 []) ∧
    Comes (awaiting 0x20000000) 0 tyE2e (inFrame 77 1 []) ∧ ((awaiting 0x20000000).outOf 77).isSome = true ∧
    ((awaiting 0x20000000).entry 6).kind = 0 ∧ ((awaiting 0x20000000).entry 6).doubted = false ∧
    ((awaiting 0x20000000).entry 6).isMirrored = false ∧ ((awaiting 0x20000000).sub 0 4).prog.running = true ∧
    ((awaiting 0x20000000).sub 0 4).prog.entry = some 6 ∧ (inFrame 77 0 [5, 6]).offset.toNat = 0 :=
  ⟨comes_of (by decide +kernel), comes_of (by decide +kernel), comes_of (by decide +kernel), by decide +kernel⟩

/-- Requests, queries and answers. -/
def sentE2e (u : State) (typ : BitVec 4) (code : Byte) : Bool := match u.out with
  | [.frame 0 t f] => t == typ && f.tn == 77 && f.code == code
  | _ => false
theorem test_req_read : nextIs (exec (.req 0 (inFrame 77 1 [0, 0, 0, 8])) (atPort upPort)) (fun u => sentE2e u tyE2e 2 &&
    (u.lch 0 3).startedIn == 1) = true := by decide +kernel
theorem test_req_sense : nextIs (exec (.req 0 (inFrame 77 3 [0, 0, 0, 32])) (atPort upPort)) (fun u => u.out.length == 2 &&
    (u.dup ((u.port 0).winKey 77)).performed == [77]) = true := by decide +kernel
theorem test_query : nextIs (exec (.query 0 (inFrame 77 0 [])) (atPort upPort)) (fun u => sentE2e u tyAnswer 2 &&
    (u.dup ((u.port 0).winKey 77)).fenced == [77]) = true := by decide +kernel
def doubting : State := (atPort upPort).setEntry 6 { entry0 with
  state := ldInDoubt
  doubted := true
  tn := 77
  part := 1 }
theorem test_answer : nextIs (exec (.answer 0 (inFrame 77 2 [])) doubting) (fun u => (u.entry 6).state == ldClosed && (u.entry 6).outcome == 2) = true := by
  decide +kernel
def half : Rx := { came with
  entry := some 6
  last := false }
def halfway : State := (atPort { upPort with rx := [half] }).setEntry 6 { entry0 with
  state := ldOpen
  kind := 1
  tn := 77 }
theorem test_abort : nextIs (exec (.abort 0 (inFrame 77 0 [])) halfway) (fun u => u.entry 6 == entry0 && (u.port 0).rx == []) = true := by
  decide +kernel
theorem meets_Links_in : Comes (atPort upPort) 0 tyReq (inFrame 77 1 [0, 0, 0, 8]) ∧ Comes (atPort upPort) 0 tyReq (inFrame 77 3 [0, 0, 0, 32]) ∧
    Comes (atPort upPort) 0 tyQuery (inFrame 77 0 []) ∧ Comes doubting 0 tyAnswer (inFrame 77 2 []) ∧ Comes halfway 0 tyAbort (inFrame 77 0 []) ∧
    ((atPort upPort).dup (upPort.winKey 77)).knows 77 = .new ∧ 2 ≤ upPort.window.toNat ∧
    doubting.findEntry 77 false = some (6, doubting.entry 6) ∧ doubting.outOf 77 = none ∧ (doubting.part 1).notice = none ∧
    (doubting.part 1).noticeWait = [] ∧ (halfway.port 0).rx = [half] ∧ halfway.streamAt 0 3 = none :=
  ⟨comes_of (by decide +kernel), comes_of (by decide +kernel), comes_of (by decide +kernel), comes_of (by decide +kernel),
    comes_of (by decide +kernel), by decide +kernel⟩

/-- Port 0 in HELLO state, and the HELLO of a channel device with number 9, session 6 and no capability. -/
def hailing : State := atPort { port0 with
  link := linkHello
  session := 3
  proposal := 3 }
def hail : CFrame := frame11 0 0 0 [0, 9, 0, 6, 4, 0, 0, 32, 0, 0, 0, 0, 0, 0, 0, 0]
theorem test_hello : nextIs (exec (.hello 0 hail) hailing) (fun u => (u.port 0).link == linkUp && (u.port 0).session == 7 &&
    (u.port 0).window == 32 && (u.port 0).maxPay == 1024 && (u.port 0).peer == 9 && u.out.length == 1) = true := by decide +kernel
theorem meets_Links_hello : (hailing.port 0).link = linkHello ∧ (hailing.port 0).switching = false ∧
    (hailing.port 0).pausedPrios.getLsbD 0 = false ∧ hail.crcOk = true ∧ hailing.helloValid 0 hail = true ∧ hailing.outTx = [] ∧
    hailing.ledger = [] ∧ hailing.copies = [] ∧ (hailing.port 0).lchs = [] ∧ (hailing.port 0).resolves = [] ∧
    ∀ e ∈ hailing.ports, ∀ b ∈ e.2.subs, b.2.prog.streaming = false := by decide +kernel

/-- What timers, locks and time-outs do. -/
theorem test_ack_timer : nextIs (exec (.linkAckTimer 0) (atPort upPort)) (fun u => u.out.length == 1 && (u.port 0).fseq == 40) = true := by
  decide +kernel
def pausingPort : Port := { upPort with
  caps := 4
  lchs := [(3, { linkCh0 with
    creditIn := 12
    pausing := [6] })] }
theorem test_credit_repeat : nextIs (exec (.creditRepeat 0 3) (atPort pausingPort)) (fun u => match u.out with
    | [.frame 0 7 f] => f.lch == 3 && f.payload == [0, 0, 0, 12]
    | _ => false) = true := by decide +kernel
theorem test_flowpause_repeat : nextIs (exec (.flowpauseRepeat 0 6) (atPort pausingPort)) (fun u => match u.out with
    | [.frame 0 8 f] => f.lch == 3 && f.flow == 6 && f.code == 1
    | _ => false) = true := by decide +kernel
def unackedPort (k : Nat) : Port := { upPort with
  timeouts := k
  unacked := [{ fseq := 39
                typ := tyReq
                frame := inFrame 77 1 [0, 0, 0, 8] }] }
theorem test_retransmit : nextIs (exec (.retransmissionTimeout 0) (atPort (unackedPort 0))) (fun u => (u.port 0).timeouts == 1 &&
    (match u.out with
      | [.frame 0 3 f] => f.retx && f.tn == 77
      | _ => false)) = true := by decide +kernel
theorem test_retransmit_ends : nextIs (exec (.retransmissionTimeout 0) (atPort (unackedPort 7))) (fun u =>
    (u.port 0).link == linkDown && u.reg (chnBase 0 + 0x38) == 1) = true := by decide +kernel
theorem meets_Links_timers : (atPort upPort).streamAt 0 3 = none ∧ pausingPort.caps.getLsbD 2 = true ∧
    (atPort (unackedPort 0)).retries 0 = 8 ∧ (unackedPort 0).unacked ≠ [] ∧ (∀ r ∈ (unackedPort 0).rx, r.last = true) ∧
    MaySend (atPort pausingPort) 0 := ⟨by decide +kernel, by decide, by decide +kernel, by decide, by decide, maySend_of (by decide +kernel)⟩
/-- Benus has enabled port 0 (11 R496). -/
def enabledOnly (l : BitVec 2) (lock : Bool) : State := (atPort { port0 with
  link := l
  session := 3
  pcs := lock }).setRegField (chnBase 0) 16 16 1
/-- Benus has recovered the Ledger since the start (01 R28). -/
def recovered (s : State) : State := { s with ben := { s.ben with recovered := true } }
def enabled (l : BitVec 2) (lock : Bool) : State := recovered (enabledOnly l lock)
/-- Before that a port that locks brings up no link. -/
theorem test_lock_early : nextIs (exec (.pcsLock 0) (enabledOnly linkDown false)) (fun u => (u.port 0).link == linkDown && (u.port 0).pcs) = true := by
  decide +kernel
theorem test_lock : nextIs (exec (.pcsLock 0) (enabled linkDown false)) (fun u => (u.port 0).link == linkHello && (u.port 0).proposal == 3 &&
    u.out.length == 1) = true := by decide +kernel
theorem test_lock_off : nextIs (exec (.pcsLock 0) (atPort port0)) (fun u => (u.port 0).link == linkDown && (u.port 0).pcs) = true := by
  decide +kernel
theorem test_hello_resend : nextIs (exec (.helloResend 0) (enabled linkDown true)) (fun u => (u.port 0).link == linkHello) = true := by
  decide +kernel
theorem test_hello_timeout : nextIs (exec (.helloTimeout 0) hailing) (fun u => u.out == [.notify 0x48 0]) = true := by decide +kernel
theorem test_lock_loss : nextIs (exec (.pcsLockLoss 0) (atPort upPort)) (fun u => (u.port 0).link == linkDown && !(u.port 0).pcs) = true := by
  decide +kernel
theorem meets_Links_locks : (enabled linkDown true).portEnabled 0 = true ∧ (atPort port0).portEnabled 0 = false ∧
    ((enabled linkDown true).port 0).link = linkDown ∧ ((enabled linkDown true).port 0).pcs = true := by decide +kernel

/-- The mirror partner has the copy of entry 6, an order's; of entry 7, a program's own. -/
def mirroring (k : Byte) : State := (housed.setDescWord 1 24 1).setEntry 6 { entry0 with
  state := ldMirroring
  tn := 77
  kind := k
  part := 1
  desc := 0x3020 }
theorem test_mirror_ack : nextIs (exec (.mirrorCopyAck ⟨77, none⟩) (mirroring 0)) (fun u => (u.entry 6).state == ldOpen) = true := by decide +kernel
theorem test_mirror_ack_program : nextIs (exec (.mirrorCopyAck ⟨77, none⟩) (mirroring 8)) (fun u => (u.entry 6).state == ldClosed &&
    u.retained.map (fun r => r.tok.val) == [⟨Tag.ptr, 0x3020⟩]) = true := by decide +kernel
theorem meets_Links_mirror : (mirroring 8).ledger.find? (fun e => e.2.tn == 77 && e.2.state == ldMirroring) = some (6, (mirroring 8).entry 6) ∧
    ((mirroring 8).entry 6).kind.getLsbD 3 = true ∧ ((mirroring 0).entry 6).kind.getLsbD 3 = false ∧ (mirroring 0).outOf 77 = none ∧
    isNullCtx ((mirroring 8).eventCtx 1) = false := by decide +kernel

/-- A copy of an entry of module 7, whose mirror partner this module, number 0, is. -/
def copied : Ledger := { entry0 with
  state := ldOpen
  tn := 0x0070000000010000
  kind := 2
  partner := 0
  body := List.replicate 6 0
  isMirrored := true }
def paired : State := { State.reset with hier := { Hier.start with partner := some 7 } }
theorem test_mirror_copy : nextIs (exec (.mirrorCopyAck ⟨0, some copied.words⟩) paired) (fun u => u.copies == [copied] &&
    u.out == [.mirrorAck 0x0070000000010000]) = true := by decide +kernel
theorem meets_Links_copy : paired.hier.partner.isSome = true ∧ copied.words.length = 16 ∧
    (paired.entryOf copied.words).partner = paired.hier.modn ∧ (paired.entryOf copied.words).state ≠ ldFree ∧ paired.copies.length < 2 ^ 21 := by
  decide +kernel

/-- The two sides of channel processor 0. -/
theorem test_pause_frame : nextIs (exec (.pauseFrame 0 6 true) (atPort upPort)) (fun u => (u.port 0).pausedPrios == 6) = true := by
  decide +kernel
def standing : State := atPort { upPort with standbyOk := true }
theorem test_mismatch : nextIs (exec (.cpMismatch 0 0) standing) (fun u => (u.port 0).switching && (u.port 0).failedSides == 1 &&
    (u.port 0).link == linkUp) = true := by decide +kernel
theorem test_mismatch_alone : nextIs (exec (.cpMismatch 0 0) (atPort upPort)) (fun u => (u.port 0).link == linkDown) = true := by
  decide +kernel
def switching : State := atPort { upPort with
  switching := true
  swapping := true }
theorem test_switch_over : nextIs (exec (.switchOverDone 0) switching) (fun u => (u.port 0).side && (u.port 0).testing &&
    !(u.port 0).switching) = true := by decide +kernel
def testing (m : Option (BitVec 5)) : State := runsIn (atPort { upPort with
  testing := true
  swapMbx := m }) 0x0505 [0]
theorem test_self_test : nextIs (exec (.cpSelfTestDone 0 true) (testing none)) (fun u => (u.port 0).standbyOk && !(u.port 0).testing) = true := by
  decide +kernel
theorem test_self_test_fails : nextIs (exec (.cpSelfTestDone 0 false) (testing none)) (fun u => !(u.port 0).standbyOk &&
    (u.port 0).failedSides == 2) = true := by decide +kernel
theorem meets_Links_pair : (standing.port 0).active = (0 : BitVec 1).toNat ∧ (standing.port 0).standbyOk = true ∧
    (switching.port 0).held = [] ∧ (switching.port 0).txq = [] ∧ (switching.port 0).unacked = [] ∧
    ((testing (some 3)).port 0).testing = true ∧ ((testing (some 3)).port 0).swapMbx = some 3 ∧
    ((testing (some 3)).mbx 3).transport = some .svc ∧ ((testing (some 3)).mbx 3).newOwner = [] ∧ (standing.port 0).txq = [] := by
  decide +kernel

/-! ### Engines, keys and random bits -/

/-- Cluster 0's Pantry with further words of block 1. -/
def stock (s : State) (ws : List (Nat × TWord)) : State := s.modCluster 0 fun c => { c with
  pantry := ws.foldl (fun m e => Map.set TWord.empty m e.1 e.2) c.pantry }
/-- The words of bytes, from a machine word on. -/
def filled (at_ : Nat) (bs : List Byte) : List (Nat × TWord) := (bytesWords bs.length bs).zipIdx.map fun e => (at_ + e.2, TWord.int e.1)
/-- Command 1 of slice 2 runs on engine 0 of a class: its SRC is at 0x3400, its DST at 0x3500, its AUX at 0x3600. -/
def eCmd (op : Nat) (n cap aux : Nat) (par : Word) : ECmd :=
  { id := 1, slice := 2, desc := 0x3020
    words := [BitVec.ofNat 32 (op * 2 ^ 24 + 0x10008), 0x3400, BitVec.ofNat 32 n, 0x3500, BitVec.ofNat 32 cap, 0x20003, 0x3600,
      BitVec.ofNat 32 aux, 0, 0, par, 0]
    sid := 5, part := 1, engine := some 0, status := none, detail := 0, outLen := 0 }
def sliceOf (c : ECmd) : Slice := { slice0 with
  state := slActive
  sid := 5
  part := 1
  depth := 4
  share := 1
  credit := 1
  queue := [c] }
def keyOf3 (typ : Byte) (m : List Byte) : Key := { inUse := true, gen := 1, sid := 5, typ := typ, material := m }
def engine (k : BitVec 3) (c : ECmd) (typ : Byte) (m src aux : List Byte) : State :=
  let s := (shelved ((housed.setDescWord 1 24 1).modPart 1 fun p => { p with
    isLive := true
    keyQuota := 8 })).modEclass k fun e => { e with slices := [(2, sliceOf c)] }
  stock ({ (s.setKey 3 (keyOf3 typ m)).setRegField esStat 31 31 1 with ben := { s.ben with rootKey := List.replicate 48 1 } })
    (filled 0x83400 src ++ filled 0x83600 aux)
def worksOn (s : State) (k : BitVec 3) (c : ECmd) : Bool := s.running k 0 == some c && c.status.isNone && (s.slice k c.slice).queue == [c]
theorem works_of {s : State} {k : BitVec 3} {c : ECmd} (h : worksOn s k c = true) : Works s k 0 (descOp c.words) c := by
  simp only [worksOn, Bool.and_eq_true, beq_iff_eq, Option.isNone_iff_eq_none] at h
  exact ⟨h.1.1, h.1.2, rfl, h.2⟩
/-- What a command ends with: its status, how many bytes it wrote and DETAIL, and the words at DST. -/
def ended (i : Instr) (s : State) (k : BitVec 3) (st : Byte) (len : Nat) (ws : List TWord) : Bool :=
  nextIs (exec i s) fun u => (u.slice k 2).queue.map (fun c => (c.status, c.outLen)) == [(some st, len)] &&
    (List.range ws.length).map (fun j => u.peek (0x83500 + j)) == ws
def abc : List Byte := [0x61, 0x62, 0x63]
/-- FIPS 180-4's example (12 R509). -/
theorem test_sha256 : ended (.sha256 0) (engine 2 (eCmd opSha256 3 32 0 0) 0 [] abc []) 2 0 32
    ((filled 0 (natBe 32 0xba7816bf8f01cfea414140de5dae2223b00361a396177a9cb410ff61f20015ad)).map Prod.snd) = true := by decide +kernel
theorem test_sha256_small : ended (.sha256 0) (engine 2 (eCmd opSha256 3 31 0 0) 0 [] abc []) 2 6 0 [] = true := by decide +kernel
theorem test_ctr_no_key : ended (.ctr 0) (engine 1 (eCmd opCtr 3 16 16 0) 5 [] abc (List.replicate 16 0)) 1 7 0 [] = true := by
  decide +kernel
theorem test_compress_small : ended (.compress 0) (engine 0 (eCmd opCompress 3 4 0 0xC00) 0 [] abc []) 0 6 0 [] = true := by decide +kernel
theorem test_decompress_bad : ended (.decompress 0) (engine 0 (eCmd opDecompress 3 4 0 0) 0 [] abc []) 0 8 0 [] = true := by decide +kernel
/-- A stream of one block whose header is malformed (12 R508). -/
def badStream : List Byte := [0x4C, 0x46, 1, 12, 0, 0, 0, 0, 1, 0, 0, 0, 4, 0, 0, 0] ++ List.replicate 12 0
theorem test_decompress_partial : nextIs (exec (.decompress 0) (engine 0 (eCmd opDecompress 28 64 0 0) 0 [] badStream [])) (fun u =>
    (u.slice 0 2).queue.map (fun c => (c.status, c.outLen)) == [(some 1, 4)] && (u.peek 0x83500).tag == Tag.poison) = true := by decide +kernel
theorem test_keydestroy : nextIs (exec (.keydestroy 0) (engine 4 (eCmd opKeydestroy 0 0 0 0) 5 [1] [] [])) (fun u =>
    !(u.key 3).inUse && (u.key 3).gen == 2) = true := by decide +kernel
theorem test_random_stopped : ended (.random 0) ((engine 4 (eCmd opRandom 0 8 0 0) 0 [] [] []).setReg esStat 0) 4 9 0 [] = true := by
  decide +kernel
theorem test_pubkey : nextIs (exec (.pubkey 0) (engine 4 (eCmd opPubkey 0 64 0 0) 7 (natBe 32 1) [] [])) (fun u =>
    u.peek 0x83500 == TWord.int 0xF2D1176B) = true := by decide +kernel

/-- Each operation with a command that runs, whose inputs can be read, and whose key (where it has one) is there. -/
def opCases : List (BitVec 3 × Nat × Byte × Nat × Nat) :=
  [(0, opCompress, 0, 3, 0), (0, opDecompress, 0, 3, 0), (1, opGcmEnc, 1, 3, 12), (1, opGcmDec, 2, 19, 12), (1, opXtsEnc, 3, 16, 16),
   (1, opXtsDec, 4, 16, 16), (1, opCtr, 1, 3, 16), (2, opSha256, 0, 3, 0), (2, opSha384, 0, 3, 0), (2, opSha3, 0, 3, 0), (2, opHmac256, 5, 3, 0),
   (2, opHmac384, 6, 3, 0), (3, opSign256, 7, 32, 0), (3, opSign384, 8, 48, 0), (3, opVerify256, 0, 96, 64), (3, opVerify384, 0, 144, 96),
   (4, opRandom, 0, 0, 0), (4, opKeygen, 0, 0, 0), (4, opKeyimport, 0, 100, 0), (4, opKeyexport, 5, 0, 0), (4, opKeydestroy, 5, 0, 0),
   (4, opPubkey, 7, 0, 0)]
def caseState (o : BitVec 3 × Nat × Byte × Nat × Nat) : State :=
  engine o.1 (eCmd o.2.1 o.2.2.2.1 4096 o.2.2.2.2 0xC01) o.2.2.1 [7, 7] (List.replicate o.2.2.2.1 3) (List.replicate o.2.2.2.2 4)
theorem meets_Engines : (opCases.all fun o => let c := eCmd o.2.1 o.2.2.2.1 4096 o.2.2.2.2 0xC01
    worksOn (caseState o) o.1 c && descOp c.words == o.2.1 && (o.2.2.1 == 0 || ((caseState o).keyOf 5 (descKey c.words) [o.2.2.1.toNat]).isSome) &&
    (match ((caseState o).touchInputs c).inputs c with
      | .ok (src, aux, _) => src == List.replicate (if usesSrc o.2.1 then o.2.2.2.1 else 0) 3 && aux == List.replicate (if usesAux o.2.1 then o.2.2.2.2 else 0) 4
      | .error _ => false)) = true := by decide +kernel
theorem meets_Engines_bound : Lenfaim.bound 12 false 3 = 31 ∧ Lenfaim.header abc = none ∧ Lenfaim.header badStream = some (12, 4) ∧
    (Lenfaim.decompress 12 4 badStream).findIdx? (fun p => p.2.isNone) = some 0 ∧
    Lenfaim.header ([0x4C, 0x46, 1, 12] ++ List.replicate 12 0) = some (12, 0) ∧ Lenfaim.decompress 12 0 ([0x4C, 0x46, 1, 12] ++ List.replicate 12 0) = [] ∧
    descCmp (eCmd opGcmEnc 3 16 12 0).words = false := by decide +kernel
/-- DST can be written, and the DRBG runs or not. -/
theorem meets_Engines_out : ((caseState (2, opSha256, 0, 3, 0)).putOut (engineUnit 2 0) 5 0x3500 [TWord.int 1, TWord.int 2] 0).1 = none ∧
    ((caseState (2, opSha256, 0, 3, 0)).putOut (engineUnit 2 0) 5 0x3500 [TWord.int 1, TWord.int 2] 0).2.classes = (caseState (2, opSha256, 0, 3, 0)).classes ∧
    (caseState (4, opRandom, 0, 0, 0)).drbgRuns = true ∧ ((caseState (4, opRandom, 0, 0, 0)).setReg esStat 0).drbgRuns = false := by decide +kernel
theorem meets_Engines_keys : (caseState (4, opKeygen, 0, 0, 0)).freeKeyFrom 2 0 = some 0 ∧ (caseState (4, opKeygen, 0, 0, 0)).keys.length = 1 ∧
    (caseState (4, opKeygen, 0, 0, 0)).keysOf 1 < ((caseState (4, opKeygen, 0, 0, 0)).part 1).keyQuota ∧
    1 ≤ field (descParam (eCmd opKeygen 0 0 0 0xC01).words) 3 0 ∧ field (descParam (eCmd opKeygen 0 0 0 0xC01).words) 3 0 ≤ 8 := by decide +kernel

/-- A command that waits, and one that has come to its result. -/
def pendingCmd : State := engine 2 { eCmd opSha256 3 32 0 0 with engine := none } 0 [] abc []
def resulted : State := engine 2 { eCmd opSha256 3 32 0 0 with
  status := some 6
  detail := 4 } 0 [] abc []
theorem test_dispatch : nextIs (exec (.engineDispatch 2 0) pendingCmd) (fun u => (u.slice 2 2).queue.map ECmd.engine == [some 0] &&
    (u.slice 2 2).credit == 0) = true := by decide +kernel
theorem test_dispatch_lost : nextIs (exec (.engineDispatch 2 0) (pendingCmd.setReg (engBase 2) 15)) (fun u =>
    (u.slice 2 2).queue.map ECmd.status == [some 11]) = true := by decide +kernel
theorem test_complete : nextIs (exec (.engineComplete 2 0) resulted) (fun u => (u.slice 2 2).queue == [] && u.peek 0x8302C == TWord.int 6 &&
    u.peek 0x8302E == TWord.int 4 && u.reg (engBase 2 + 0x428) == 1 && u.retained.map (fun r => r.tok.val) == [⟨Tag.ptr, 0x3020⟩]) = true := by
  decide +kernel
theorem meets_Engines_dispatch : (0 : BitVec 4).toNat < engineCount 2 ∧ pendingCmd.running 2 0 = none ∧
    (pendingCmd.eclass 2).slices = [(2, sliceOf { eCmd opSha256 3 32 0 0 with engine := none })] ∧ pendingCmd.engineFailed 2 0 = false ∧
    (pendingCmd.setReg (engBase 2) 15).engineLeft 2 = false ∧ (resulted.running 2 0).map ECmd.status = some (some 6) ∧
    (resulted.slice 2 2).state ≠ slQuiescing ∧ isNullCtx (resulted.eventCtx 1) = false ∧
    (match resulted.spaceWrite 5 0x302C (TWord.int 6) with
      | .error _ => false
      | .ok a => match a.spaceWrite 5 0x302D (TWord.int 0) with
        | .error _ => false
        | .ok b => match b.spaceWrite 5 0x302E (TWord.int 4) with
          | .error _ => false
          | .ok d => decide (d.classes = resulted.classes)) = true := by decide +kernel
theorem test_reseed : nextIs (exec .drbgReseed { (State.reset.setRegField esStat 31 31 1) with drbg := 9 }) (fun u => u.drbg == 0 &&
    u.regField esStat 15 0 == 1) = true := by decide +kernel
theorem test_health_fail : nextIs (exec .entropyHealthFail (State.reset.setRegField esStat 31 31 1)) (fun u => !u.drbgRuns &&
    u.col.store.map (fun r => (r.fr.kind, r.fr.source)) == [(1, 0x5B6)]) = true := by decide +kernel
theorem test_recovery : nextIs (exec .entropyRecovery (State.reset.setRegField esStat 30 30 1)) (fun u => u.drbgRuns) = true := by
  decide +kernel
theorem meets_Engines_source : (State.reset.setRegField esStat 31 31 1).drbgRuns = true ∧
    bit ((State.reset.setRegField esStat 30 30 1).reg esStat) 30 = true := by decide +kernel
/-- A blob of a 32-byte key of type 5 of space 5 under the wrapping key of that space (12 R513). -/
def blob : List Byte := [1, 5, 32, 0, 5, 0, 0, 0] ++ List.replicate 12 2 ++
  natBe 80 0xc49737ccf7d341aa717fc257e2df613e1249e73173a9885f4fc5ee4de73c406f7763be0d9e32d4a69cff36bbfaa15367f39b899429a8541a94d43ceb11dcfd091e07e232847fdbcab66ba56ec798f20a
def importing (b : List Byte) : State := engine 4 (eCmd opKeyimport 100 0 0 0) 0 [] b []
theorem meets_Engines_import : Aes.gcmDecrypt ((importing blob).spaceWrapKey 5) ((blob.drop 8).take 12) (blob.take 8) (blob.drop 20) =
    some (List.replicate 32 9 ++ List.replicate 32 0) := by decide +kernel
theorem meets_Engines_import_none : Aes.gcmDecrypt ((importing [1]).spaceWrapKey 5) [] [1] [] = none := by decide +kernel
theorem meets_Engines_import_fields : bytesAt blob 0 1 = 1 ∧ bytesAt blob 1 1 = 5 ∧ bytesAt blob 2 2 = keyBytes 5 ∧ keyBytes 5 ≠ 0 ∧
    bytesAt blob 4 2 = 5 ∧ bytesAt blob 6 2 = 0 ∧ blob.length = 100 := by decide +kernel

/-! ### Reliability -/

/-- Cell 0's strand of `work` on a spare: physical cell 16 has taken its parts (13 R544). -/
def replacing : State := { ((work false [(3, TWord.int 7)]).modSlot 0 0 fun t => { t with
    retries := 1
    lost := true
    shadow := { t.shadow with
      pc := 0x1800
      regs := [(3, TWord.int 4)] } }) with
  col := { Collector.start with copying := [(0, 16)] } }
theorem test_spare_resume : nextIs (exec (.spareResume 0 []) replacing) (fun u => u.regField (clcCell 0 0xF40) 4 0 == 16 &&
    (u.slot 0 0).pc == 0x1800 && (u.slot 0 0).regs == [(3, TWord.int 4)] && (u.cell 0).tlb == [] && u.col.copying == []) = true := by
  decide +kernel
theorem meets_Reliability_spare : replacing.col.copying = [(0, 16)] ∧ replacing.col.store = [] ∧ (replacing.slot 0 0).state = .run ∧
    (replacing.slot 0 0).wait = .none := by decide +kernel

/-- The strand's commit point waits for the digest of its twin, cell 1's physical cell; after n retries. -/
def twinned (n : Nat) : State := ((replacing.setReg (clcCell 0 0xF80) 0x80000001).modSlot 0 0 fun t => { t with
  wait := .twin
  retries := n
  lost := false })
theorem test_digest_agrees : nextIs (exec (.twinDigest 0 0 9 9) (twinned 0)) (fun u => (u.slot 0 0).agreed && (u.slot 0 0).wait == .none) = true := by
  decide +kernel
theorem test_digest_differs : nextIs (exec (.twinDigest 0 0 9 8) (twinned 0)) (fun u => (u.slot 0 0).retries == 1 &&
    (u.slot 0 0).pc == 0x1800 && u.col.selfTests == []) = true := by decide +kernel
theorem test_twin_timeout : nextIs (exec (.twinTimeout 0 0) (twinned 3)) (fun u => (u.slot 0 0).lost && u.col.selfTests == [(0, 0)]) = true := by
  decide +kernel
def selfTesting (s : State) : State := { s with col := { Collector.start with selfTests := [(0, 0)] } }
theorem test_twin_failed : nextIs (exec (.twinSelfTestDone 0 0 false true) (selfTesting (twinned 0))) (fun u => (u.cell 0).stopped &&
    u.col.copying == [(0, 16)] && u.regField (clcCell 0 0xF40) 9 8 == 1) = true := by decide +kernel
theorem meets_Reliability_twin : (twinned 0).atExchange 0 0 = true ∧ (twinned 0).reg (pmcCell 0 + 0xC0) = 0 ∧ (twinned 0).retryMax 0 = 2 ∧
    (selfTesting (twinned 0)).items = [] ∧ frameOf ((selfTesting (twinned 0)).slot 0 0).act.ctx = 1 ∧
    ((selfTesting (twinned 0)).frame 1).state = stActive ∧ (selfTesting (twinned 0)).regField (clcCell 0 0xF40) 9 8 = 0 ∧
    ((selfTesting (twinned 0)).markFailed 0 ((selfTesting (twinned 0)).regField (clcCell 0 0xF40) 4 0)).freeSpare 0 = some 16 := by decide +kernel

/-- Bit 3 of channel port 0 (source 1155), enabled with a threshold of n events. -/
def src3 : BitVec 11 := 1155
def sourced (n : Nat) (x : Source) : State := { State.reset.setReg (srcCfgAt 1155) (BitVec.ofNat 32 (2 ^ 31 + n * 256)) with
  col := { Collector.start with srcs := [(1155, x)] } }
def rising : Source := { source0 with
  raw := true
  openWin := true }
theorem test_sample_counts : nextIs (exec (.faultSample []) (sourced 4 rising)) (fun u => u.regField (srcCntAt 1155) 7 0 == 1 &&
    (u.source 1155).asserted && u.col.store.map (fun r => (r.fr.kind, r.isOpen)) == [(1, false)]) = true := by decide +kernel
theorem test_sample_detects : nextIs (exec (.faultSample []) (sourced 1 rising)) (fun u => bit (u.reg (fclBase + 0x200 + 144)) 3 &&
    u.col.store.map (fun r => (r.fr.kind, r.isOpen)) == [(2, true)]) = true := by decide +kernel
theorem test_sample_rails : nextIs (exec (.faultSample [(src3, 3)]) (sourced 1 rising)) (fun u => (u.source 1155).samples == 1) = true := by
  decide +kernel
def wired (n : Nat) (r : BitVec 2) (latch : Bool) : State := ((sourced 4 { source0 with
  samples := n
  rails := r }).setReg (srcCfgAt 1183) 0).setReg (fclBase + 0x400 + 144) (if latch then 8 else 0)
theorem test_wire_fault : nextIs (exec (.wireFault src3) (wired 4 3 false)) (fun u => u.reg (fclBase + 0x400 + 144) == 8 &&
    (u.source 1183).asserted) = true := by decide +kernel
theorem test_wire_clear : nextIs (exec (.wireFaultClear src3) (wired 0 1 true)) (fun u => u.reg (fclBase + 0x400 + 144) == 0) = true := by
  decide +kernel
theorem meets_Reliability_sample : (1155 : Nat) < 1536 ∧ (sourced 4 rising).tstOpen = false ∧ (sourced 4 rising).source 1155 = rising ∧
    bit ((sourced 4 rising).reg (fclBase + 0x400 + 144)) 3 = false ∧ (sourced 4 rising).srcEnabled 1155 = true ∧
    (sourced 4 rising).regField (srcCntAt 1155) 7 0 + 1 < (sourced 4 rising).srcN 1155 ∧ rising.interval < (sourced 4 rising).regField fclBase 15 0 ∧
    (sourced 1 rising).srcN 1155 ≤ 1 ∧ (sourced 1 rising).srcReact 1155 = 0 ∧ (sourced 1 rising).openRecord 36 = none := by decide +kernel
theorem meets_Reliability_wire : 4 ≤ ((wired 4 3 false).source 1155).samples ∧ bit ((wired 4 3 false).reg (fclBase + 0x400 + 144)) 3 = false ∧
    1155 % 32 ≠ 31 ∧ (wired 4 3 false).srcEnabled (32 * 36 + 31) = false ∧ (wired 4 3 false).tstOpen = false ∧
    ((wired 0 1 true).source 1155).rails = 1 ∧ bit ((wired 0 1 true).reg (fclBase + 0x400 + 144)) 3 = true := by decide +kernel
def windowed : State := (sourced 4 { source0 with openWin := true }).setReg (srcCntAt 1155) 0x502
theorem test_window_end : nextIs (exec (.faultWindowEnd src3) windowed) (fun u => u.reg (srcCntAt 1155) == 0x500 &&
    !(u.source 1155).openWin) = true := by decide +kernel
def stormy : State := sourced 4 { source0 with
  storm := true
  interval := 2
  stormEvents := 60 }
theorem test_storm_end : nextIs (exec (.stormIntervalEnd src3) stormy) (fun u => !(u.source 1155).storm &&
    u.col.store.map (fun r => (r.fr.kind, r.fr.count)) == [(10, 60)]) = true := by decide +kernel
theorem test_interval_end : nextIs (exec (.stormIntervalEnd src3) (sourced 4 { source0 with interval := 9 })) (fun u =>
    (u.source 1155).interval == 0) = true := by decide +kernel
theorem meets_Reliability_window : (windowed.source 1155).openWin = true ∧ (windowed.source 1155).asserted = false ∧
    (stormy.source 1155).storm = true ∧ 4 * (stormy.source 1155).interval < stormy.regField fclBase 15 0 ∧
    (stormy.source 1155).kept = none ∧ windowed.tstOpen = false := by decide +kernel

/-- A record that waits to be logged; the collector's feeds. -/
def record1 : Stored := { fr := ({ kind := 1, source := 3 } : RecInfo).toRec 9 5, isOpen := false, logged := false, sticky := false }
def collected (c : Collector) : State := { State.reset with
  col := c
  ben := { Benus.start with running := true } }
theorem test_record_logged : nextIs (exec (.recordLogged 9) (collected { Collector.start with store := [record1] })) (fun u =>
    u.col.store == [] && u.ben.ram.map (fun e => (e.typ, e.lseq)) == [(1, 1)]) = true := by decide +kernel
theorem test_feed_starts : nextIs (exec .watchdogFeedCollector (collected { Collector.start with benusFed := true })) (fun u =>
    u.col.aliveA && !u.col.armed) = true := by decide +kernel
def fed : State := (collected { Collector.start with
  armed := false
  aliveA := true }).setRegField (fclBase + 8) 31 31 0
theorem test_alive_toggle : nextIs (exec .aliveToggle fed) (fun u => !u.col.aliveA && u.col.aliveB) = true := by decide +kernel
theorem test_feed_missing : nextIs (exec (.aliveFeedMissing true) fed) (fun u => !u.col.aliveA && bit (u.reg (fclBase + 8)) 31 &&
    u.regField (fclBase + 8) 30 29 == 2) = true := by decide +kernel
theorem meets_Reliability_alive : bit (fed.reg (fclBase + 8)) 31 = false ∧ fed.col.armed = false ∧
    (collected { Collector.start with store := [record1] }).ben.running = true ∧ Collector.start.armed = true := by decide +kernel

/-! ### Mailboxes, Benus and what it tells -/

/-- Mailbox 3 in a state, of a transport and an owner, with an older request. -/
def box (st : BitVec 2) (t : Option Transport) (req : List Byte) : State := { State.reset with ben := { Benus.start with
  running := true
  ready := true
  mbx := [(3, { mailbox0 with
    state := st
    owner := whoService
    transport := t
    classes := 0xFF
    fingerprint := 5
    request := req })]
  order := if st = mbQueued then [3] else []
  tls := [(2, some 5)] } }
def ask (code : Nat) (r : List Byte) : List Byte := reqOf code r
def cancelAsk : List Byte := reqOf 0xFFFF []
def boxIs (c : Instr) (s : State) (p : State → Mailbox → Bool) : Bool := nextIs (exec c s) fun u => p u (u.mbx 3)
theorem test_doorbell : boxIs (.mbxDoorbell 3 (.pcie 0) true (ask 5 [])) (box mbDone (some (.pcie 0)) []) (fun u b => b.state == mbQueued &&
    b.request == ask 5 [] && b.irqEn && u.ben.order == [3]) = true := by decide +kernel
theorem test_doorbell_busy : boxIs (.mbxDoorbell 3 .svc true (ask 5 [])) (box mbRunning (some .svc) (ask 1 [])) (fun _ b => b.overrun &&
    b.request == ask 1 [] && !b.irqEn) = true := by decide +kernel
theorem test_doorbell_unassigned : nextIs (exec (.mbxDoorbell 3 .svc true (ask 5 [])) (box mbIdle none [])) (fun u =>
    u.out == [.response 3 (responseBytes (ask 5 []) stIdentity 0 [])]) = true := by decide +kernel
theorem test_cancel : boxIs (.mbxCancel 3 .svc false 7) (box mbQueued (some .svc) (ask 5 [])) (fun u b => b.state == mbDone &&
    b.status == stCancelled && u.ben.order == []) = true := by decide +kernel
theorem test_cancel_pcie : boxIs (.mbxCancel 3 (.pcie 0) true 7) (box mbQueued (some (.pcie 0)) (ask 5 [])) (fun u b => b.state == mbDone &&
    u.out == [.msix 3]) = true := by decide +kernel
theorem test_svc_request : boxIs (.svcRequest 3 (ask 5 [])) (box mbIdle (some .svc) []) (fun _ b => b.state == mbQueued) = true := by
  decide +kernel
theorem test_svc_busy : nextIs (exec (.svcRequest 3 (ask 5 [])) (box mbRunning (some .svc) (ask 1 []))) (fun u =>
    u.out == [.response 3 (responseBytes (ask 5 []) stBusy 0 [])]) = true := by decide +kernel
theorem test_mgt_request : boxIs (.mgtRequest 2 cancelAsk) (box mbIdle (some (.mgt 0)) []) (fun _ b => b.overrun) = true := by decide +kernel
theorem test_tls_open : nextIs (exec (.tlsSessionOpen 4 5) (box mbIdle (some (.mgt 0)) [])) (fun u => Map.get none u.ben.tls 4 == some 5) = true := by
  decide +kernel
theorem test_tls_idle : nextIs (exec (.tlsIdleTimeout 2) (box mbIdle (some (.mgt 0)) [])) (fun u => u.ben.tls == []) = true := by
  decide +kernel
theorem meets_MailboxesTakeRequests : ((box mbDone (some .svc) []).mbx 3).state = mbDone ∧ ((box mbQueued (some .svc) (ask 5 [])).mbx 3).tag = 7 ∧
    ((box mbQueued (some .svc) (ask 5 [])).mbx 3).newOwner = [] ∧ ((box mbRunning (some .svc) (ask 5 [])).mbx 3).tag = 7 ∧
    isCancel cancelAsk = true ∧ isCancel (ask 5 []) = false ∧ bytesAt cancelAsk 4 4 = 7 ∧
    sameTransport .svc (.pcie 0) = false ∧ (box mbIdle (some (.mgt 0)) []).mgtMbx 5 = some 3 ∧
    Map.get none (box mbIdle (some (.mgt 0)) []).ben.tls 2 = some 5 ∧ Map.get none (box mbIdle (some (.mgt 0)) []).ben.tls 4 = none ∧
    ((box mbDone (some .svc) []).mbx 3).owner = whoService ∧ ((box mbDone (some .mbx) []).mbx 3).transport ≠ some .svc := by decide +kernel

/-- Slot A of Benus's firmware, or of the channel firmware, holds an image that fails its check; a fabric port is connected. -/
def spoiled (k : Nat) : State := { State.reset with ben := { Benus.start with fw := [(k, { fw0 with imgA := [1] })] } }
def connected (s : State) : State := { s with hier := { s.hier with ports := [(0, { fabPort0 with up := true })] } }
theorem test_start_spoiled : nextIs (exec (.moduleStart ⟨[], []⟩ (some 9)) (spoiled 1)) (fun u => u == spoiled 1) = true := by decide +kernel
theorem test_start_spoiled_channel : nextIs (exec (.moduleStart ⟨[], []⟩ (some 9)) (spoiled 3)) (fun u => !u.ben.ready && u.ben.running &&
    u.plat.rails == 15) = true := by decide +kernel
theorem meets_BenusRuns_slots : (∀ k ∈ [1, 2, 3], State.reset.slotVerified k = true) ∧ (spoiled 1).slotVerified 1 = false ∧
    (spoiled 3).slotVerified 1 = true ∧ (spoiled 3).slotVerified 3 = false ∧ State.reset.exchanged = true ∧
    (connected State.reset).exchanged = false ∧ State.reset.ben.exchanging = false ∧ (spoiled 3).ben.exchanging = false := by decide +kernel
/-- The machine as it is delivered meets what a start asks for (14 R581). -/
theorem meets_BenusRuns_start : State.reset.ben.ready = false ∧ State.reset.plat.standbyOnly = false ∧ State.reset.plat.seqHold = false ∧
    State.reset.plat.flushed = none ∧ State.reset.parts = [] ∧ State.reset.ledger = [] ∧ State.reset.ben.config = [] ∧
    ∀ m : BitVec 5, (State.reset.mbx m).state ≠ mbRunning := by
  refine ⟨rfl, rfl, rfl, rfl, rfl, rfl, rfl, fun m => ?_⟩
  show mbIdle ≠ mbRunning
  decide
/-- Benus stands still in the middle of a command, whose journal entry there is or is not, with firmware on trial. -/
def stopped (j : Bool) (n : Nat) : State := { box mbRunning (some .svc) (ask 0x0707 []) with ben := { (box mbRunning (some .svc) (ask 0x0707 [])).ben with
  running := false
  journal := if j then [3] else []
  fw := [(1, { fw0 with
    trial := true
    trialFails := n })] } }
theorem test_restart : boxIs (.benusRestart false) (stopped true 0) (fun u b => u.ben.running && b.restarted && b.state == mbRunning) = true := by
  decide +kernel
theorem test_restart_interrupted : boxIs (.benusRestart false) (stopped false 0) (fun u b => u.ben.running && b.status == stInterrupted) = true := by
  decide +kernel
theorem test_restart_fails : nextIs (exec (.benusRestart true) (stopped true 1)) (fun u => !u.ben.running && (u.fwKind 1).trialFails == 2) = true := by
  decide +kernel
theorem meets_BenusRuns_restart : (stopped true 0).ben.running = false ∧ (stopped true 0).ben.ready = true ∧
    ((stopped false 0).mbx 3).state = mbRunning ∧ (3 : BitVec 5) ∈ (stopped true 0).ben.journal ∧ (3 : BitVec 5) ∉ (stopped false 0).ben.journal ∧
    ((stopped false 0).mbx 3).newOwner = [] ∧ ((stopped false 0).mbx 3).transport = some .svc ∧ ((stopped true 0).fwKind 1).trial = true ∧
    ((stopped true 0).fwKind 1).trialFails < 2 ∧ 2 ≤ ((stopped true 2).fwKind 1).trialFails := by decide +kernel
theorem meets_BenusRuns_others : ∀ m : BitVec 5, m ≠ 3 → ((stopped true 0).mbx m).state ≠ mbRunning := by decide +kernel

def logged : LogRec := { typ := 5, part := 255, lseq := 1, time := 9, cal := 0, modn := 0, body := [1, 2, 3, 4] }
def telling (h : Bool) : State := { box mbIdle (some .svc) [] with
  ben := { (box mbIdle (some .svc) []).ben with
    ram := [logged]
    tai := 77 }
  hier := { Hier.start with role := if h then 1 else 0 } }
theorem test_lockstep : nextIs (exec .benusLockstepMismatch (telling false)) (fun u => !u.ben.running && (u.source (platSource 0)).raw) = true := by
  decide +kernel
theorem test_flash : nextIs (exec .logFlashWrite (telling false)) (fun u => u.ben.flash == [logged] && u.ben.ram == []) = true := by
  decide +kernel
theorem test_log_hart : nextIs (exec (.logForward (some logged)) (telling true)) (fun u => u.ben.hartLog == [logged]) = true := by decide +kernel
theorem test_calendar_store : nextIs (exec .calendarStore (telling false)) (fun u => u.ben.calStored == 77) = true := by decide +kernel
theorem test_sensor : nextIs (exec (.sensorSample [{ id := 2, value := 1000, failed := false }]) (telling false)) (fun u =>
    (u.sensor 2).state == 1 && (u.sensor 2).value == 1000 && u.ben.ram.map (fun e => e.typ) == [5, 6]) = true := by decide +kernel
def upstream : State := { telling false with hier := { Hier.start with
  numbered := true
  modn := 5
  ports := [(0, { fabPort0 with
    up := true
    state := 2 })] } }
theorem meets_BenusRuns_log : logBytes ((telling false).ben.flash ++ (telling false).ben.ram) ≤ 2 ^ 29 ∧ (telling true).isHart = true ∧
    (telling false).ben.running = true ∧ (2 : BitVec 16).toNat < 0x10 ∧
    ((telling false).ben.flash ++ (telling false).ben.ram).find? (fun x => decide ((telling false).ben.forwarded < x.lseq)) = some logged := by
  decide +kernel
/-- A command that waits: one that may start, one of an unknown class, one whose length is wrong, one that its class or its
owner does not allow. -/
def waitsIn (req : List Byte) (cls : BitVec 16) : State := (box mbQueued (some .svc) req).modMbx 3 fun b => { b with classes := cls }
theorem test_command_start : boxIs (.commandStart 3) (waitsIn (ask 5 []) 0xFF) (fun u b => b.state == mbRunning && u.ben.journal == []) = true := by
  decide +kernel
theorem test_command_unknown : boxIs (.commandStart 3) (waitsIn (ask 0x0901 []) 0xFF) (fun _ b => b.state == mbDone && b.status == stUnknown) = true := by
  decide +kernel
theorem meets_BenusRuns_command : (waitsIn (ask 5 []) 0xFF).runningMbx.length < 8 ∧ (waitsIn (ask 5 []) 0xFF).heldBack 3 = false ∧
    (waitsIn (ask 5 []) 0xFF).checkRequest ((waitsIn (ask 5 []) 0xFF).mbx 3) = none ∧ ((waitsIn (ask 5 []) 0xFF).mbx 3).owner ≠ whoHart ∧
    (waitsIn (ask 0x0901 []) 0xFF).checkRequest ((waitsIn (ask 0x0901 []) 0xFF).mbx 3) = some (stUnknown, 0) ∧
    knownCmd 5 = true ∧ lenOk 5 0 [] = true ∧ ((waitsIn (ask 5 []) 0).mbx 3).classes.getLsbD (((waitsIn (ask 5 []) 0).mbx 3).cmd / 256) = false ∧
    whoMay 0x0703 ((waitsIn (ask 0x0703 [1, 0]) 0xFF).mbx 3) = false ∧ 2032 < ((waitsIn (natLe 2 5 ++ natLe 2 3000 ++ List.replicate 12 0) 0xFF).mbx 3).len := by
  decide +kernel

/-! ### Information commands -/

/-- Mailbox 3 runs an information command. -/
def informs (code : Nat) (r : List Byte) : State := runsIn { housed with
  ledger := [(6, { entry0 with
    state := ldInDoubt
    sid := 5
    part := 1 })]
  ben := { Benus.start with
    ram := [logged]
    tai := 77
    sensors := [(2, { value := 500, low := 400, high := 600, state := 0, seen := true })] }
  memErrs := [(0, (3, 1))] } code r
theorem test_identity : nextIs (exec (.modIdentity 3) (informs 1 [])) (fun u => (u.mbx 3).state == mbDone) = true := by decide +kernel
theorem test_sensor_read : reply (.sensorRead 3) (informs 2 [2, 0, 1, 0]) 0 0 [2, 0, 0, 0, 0xF4, 1, 0, 0, 0x90, 1, 0, 0, 0x58, 2, 0, 0]
    (fun _ => true) = true := by decide +kernel
theorem test_log_read : reply (.logRead 3) (informs 3 [0, 0, 0, 0, 0xFF, 0xFF, 0xFF, 0xFF, 0, 2, 0xFF, 0xFF]) 0 0
    ([1, 0, 0, 0, 2, 0, 0, 0] ++ logRecBytes logged) (fun _ => true) = true := by decide +kernel
theorem test_log_read_absent : reply (.logRead 3) (informs 3 [0, 0, 0, 0, 0xFF, 0xFF, 0xFF, 0xFF, 0, 2, 9, 0]) stNotFound 0 [] (fun _ => true) = true := by
  decide +kernel
theorem test_time_get : reply (.timeGet 3) (informs 5 []) 0 0 ([77, 0, 0, 0, 0, 0, 0, 0] ++ List.replicate 16 0) (fun _ => true) = true := by
  decide +kernel
theorem test_fw_status : nextIs (exec (.fwStatus 3) (informs 7 [])) (fun u => (u.mbx 3).response.length == 64 - 16 + 16) = true := by
  decide +kernel
theorem meets_InformationCommands : Runs (informs 1 []) 3 0x0001 [] ∧ Runs (informs 2 [2, 0, 1, 0]) 3 0x0002 [2, 0, 1, 0] ∧
    Runs (informs 2 [0x2F, 0, 1, 0]) 3 0x0002 [0x2F, 0, 1, 0] ∧ Runs (informs 3 (List.replicate 12 9)) 3 0x0003 (List.replicate 12 9) ∧
    Runs (informs 4 [5, 0, 0, 0]) 3 0x0004 [5, 0, 0, 0] ∧ Runs (informs 5 []) 3 0x0005 [] ∧ Runs (informs 6 []) 3 0x0006 [] ∧
    Runs (informs 7 []) 3 0x0007 [] :=
  ⟨runs_of (by decide +kernel), runs_of (by decide +kernel), runs_of (by decide +kernel), runs_of (by decide +kernel),
    runs_of (by decide +kernel), runs_of (by decide +kernel), runs_of (by decide +kernel), runs_of (by decide +kernel)⟩
theorem meets_InformationCommands_else : sensorUnit 0x2F = none ∧ (sensorUnit 2).isSome = true ∧ ((informs 2 [2, 0, 1, 0]).sensor 2).seen = true ∧
    (informs 3 []).hier.role ≠ 1 ∧ (informs 3 []).hier.role ≠ 2 ∧ ((informs 4 []).mbx 3).owner ≠ whoSupervisor ∧
    (informs 4 []).partOfSid 5 = some 1 := by decide +kernel
theorem test_log_up : nextIs (exec (.logForward none) upstream) (fun u => u.out == [.log logged] && u.ben.forwarded == 1) = true := by
  decide +kernel
theorem meets_BenusRuns_up : upstream.isHart = false ∧ upstream.upstreamPort.isSome = true ∧ upstream.ben.running = true := by decide +kernel

/-! ### Partition commands -/

/-- A boot image for partition 2: one 2 MiB page at 0 with R and X, and one word of code at ENTRY, 0x10 (14 R620). -/
def segment (addr : Nat) (ws : List TWord) : List Byte :=
  natLe 8 addr ++ natLe 4 ws.length ++ natLe 4 0 ++ (ws.map fun w => wordBytes w.data).flatten ++
    ((List.range (((ws.length + 1) / 2 + 3) / 4 * 4)).map fun i => ((ws.getD (2 * i) ⟨0, 0⟩).tag.setWidth 8 ||| ((ws.getD (2 * i + 1) ⟨0, 0⟩).tag.setWidth 8 <<< 4)))
def bootParts : List Byte := List.replicate 28 0 ++ natLe 4 0x10 ++ List.replicate 224 0 ++ segment 0 [⟨Tag.sys, 0x17⟩, ⟨Tag.sys, 0⟩] ++
  segment 0x40 [⟨Tag.code, 1⟩]
def createReq : List Byte := [2, 0, 1, 0, 2, 0, 0, 0, 4, 0, 0, 0, 1, 0, 0, 0, 0xFF, 0xFF, 5, 0, 3, 0, 0, 0, 3, 0, 0, 0, 0, 0, 0, 0,
  0, 0, 0xFF, 0xFF, 0xFF, 0xFF, 0xFF, 0xFF, 9, 0, 0, 0, 0, 0, 0, 0, 0, 0, 0, 0, 0, 0, 0, 0, 5, 0]
def creating (img : List Byte) : State := runsIn { State.reset with
  mem := tables
  ben := { Benus.start with bootImages := [(2, img)] } } 0x0101 createReq
theorem test_create_no_image : reply (.partCreate 3) (creating []) stNotFound 0 [] (fun u => !(u.part 2).isLive) = true := by decide +kernel
/-- The placing of the first frame finds a free number, whatever the search begins at. -/
theorem settle_some (s : State) (q : Placing) (x : Frame) (c : CellId) (hq : s.framesHeld q.part < (s.part q.part).quota)
    (hc : s.ctxMap = []) : (s.settle q x c).isSome = true := by
  unfold State.settle
  rw [if_neg (by omega)]
  simp only [State.draw]
  generalize (Config.freeValue s.free).toNat % 2 ^ 20 = n
  by_cases h : BitVec.ofNat 20 n = 0#20
  · have h1 : ¬BitVec.ofNat 20 (n + 1) = 0#20 := by bv_omega
    simp [State.freeFrameFrom, h, h1, State.ctxEnt, ctxEnt0, hc]
  · simp [State.freeFrameFrom, h, State.ctxEnt, ctxEnt0, hc]
theorem meets_PartitionCommands_create : Runs (creating bootParts) 3 0x0101 createReq ∧ Runs (creating []) 3 0x0101 createReq ∧
    ((creating bootParts).part 2).isLive = false ∧ recordCells createReq = [5] ∧ (creating bootParts).cellFree 5 = true ∧
    (creating []).makePart 2 createReq = .error stNotFound ∧ ∃ ctx y, (creating bootParts).makePart 2 createReq = .ok (ctx, y) := by
  refine ⟨runs_of (by decide +kernel), runs_of (by decide +kernel), by decide +kernel, by decide, by decide +kernel, ?_, ?_⟩
  · have h : (match (creating []).prepPart 2 createReq with
      | .ok _ => 0
      | .error e => e) = stNotFound := by decide +kernel
    unfold State.makePart
    cases hp : (creating []).prepPart 2 createReq with
    | ok v => rw [hp] at h; cases h
    | error e => rw [hp] at h; simp only at h; rw [h]; rfl
  · have h : (match (creating bootParts).prepPart 2 createReq with
      | .ok v => decide (v.2.framesHeld 2 < (v.2.part 2).quota) && v.2.ctxMap == []
      | .error _ => false) = true := by decide +kernel
    unfold State.makePart
    cases hp : (creating bootParts).prepPart 2 createReq with
    | error e => rw [hp] at h; cases h
    | ok v =>
      rw [hp] at h
      simp only [Bool.and_eq_true, decide_eq_true_eq, beq_iff_eq] at h
      obtain ⟨en, z⟩ := v
      simp only [bind, Except.bind]
      split
      · exact ⟨_, _, rfl⟩
      · rename_i hn
        have k := settle_some z { part := 2, cls := clsThroughput, port := 0, pin := false, nomig := false, aff := 0
                                  ref := clusterOf ((recordCells createReq).headD 0) } { frame0 with
          sid := BitVec.ofNat 16 (bytesAt createReq 40 2)
          code := en
          persist := true } ((recordCells createReq).headD 0) h.1 h.2
        obtain ⟨⟨ctx, y⟩, hy⟩ := Option.isSome_iff_exists.1 k
        exact absurd hy (hn ctx y)

/-- Partition 1, on cell 0 with a Cellar of 1 MiB, and mailbox 3 with a command for it. -/
def owns : State :=
  let s := housed.setDescWord 1 8 1
  { s.setPart 1 { part0 with
      isLive := true
      cells := [0]
      cellar := 2050 } with
    slots := []
    ledger := []
    ben := { s.ben with blocks := [(2050, 1)] } }
def rules (code : Nat) (r : List Byte) : State := runsIn owns code r
theorem test_not_found : reply (.partQuiesce 3) (rules 0x0102 [7, 0]) stNotFound 0 [] (fun _ => true) = true := by decide +kernel
theorem test_quiesce : reply (.partQuiesce 3) (rules 0x0102 [1, 0]) 0 0 [] (fun u => (u.part 1).quiesced) = true := by decide +kernel
theorem meets_PartitionCommands_none : (rules 0x0102 [7, 0]).part 7 = part0 ∧ runs (rules 0x0102 [7, 0]) 0x0102 [7, 0] = true ∧
    runs (rules 0x0103 [7]) 0x0103 [7] = true ∧ runs (rules 0x0208 [7]) 0x0208 [7] = true := by decide +kernel
/-- A strand runs on the partition's cell. -/
def busyRules (code : Nat) (r : List Byte) : State := { rules code r with slots := [(0, strand false [])] }
theorem meets_PartitionCommands_quiesce : Runs (rules 0x0102 [1, 0]) 3 0x0102 [1, 0] ∧ Runs (busyRules 0x0102 [1, 0]) 3 0x0102 [1, 0] ∧
    ((rules 0x0102 [1, 0]).part 1).isLive = true ∧ (∀ c ∈ ((rules 0x0102 [1, 0]).part 1).cells, (rules 0x0102 [1, 0]).isDrained c = true) ∧
    (∃ c ∈ ((busyRules 0x0102 [1, 0]).part 1).cells, (busyRules 0x0102 [1, 0]).isDrained c = false) ∧
    ∀ c ∈ ((busyRules 0x0102 [1, 0]).part 1).cells, ∀ k a b d n, ((busyRules 0x0102 [1, 0]).slot c k).wait ≠ .work a b d n := by
  refine ⟨runs_of (by decide +kernel), runs_of (by decide +kernel), by decide +kernel, by decide +kernel, by decide +kernel, ?_⟩
  have h : ∀ c ∈ ((busyRules 0x0102 [1, 0]).part 1).cells, ∀ k ∈ allSlots, ((busyRules 0x0102 [1, 0]).slot c k).wait = .none := by decide +kernel
  intro c hc k a b d n
  have hk : k ∈ allSlots := by revert k; decide
  rw [h c hc k hk]
  exact Wait.noConfusion
def quiescent : State := (rules 0x0103 [1]).modPart 1 fun p => { p with quiesced := true }
theorem meets_PartitionCommands_destroy : Runs quiescent 3 0x0103 [1] ∧ (quiescent.part 1).isLive = true ∧ (quiescent.part 1).quiesced = true ∧
    (∀ c ∈ (quiescent.part 1).cells, quiescent.isDrained c = true) ∧ quiescent.hasOpenEntry 1 = false :=
  ⟨runs_of (by decide +kernel), by decide +kernel⟩

/-- Where no pair of the Pantry is valid, no page moves and no cluster holds a line, memory is plain. -/
theorem plainMem_of (s : State) (a n : Nat) (hm : s.moves = []) (hp : ∀ w, s.pantryOf w = none) (hc : ∀ g : BitVec 4, (s.cluster g).ways = [] ∧ (s.cluster g).porch = [])
    (ho : (List.range n).all (fun k => s.isOwn (s.ownWord (a + k))) = true) : s.plainMem a n := by
  intro k hk
  simp only [List.all_eq_true, List.mem_range] at ho
  refine ⟨ho k hk, by simp [State.redirect, hm], hp _, fun g => ?_⟩
  obtain ⟨h1, h2⟩ := hc g
  have fw : ∀ b, (s.cluster g).findWay b = none := by simp [Cluster.findWay, Cluster.way, h1, block0]
  constructor
  · simp [Cluster.dirtyData, Cluster.sectorAt, Cluster.porchOf, fw, h2, sector0]
  · simp [Cluster.holds, Cluster.sectorAt, Cluster.porchOf, fw, h2, sector0]

/-- The hypotheses of plainMem_of as one check. -/
def plainChk (s : State) (a n : Nat) : Bool :=
  s.moves == [] && (allClusters.all fun g => (List.range 4).all fun j => !bit (s.reg (pantryReg g j)) 31) &&
    decide (∀ g : BitVec 4, (s.cluster g).ways = [] ∧ (s.cluster g).porch = []) &&
    (List.range n).all fun k => s.isOwn (s.ownWord (a + k))
theorem plain_chk {s : State} {a n : Nat} (h : plainChk s a n = true) : s.plainMem a n := by
  simp only [plainChk, Bool.and_eq_true, decide_eq_true_eq, beq_iff_eq] at h
  exact plainMem_of s a n h.1.1.1 (no_pantry _ h.1.1.2) h.1.2 h.2
theorem test_cellar : reply (.partCellarSet 3) (rules 0x0104 [1, 0, 0, 0, 2, 0, 0, 0]) 0 0 [] (fun u => u.descWord 1 8 == 2 &&
    u.descWord 1 12 == 32256) = true := by decide +kernel
theorem meets_PartitionCommands_cellar : Runs (rules 0x0104 [1, 0, 0, 0, 2, 0, 0, 0]) 3 0x0104 [1, 0, 0, 0, 2, 0, 0, 0] ∧
    (rules 0x0104 [1, 0, 0, 0, 2, 0, 0, 0]).plainMem ((rules 0x0104 [1, 0, 0, 0, 2, 0, 0, 0]).cellarDesc 1) 64 ∧
    ((rules 0x0104 [1, 0, 0, 0, 2, 0, 0, 0]).resizeBlocks 2050 1 1).isSome = true ∧
    ((rules 0x0104 [1, 0, 0, 0, 2, 0, 0, 0]).part 1).cellar = 2050 ∧ ((rules 0x0104 [1, 0, 0, 0, 2, 0, 0, 0]).descWord 1 8).toNat = 1 ∧
    (2 * 2 ^ 20 - 32768) / 64 ≠ (rules 0x0104 [1, 0, 0, 0, 2, 0, 0, 0]).cellarPool 1 :=
  ⟨runs_of (by decide +kernel), plain_chk (by decide +kernel), by decide +kernel⟩

/-- A vector table of CODE words at 0x3400 of space 5; a persistent frame of the partition. -/
def governs (code : Nat) (r : List Byte) : State :=
  let s := shelved owns
  runsIn ({ stock s ((List.range 7).map fun k => (0x83401 + k, ⟨Tag.code, BitVec.ofNat 32 (0x100 + k)⟩)) with
    frames := [(1, { s.frame 1 with persist := true })] }) code r
theorem test_vectors : reply (.partVectorSet 3) (governs 0x0105 [1, 0, 5, 0, 0, 0x34, 0, 0]) 0 0 [] (fun u => u.reg (clcCell 0 0xB40) == 0x3400 &&
    u.esid 0 == 5 && Map.get 0 (u.cell 0).vectors 3 == 0x102) = true := by decide +kernel
theorem test_event_set : reply (.partEventSet 3) (rules 0x0106 [1, 6, 8, 0, 1, 0, 0, 0, 0, 0x38, 0, 0, 5, 0, 4, 0]) stState 0 [] (fun _ => true) = true := by
  decide +kernel
/-- The same vector table in a machine without a cell of the partition's but one, whose reads map nothing new. -/
theorem meets_PartitionCommands_vector_read : let s := governs 0x0105 [1, 0, 5, 0, 0, 0x34, 0, 0]
    (match (s.touches 5 0x3401 7).spaceReads 5 0x3401 7 with
      | .ok vs => vs.length == 7 && decide (s.touches 5 0x3401 7 = s) && vs.all fun v => decide (s.touches 5 v.data 4 = s)
      | .error _ => false) = true ∧ (s.part 1).cells = [0] := by decide +kernel
theorem meets_PartitionCommands_vector : Runs (governs 0x0105 [1, 0, 5, 0, 0, 0x34, 0, 0]) 3 0x0105 [1, 0, 5, 0, 0, 0x34, 0, 0] ∧
    (governs 0x0105 [1, 0, 5, 0, 0, 0x34, 0, 0]).sidFault 5 1 = none ∧ (governs 0x0105 [1, 0, 5, 0, 0, 0x34, 0, 0]).vectorsOk 5 0x3400 = true ∧
    ((governs 0x0105 [1, 0, 5, 0, 0, 0x34, 0, 0]).part 1).cells.Nodup ∧ ((governs 0x0105 [1, 0, 5, 0, 0, 0x34, 0, 0]).part 1).isLive = true :=
  ⟨runs_of (by decide +kernel), by decide +kernel⟩
def persists : State := (rules 0x0106 [1, 6, 8, 0, 1, 0, 0, 0, 0, 0x38, 0, 0, 5, 0, 4, 0]).modFrame 1 fun f => { f with persist := true }
theorem meets_PartitionCommands_event : Runs persists 3 0x0106 [1, 6, 8, 0, 1, 0, 0, 0, 0, 0x38, 0, 0, 5, 0, 4, 0] ∧
    persists.plainMem (persists.cellarDesc 1) 64 ∧ (persists.part 1).isLive = true ∧ persists.sidFault 5 1 = none ∧
    ctxModule 1 = persists.hier.modn ∧ (persists.frame 1).part = 1 ∧ (persists.frame 1).persist = true ∧ (persists.frame 1).state = stActive :=
  ⟨runs_of (by decide +kernel), plain_chk (by decide +kernel), by decide +kernel⟩


/-- SID 9 has no entry; SID 5 has one, and no frame, slice or queue of it stays. -/
def bindReq : List Byte := [9, 0, 1, 0, 0, 0, 0, 0] ++ natLe 8 0x4000 ++ natLe 8 0xFF
def bindsTo (code : Nat) (r : List Byte) : State := { rules code r with
  frames := []
  workqs := [] }
theorem test_bind : reply (.spaceBind 3) (rules 0x0107 bindReq) 0 0 [] (fun u => u.partOfSid 9 == some 1) = true := by decide +kernel
theorem test_unbind : reply (.spaceUnbind 3) (bindsTo 0x0108 [5, 0]) 0 0 [] (fun u => u.partOfSid 5 == none) = true := by decide +kernel
/-- A partition that spans module 7 too: the other modules are told, and BOUND clears once they have answered (08 R361). -/
def spans : State := (bindsTo 0x0108 [5, 0]).modPart 1 fun x => { x with span := [0, 7] }
def told2 : State := spans.modMbx 3 fun b => { b with progress := 1 }
theorem test_unbind_told : nextIs (exec (.spaceUnbind 3) spans) (fun u => (u.mbx 3).progress == 1 && u.out.contains (.notify 0x54 7) &&
    u.partOfSid 5 == some 1) = true := by decide +kernel
theorem test_unbind_after : nextIs (exec (.spaceUnbind 3) told2) (fun u => u.partOfSid 5 == none && (u.mbx 3).state == mbDone) = true := by
  decide +kernel
theorem meets_PartitionCommands_unbind : Runs spans 3 0x0108 [5, 0] ∧ Runs told2 3 0x0108 [5, 0] ∧ spans.hasPeers 1 = true ∧
    spans.partOfSid 5 = some 1 ∧ (spans.mbx 3).progress = 0 ∧ (told2.mbx 3).progress ≠ 0 ∧ spans.sidInUse 5 = false ∧
    (bindsTo 0x0108 [5, 0]).hasPeers 1 = false :=
  ⟨runs_of (by decide +kernel), runs_of (by decide +kernel), by decide +kernel⟩
theorem meets_PartitionCommands_spaces : Runs (rules 0x0107 bindReq) 3 0x0107 bindReq ∧ ((rules 0x0107 bindReq).part 1).isLive = true ∧
    (rules 0x0107 bindReq).spaceEntry 9 = none ∧ (rules 0x0107 bindReq).plainMem ((rules 0x0107 bindReq).spaceEntryAt 9) 16 ∧
    Runs (bindsTo 0x0108 [5, 0]) 3 0x0108 [5, 0] ∧ ((bindsTo 0x0108 [5, 0]).spaceEntry 5).isSome = true ∧
    (bindsTo 0x0108 [5, 0]).plainMem ((bindsTo 0x0108 [5, 0]).spaceEntryAt 5) 16 ∧ (bindsTo 0x0108 [5, 0]).sidInUse 5 = false :=
  ⟨runs_of (by decide +kernel), by decide +kernel, by decide +kernel, plain_chk (by decide +kernel), runs_of (by decide +kernel),
    by decide +kernel, plain_chk (by decide +kernel), by decide +kernel⟩

/-- The way mask of partition 1 in cluster 2; a pair of cluster 3 for its block 0. -/
def masked (code : Nat) (r : List Byte) : State := (rules code r).setReg (cchBase 3 + 0x104) 0x00FF
def shelfReq : List Byte := [3, 1, 1, 0, 0, 0, 0, 0] ++ natLe 8 0
theorem test_ways : reply (.cacheWaysSet 3) (rules 0x0109 [1, 2, 0xF0, 0]) 0 0 [] (fun u => u.reg (cchBase 2 + 0x104) == 0xF0) = true := by
  decide +kernel
theorem test_pantry : nextIs (exec (.pantrySet 3) (masked 0x010A shelfReq)) (fun u => u.reg (pantryReg 3 1) == 0x01000001 &&
    (u.pair4 3 1).mailbox == some 3 && (u.pair4 3 1).step == 2) = true := by decide +kernel
theorem meets_PartitionCommands_ways : Runs (rules 0x0109 [1, 2, 0xF0, 0]) 3 0x0109 [1, 2, 0xF0, 0] ∧
    (0x00F0 : BitVec 16) &&& ~~~((rules 0x0109 [1, 2, 0xF0, 0]).pantryWays 2) ≠ 0 := ⟨runs_of (by decide +kernel), by decide +kernel⟩
theorem meets_PartitionCommands_pantry : Runs (masked 0x010A shelfReq) 3 0x010A shelfReq ∧ ∃ l, ((masked 0x010A shelfReq).part 1).isLive = true ∧
    ((masked 0x010A shelfReq).pair4 3 1).mailbox ≠ some 3 ∧ (masked 0x010A shelfReq).stage2 1 0 = some l ∧
    l.modn = (masked 0x010A shelfReq).hier.modn ∧ l.dev = false ∧ bit ((masked 0x010A shelfReq).reg (pantryReg 3 1)) 31 = false ∧
    ((masked 0x010A shelfReq).pair4 3 1).step = 0 ∧ (masked 0x010A shelfReq).masksLeft 3 1 = true ∧
    ∀ (h : BitVec 4) (i : BitVec 2), (masked 0x010A shelfReq).pairBlock h i ≠ l.ma / 2 ^ 21 := by
  refine ⟨runs_of (by decide +kernel), ?_⟩
  have h : (match (masked 0x010A shelfReq).stage2 1 0 with
    | some l => l.modn == (masked 0x010A shelfReq).hier.modn && !l.dev &&
        decide (∀ (h : BitVec 4) (i : BitVec 2), (masked 0x010A shelfReq).pairBlock h i ≠ l.ma / 2 ^ 21)
    | none => false) = true := by decide +kernel
  cases hl : (masked 0x010A shelfReq).stage2 1 0 with
  | none => rw [hl] at h; cases h
  | some l =>
    rw [hl] at h
    simp only [Bool.and_eq_true, beq_iff_eq, Bool.not_eq_true', decide_eq_true_eq] at h
    exact ⟨l, by decide +kernel, by decide +kernel, rfl, h.1.1, h.1.2, by decide +kernel, by decide +kernel, by decide +kernel, h.2⟩
def clears : State := (rules 0x010B [3, 1]).setReg (pantryReg 3 1) 0x80000001
theorem test_clear_none : reply (.pantryClear 3) (rules 0x010B [3, 1]) stNotFound 0 [] (fun _ => true) = true := by decide +kernel
theorem meets_PartitionCommands_clear : Runs (rules 0x010B [3, 1]) 3 0x010B [3, 1] ∧ Runs clears 3 0x010B [3, 1] ∧
    bit ((rules 0x010B [3, 1]).reg (pantryReg 3 1)) 31 = false ∧ bit (clears.reg (pantryReg 3 1)) 31 = true ∧
    ((rules 0x010B [3, 1]).pair4 3 1).mailbox ≠ some 3 ∧ (clears.pair4 3 1).mailbox ≠ some 3 :=
  ⟨runs_of (by decide +kernel), runs_of (by decide +kernel), by decide +kernel⟩

/-- A pin set; a work queue not bound, bound and unused, and one that a flow names; a flow. -/
def queueReq (n : Byte) : List Byte := [1, 2, 5, 0] ++ natLe 4 0x3000 ++ natLe 4 4 ++ [n]
def flowReq (n : Byte) : List Byte := [9, 0, 1, 2] ++ natLe 4 7 ++ natLe 4 16 ++ [n]
def queues (code : Nat) (r : List Byte) : State := (rules code r).setWorkq 1 2 { workq0 with
  bound := true
  sid := 5 }
def flows (code : Nat) (r : List Byte) (n : Word) : State := (queues code r).setFlow 9 { flow0 with
  bound := true
  part := 1
  queue := 2
  nextSeq := n }
theorem test_pins : reply (.placePinSet 3) (rules 0x010C [1, 4, 0x33, 0]) 0 0 [] (fun u => Map.get none (u.part 1).pins 4 == some 0x33) = true := by
  decide +kernel
theorem test_queue : reply (.workqSet 3) (rules 0x010D (queueReq 0)) 0 0 [] (fun u => (u.workq 1 2).free == [0x3000, 0x3008, 0x3010, 0x3018]) = true := by
  decide +kernel
theorem test_queue_used : reply (.workqSet 3) (flows 0x010D (queueReq 1) 0) stState 0 [] (fun _ => true) = true := by decide +kernel
theorem test_flow : reply (.flowBind 3) (queues 0x010E (flowReq 0)) 0 0 [] (fun u => (u.flow 9).nextSeq == 7 && (u.flow 9).limit == 16) = true := by
  decide +kernel
theorem meets_PartitionCommands_queues : Runs (rules 0x010C [1, 4, 0x33, 0]) 3 0x010C [1, 4, 0x33, 0] ∧
    (Runs (rules 0x010D (queueReq 0)) 3 0x010D (queueReq 0) ∧ ((rules 0x010D (queueReq 0)).workq 1 2).parked = [] ∧
      ((rules 0x010D (queueReq 0)).workq 1 2).bound = false ∧ bytesAt (queueReq 0) 12 1 ≠ 1 ∧ (rules 0x010D (queueReq 0)).sidFault 5 1 = none) ∧
    (Runs (flows 0x010D (queueReq 1) 0) 3 0x010D (queueReq 1) ∧ ((flows 0x010D (queueReq 1) 0).workq 1 2).parked = [] ∧
      ((flows 0x010D (queueReq 1) 0).workq 1 2).bound = true ∧ (flows 0x010D (queueReq 1) 0).queueInUse 1 2 = true) ∧
    Runs (queues 0x010D (queueReq 1)) 3 0x010D (queueReq 1) ∧ ((queues 0x010D (queueReq 1)).workq 1 2).parked = [] ∧
    ((queues 0x010D (queueReq 1)).workq 1 2).bound = true ∧ (queues 0x010D (queueReq 1)).queueInUse 1 2 = false ∧
    bytesAt (queueReq 1) 12 1 = 1 :=
  ⟨runs_of (by decide +kernel), ⟨runs_of (by decide +kernel), by decide +kernel⟩, ⟨runs_of (by decide +kernel), by decide +kernel⟩,
    runs_of (by decide +kernel), by decide +kernel⟩
theorem meets_PartitionCommands_flows :
    (Runs (flows 0x010E (flowReq 0) 3) 3 0x010E (flowReq 0) ∧ ((flows 0x010E (flowReq 0) 3).flow 9).bound = true ∧
      ((flows 0x010E (flowReq 0) 3).flow 9).occupancy ≠ 0) ∧
    (Runs (queues 0x010E (flowReq 0)) 3 0x010E (flowReq 0) ∧ ((queues 0x010E (flowReq 0)).part 1).isLive = true ∧
      ((queues 0x010E (flowReq 0)).flow 9).bound = false ∧ bytesAt (flowReq 0) 12 1 ≠ 1 ∧ ((queues 0x010E (flowReq 0)).workq 1 2).bound = true) ∧
    Runs (flows 0x010E (flowReq 1) 0) 3 0x010E (flowReq 1) ∧ ((flows 0x010E (flowReq 1) 0).flow 9).bound = true ∧
    ((flows 0x010E (flowReq 1) 0).flow 9).occupancy = 0 ∧ ((flows 0x010E (flowReq 1) 0).flow 9).held = [] ∧
    (flows 0x010E (flowReq 1) 0).streamNames 9 = false ∧ bytesAt (flowReq 1) 12 1 = 1 :=
  ⟨⟨runs_of (by decide +kernel), by decide +kernel⟩, ⟨runs_of (by decide +kernel), by decide +kernel⟩, runs_of (by decide +kernel), by decide +kernel⟩

/-- Cell 0 leads cell 1, and the pair is split. -/
def splitTwin (busy : Bool) : State :=
  let s := ((if busy then busyRules 0x010F [1, 0, 0] else rules 0x010F [1, 0, 0]).modPart 1 fun p => { p with twin := true })
  (s.setReg (clcCell 0 0xF80) 0xA0000001).setReg (clcCell 1 0xF80) 0x20000000
theorem test_resync : reply (.twinResync 3) (splitTwin false) 0 0 [] (fun u => !bit (u.reg (clcCell 0 0xF80)) 29 &&
    !bit (u.reg (clcCell 1 0xF80)) 29 && !(u.cell 0).draining) = true := by decide +kernel
theorem meets_PartitionCommands_resync : ∀ j : Bool, Runs (splitTwin j) 3 0x010F [1, 0, 0] ∧ ((splitTwin j).part 1).isLive = true ∧
    ((splitTwin j).part 1).twin = true ∧ cellAt 0 0 ∈ ((splitTwin j).part 1).cells ∧ (splitTwin j).peerOf 0 = 1 ∧
    bit ((splitTwin j).reg (clcCell 0 0xF80)) 31 = true ∧ bit ((splitTwin j).reg (clcCell 0 0xF80)) 29 = true ∧
    (∀ k, ((splitTwin j).slot 0 k).wait = .none ∧ ((splitTwin j).slot 0 k).halted = none ∧ ((splitTwin j).slot 1 k).halted = none) ∧
    (splitTwin j).isDrained 0 = !j
  | false => ⟨runs_of (by decide +kernel), by decide +kernel⟩
  | true => ⟨runs_of (by decide +kernel), by decide +kernel⟩

/-! ### Commands of classes IO, FAULT, TIME and SYSTEM -/

/-- Subchannel 5 of port 1 bound, its program running or not. -/
def subReq (n : Byte) : List Byte := [5, 1, 5, 0, 7, 0, 0xFF, 0xFF, n]
def subbed (b r : Bool) (q : List Byte) : State := (rules 0x0201 q).modSub 1 5 fun u => { u with
  bound := b
  sid := 5
  part := 1
  prog := { u.prog with running := r } }
theorem test_sub_runs : reply (.chanSubSet 3) (subbed true true (subReq 0)) stState 0 [] (fun _ => true) = true := by decide +kernel
theorem test_sub_release : reply (.chanSubSet 3) (subbed true false (subReq 1)) 0 0 [] (fun u => !(u.sub 1 5).bound) = true := by decide +kernel
theorem test_sub_bind : reply (.chanSubSet 3) (subbed false false (subReq 0)) 0 0 [] (fun u => (u.sub 1 5).bound && (u.sub 1 5).lch == 7) = true := by
  decide +kernel
def badSub : List Byte := [5, 1, 6, 0, 7, 0, 0xFF, 0xFF, 0]
theorem meets_UnitCommands_sub : subPort 0x105 = 1 ∧ subIndex 0x105 = 5 ∧
    (Runs (subbed true true (subReq 0)) 3 0x0201 (subReq 0) ∧ ((subbed true true (subReq 0)).sub 1 5).bound = true ∧
      ((subbed true true (subReq 0)).sub 1 5).prog.running = true) ∧
    (Runs (subbed true false (subReq 1)) 3 0x0201 (subReq 1) ∧ ((subbed true false (subReq 1)).sub 1 5).bound = true ∧
      ((subbed true false (subReq 1)).sub 1 5).prog.running = false ∧ bytesAt (subReq 1) 8 1 = 1) ∧
    (Runs (subbed false false badSub) 3 0x0201 badSub ∧ (subbed false false badSub).partOfSid 6 = none) ∧
    Runs (subbed false false (subReq 0)) 3 0x0201 (subReq 0) ∧ ((subbed false false (subReq 0)).sub 1 5).bound = false ∧
    bytesAt (subReq 0) 6 1 = 0xFF ∧ bytesAt (subReq 0) 7 1 = 0xFF ∧ (subbed false false (subReq 0)).partOfSid 5 = some 1 :=
  ⟨by decide, by decide, ⟨runs_of (by decide +kernel), by decide +kernel⟩, ⟨runs_of (by decide +kernel), by decide +kernel⟩,
    ⟨runs_of (by decide +kernel), by decide +kernel⟩, runs_of (by decide +kernel), by decide +kernel⟩
theorem test_path : reply (.chanPathSet 3) (rules 0x0202 [1, 0, 3, 0, 8, 0, 0xFF, 0xFF, 9, 0]) 0 0 [] (fun u => (u.lch 1 3).alts == [8, 9]) = true := by
  decide +kernel
theorem meets_UnitCommands_path : Runs (rules 0x0202 [1, 0, 3, 0, 8, 0, 0xFF, 0xFF, 9, 0]) 3 0x0202 [1, 0, 3, 0, 8, 0, 0xFF, 0xFF, 9, 0] :=
  runs_of (by decide +kernel)

/-- Slice 2 of class SHA in a state, with a command or none. -/
def slicing (code : Nat) (q : List Byte) (st : BitVec 2) (c : List ECmd) : State := (rules code q).modEclass 2 fun e => { e with
  slices := [(2, { slice0 with
    state := st
    sid := 5
    part := 1
    depth := 4
    queue := c })] }
def sliceReq (depth n : Byte) : List Byte := [2, 2, 5, 0, depth, n, 3, 0]
def freeReq : List Byte := [2, 2, 5, 0, 4, 0, 3, 1]
theorem test_slice_release : reply (.engineSliceSet 3) (slicing 0x0203 freeReq slQuiesced []) 0 0 [] (fun u => u.slice 2 2 == slice0) = true := by
  decide +kernel
theorem test_slice_bind : reply (.engineSliceSet 3) (slicing 0x0203 (sliceReq 8 0) slUnbound []) 0 0 [] (fun u => (u.slice 2 2).depth == 8 &&
    (u.slice 2 2).share == 3) = true := by decide +kernel
theorem test_slice_deep : reply (.engineSliceSet 3) (slicing 0x0203 (sliceReq 8 17) slUnbound []) stResource 0 [] (fun _ => true) = true := by
  decide +kernel
theorem test_slice_quiesce : reply (.engineSliceQuiesce 3) (slicing 0x0204 [2, 2] slActive []) 0 0 [] (fun u => (u.slice 2 2).state == slQuiesced) = true := by
  decide +kernel
theorem test_slice_reset_active : reply (.engineSliceReset 3) (slicing 0x0206 [2, 2] slActive []) stState 0 [] (fun _ => true) = true := by decide +kernel
theorem meets_UnitCommands_slice_set :
    (Runs (slicing 0x0203 freeReq slQuiesced []) 3 0x0203 freeReq ∧ bytesAt freeReq 7 1 = 1 ∧ ((slicing 0x0203 freeReq slQuiesced []).slice 2 2).state = slQuiesced) ∧
    (Runs (slicing 0x0203 (sliceReq 8 0) slUnbound []) 3 0x0203 (sliceReq 8 0) ∧ (slicing 0x0203 (sliceReq 8 0) slUnbound []).partOfSid 5 = some 1 ∧
      (slicing 0x0203 (sliceReq 8 0) slUnbound []).otherDepths 2 2 + 8 ≤ 4096) ∧
    (Runs (slicing 0x0203 (sliceReq 8 0) slActive []) 3 0x0203 (sliceReq 8 0) ∧ (slicing 0x0203 (sliceReq 8 0) slActive []).partOfSid 5 = some 1 ∧
      ((slicing 0x0203 (sliceReq 8 0) slActive []).slice 2 2).sid = 5) ∧
    Runs (slicing 0x0203 (sliceReq 8 17) slUnbound []) 3 0x0203 (sliceReq 8 17) ∧
    4096 < (slicing 0x0203 (sliceReq 8 17) slUnbound []).otherDepths 2 2 + bytesAt (sliceReq 8 17) 4 2 :=
  ⟨⟨runs_of (by decide +kernel), by decide +kernel⟩, ⟨runs_of (by decide +kernel), by decide +kernel⟩,
    ⟨runs_of (by decide +kernel), by decide +kernel⟩, runs_of (by decide +kernel), by decide +kernel⟩
theorem meets_UnitCommands_slices : ([0x0204, 0x0205, 0x0206].all fun code =>
    runs (slicing code [2, 2] slUnbound []) code [2, 2] && runs (slicing code [2, 2] slActive []) code [2, 2] &&
      runs (slicing code [2, 2] slQuiesced []) code [2, 2] && runs (slicing code [2, 2] slActive [eCmd opSha256 3 32 0 0]) code [2, 2]) = true ∧
    ((slicing 0x0204 [2, 2] slActive []).slice 2 2).queue = [] ∧ ((slicing 0x0204 [2, 2] slActive [eCmd opSha256 3 32 0 0]).slice 2 2).queue ≠ [] ∧
    slActive ≠ slUnbound ∧ slQuiesced ≠ slUnbound ∧ slActive ≠ slQuiesced := by decide +kernel

/-- The notice of partition 1, its ledger quota, and the swap of a processor. -/
def noticeReq : List Byte := [5, 0, 4, 0, 1, 0, 0, 0, 2]
theorem test_notice : reply (.ledgerNoticeSet 3) (rules 0x0207 noticeReq) 0 0 [] (fun u => (u.part 1).notice == some (1, 5, 2, 4)) = true := by decide +kernel
theorem test_ledger_quota : reply (.ledgerQuotaSet 3) (rules 0x0208 [1, 0, 0, 0, 9, 0, 0, 0]) 0 0 [] (fun u => (u.part 1).ledgerQuota == 9) = true := by
  decide +kernel
def spares (j : Bool) : State := (rules 0x0209 [1]).modPort 1 fun p => { p with standbyOk := j }
theorem test_swap_none : reply (.cpSwap 3) (spares false) stState 0 [] (fun _ => true) = true := by decide +kernel
theorem test_swap : nextIs (exec (.cpSwap 3) (spares true)) (fun u => (u.port 1).switching && (u.port 1).swapMbx == some 3) = true := by decide +kernel
theorem meets_UnitCommands_quotas : Runs (rules 0x0207 noticeReq) 3 0x0207 noticeReq ∧ (rules 0x0207 noticeReq).partOfSid 5 = some 1 ∧
    ((rules 0x0207 noticeReq).part 1).noticeWait = [] ∧ Runs (rules 0x0208 [1, 0, 0, 0, 9, 0, 0, 0]) 3 0x0208 [1, 0, 0, 0, 9, 0, 0, 0] ∧
    Runs (spares false) 3 0x0209 [1] ∧ Runs (spares true) 3 0x0209 [1] ∧ ((spares true).port 1).swapMbx ≠ some 3 ∧
    ((spares true).port 1).switching = false ∧ ((spares true).port 1).testing = false ∧ ((spares true).port 1).standbyOk = true ∧
    ((spares false).port 1).standbyOk = false :=
  ⟨runs_of (by decide +kernel), by decide +kernel, by decide +kernel, runs_of (by decide +kernel), runs_of (by decide +kernel),
    runs_of (by decide +kernel), by decide +kernel⟩

/-- The reaction of a source, records that close, and the outputs that are armed again. -/
def reactReq : List Byte := [0x83, 4, 1, 1, 4, 2]
def recording (code : Nat) (q : List Byte) (l : List Stored) : State := { rules code q with col := { Collector.start with
  store := l
  benusFed := true
  collectorFed := true } }
def closing : Stored := { record1 with
  isOpen := true
  logged := true }
def sticking : Stored := { record1 with
  isOpen := true
  fr := { record1.fr with react := 0x10 } }
theorem test_react : reply (.faultReactSet 3) (rules 0x0301 reactReq) 0 0 [] (fun u => u.reg (srcCfgAt 1155) == 0x88200400) = true := by decide +kernel
theorem test_close_none : reply (.faultRecordClose 3) (recording 0x0302 [9, 0, 0, 0] []) stNotFound 0 [] (fun _ => true) = true := by decide +kernel
theorem test_close : reply (.faultRecordClose 3) (recording 0x0302 [9, 0, 0, 0] [closing]) 0 0 [] (fun u => u.col.store == []) = true := by decide +kernel
theorem test_rearm_sticks : reply (.faultAliveRearm 3) (recording 0x0303 [] [sticking]) stState 0 [] (fun _ => true) = true := by decide +kernel
theorem test_rearm : reply (.faultAliveRearm 3) (recording 0x0303 [] []) 0 0 [] (fun u => !u.col.armed && u.col.aliveA) = true := by decide +kernel
theorem meets_UnitCommands_faults : Runs (rules 0x0301 reactReq) 3 0x0301 reactReq ∧ ((rules 0x0301 reactReq).source 1155).asserted = false ∧
    Runs (recording 0x0302 [9, 0, 0, 0] []) 3 0x0302 [9, 0, 0, 0] ∧ Runs (recording 0x0302 [9, 0, 0, 0] [closing]) 3 0x0302 [9, 0, 0, 0] ∧
    closing.fr.recno = 9 ∧ (recording 0x0302 [9, 0, 0, 0] [closing]).reacting closing = false ∧
    Runs (recording 0x0303 [] [sticking]) 3 0x0303 [] ∧ Runs (recording 0x0303 [] []) 3 0x0303 [] ∧ sticking.isOpen = true ∧
    sticking.fr.react.getLsbD 4 = true ∧ (recording 0x0303 [] []).col.benusFed = true ∧ (recording 0x0303 [] []).col.collectorFed = true :=
  ⟨runs_of (by decide +kernel), by decide +kernel, runs_of (by decide +kernel), runs_of (by decide +kernel), by decide +kernel, by decide +kernel,
    runs_of (by decide +kernel), runs_of (by decide +kernel), by decide +kernel⟩

/-- The calendar, set by hand or by a reference. -/
def timeReq : List Byte := natLe 8 100 ++ natLe 4 5 ++ natLe 2 37
def dated (n : Byte) : State := { rules 0x0401 timeReq with ben := { (rules 0x0401 timeReq).ben with calSource := n } }
theorem test_time_locked : reply (.timeSet 3) (dated 2) stState 0 [] (fun _ => true) = true := by decide +kernel
theorem test_time_set : reply (.timeSet 3) (dated 0) 0 0 [] (fun u => u.ben.tai == 100 && u.ben.calValid && u.ben.utcOff == 37) = true := by decide +kernel
theorem meets_UnitCommands_time : Runs (dated 2) 3 0x0401 timeReq ∧ Runs (dated 0) 3 0x0401 timeReq ∧ (dated 2).ben.calSource = 2 ∧
    (dated 0).ben.calSource ≠ 2 := ⟨runs_of (by decide +kernel), runs_of (by decide +kernel), by decide +kernel⟩

/-- Mailbox 4 is idle or runs; mailbox 3 assigns it, or itself. -/
def assignReq (n : Byte) : List Byte := [n, 3, 0x7F, 2, 1, 0, 0, 0] ++ natLe 48 9
def assigns (n : Byte) (st : BitVec 2) : State := (rules 0x0701 (assignReq n)).setMbx 4 { mailbox0 with state := st }
theorem test_assign : reply (.mbxAssign 3) (assigns 4 mbIdle) 0 0 [] (fun u => (u.mbx 4).transport == some (.mgt 0) && (u.mbx 4).owner == 2 &&
    (u.mbx 4).fingerprint == 9) = true := by decide +kernel
theorem test_assign_busy : reply (.mbxAssign 3) (assigns 4 mbRunning) 0 0 [] (fun u => (u.mbx 4).newOwner == assignReq 4) = true := by decide +kernel
theorem test_assign_self : nextIs (exec (.mbxAssign 3) (assigns 3 mbIdle)) (fun u => (u.mbx 3).owner == 2 && (u.mbx 3).state == mbIdle) = true := by
  decide +kernel
theorem meets_UnitCommands_assign : Runs (assigns 4 mbIdle) 3 0x0701 (assignReq 4) ∧ ((assigns 4 mbIdle).mbx 4).state = mbIdle ∧
    Runs (assigns 4 mbRunning) 3 0x0701 (assignReq 4) ∧ ((assigns 4 mbRunning).mbx 4).state = mbRunning ∧
    Runs (assigns 3 mbIdle) 3 0x0701 (assignReq 3) :=
  ⟨runs_of (by decide +kernel), by decide +kernel, runs_of (by decide +kernel), by decide +kernel, runs_of (by decide +kernel)⟩

/-- A role that the neighbours confirm, that one does not, and that one has not answered. -/
def roleReq : List Byte := [1, 0, 65, 0, 0xFF, 0xFF]
def other : Ident := { system := 1, numbered := true, module := 9, port := 0, role := 0, gepoch := 0, sepoch := 0, holder := none }
def takesRole (l : Map FabPort) : State := { rules 0x0702 roleReq with hier := { Hier.start with ports := l } }
def mine : State := takesRole []
def theirs : State := takesRole [(0, { up := true, state := 0, peer := some other })]
def unheard : State := takesRole [(0, { up := true, state := 0, peer := none })]
theorem test_role : reply (.roleSet 3) mine 0 0 [] (fun u => u.hier.role == 1 && u.hier.modn == 65 && u.hier.numbered) = true := by decide +kernel
theorem test_role_other : reply (.roleSet 3) theirs stState 0 [] (fun u => u.hier == theirs.hier) = true := by decide +kernel
theorem test_role_waits : nextIs (exec (.roleSet 3) unheard) (fun u => u.hier.pendingRole.isSome && u.out == []) = true := by decide +kernel
theorem meets_UnitCommands_role : Runs mine 3 0x0702 roleReq ∧ Runs theirs 3 0x0702 roleReq ∧ Runs unheard 3 0x0702 roleReq ∧
    mine.confirms 1 65 = some true ∧ theirs.confirms 1 65 = some false ∧ unheard.confirms 1 65 = none ∧ mine.hier.pendingRole = none ∧
    theirs.hier.pendingRole = none ∧ unheard.hier.pendingRole = none :=
  ⟨runs_of (by decide +kernel), runs_of (by decide +kernel), runs_of (by decide +kernel), by decide +kernel⟩

/-- The partner, the configuration, the reset and the keys. -/
theorem test_partner : reply (.ledgerPair 3) (rules 0x0703 [1, 0]) 0 0 [] (fun u => u.hier.partner == some 1) = true := by decide +kernel
theorem test_config_none : reply (.modConfigSet 3) (rules 0x0704 [0, 0, 0, 0, 1, 0, 0, 0, 0]) stField 0 [] (fun _ => true) = true := by decide +kernel
theorem meets_UnitCommands_system : Runs (rules 0x0703 [0xFF, 0xFF]) 3 0x0703 [0xFF, 0xFF] ∧ Runs (rules 0x0703 [1, 0]) 3 0x0703 [1, 0] ∧
    (rules 0x0703 [1, 0]).hier.modn = 0 ∧ isConfig 0 = false ∧ isConfig (fclBase + 0x80) = true ∧ oneValue (fclBase + 0x80) = false ∧
    Runs (rules 0x0704 [0, 0, 0, 0, 1, 0, 0, 0, 0]) 3 0x0704 [0, 0, 0, 0, 1, 0, 0, 0, 0] ∧
    Runs (rules 0x0704 (natLe 4 (fclBase + 0x80) ++ [1, 0, 0, 0, 0])) 3 0x0704 (natLe 4 (fclBase + 0x80) ++ [1, 0, 0, 0, 0]) :=
  ⟨runs_of (by decide +kernel), runs_of (by decide +kernel), by decide +kernel, by decide +kernel, by decide +kernel, by decide +kernel,
    runs_of (by decide +kernel), runs_of (by decide +kernel)⟩
def guarded (n : BitVec 17) : State := { rules 0x0705 [] with plat := { (rules 0x0705 []).plat with protect := n } }
theorem test_reset_protected : reply (.modReset 3) (guarded 1) stState 0 [] (fun _ => true) = true := by decide +kernel
theorem test_boot_key : reply (.bootKeySet 3) (rules 0x0707 bootKey) 0 0 [] (fun u => u.ben.bootKey == bootKey) = true := by decide +kernel
theorem meets_UnitCommands_keys : Runs (guarded 1) 3 0x0705 [] ∧ (guarded 1).plat.protect ≠ 0 ∧ Runs (guarded 0) 3 0x0705 [] ∧
    (guarded 0).plat.protect = 0 ∧ Runs (rules 0x0706 []) 3 0x0706 [] ∧ (∀ n : BitVec 5, n ≠ 3 → ((rules 0x0706 []).mbx n).state ≠ mbRunning) ∧
    Runs (rules 0x0707 bootKey) 3 0x0707 bootKey :=
  ⟨runs_of (by decide +kernel), by decide +kernel, runs_of (by decide +kernel), by decide +kernel, runs_of (by decide +kernel),
    by decide +kernel, runs_of (by decide +kernel)⟩

/-! ### Debug and the TAP -/

/-- An authorisation with every grant, for every partition, over a strand of partition 1 that is halted or not. -/
def bugged (h : Option (Byte × BitVec 64)) : State := { owns with
  dbg := { Dbg.start with
    isOpen := true
    scope := 0xFF3F
    expiry := 1000000
    nonce := some (List.replicate 32 0, 0xFF3F, 0) }
  slots := [(0, { strand false [(3, TWord.int 7)] with halted := h })]
  clusters := [(0, { cluster0 with trace := [[1, 2, 3, 4]] })] }
def locked : State := { bugged none with dbg := Dbg.start }
def narrow : State := { bugged none with dbg := { (bugged none).dbg with scope := 0x093F } }
def req (tap : Bool) (flags : Byte) (sid : BitVec 16) (addr : BitVec 64) (data : Word) (u : Byte) : DbgReq :=
  { tap := tap, flags := flags, tag := 9, sid := sid, cell := 0, slot := 0, targetLow := 0, addr := addr, data := data, dtag := 1, unit := u }
/-- A request was answered, over the transport or for the TAP, with a status, a word and an INFO. -/
def debugs (c : Instr) (s : State) (op st : Nat) (v : TWord) (i : Nat) (p : State → Bool) : Bool :=
  nextIs (exec c s) fun u => u.out == [.debug (responseOf op 9 ⟨st, v, i⟩)] && p u
def z : DbgReq := req false 0 0 0 0 0
def anyState (_ : State) : Bool := true
theorem test_debug_locked : debugs (.halt z) locked opHalt 1 ⟨0, 0⟩ 0 anyState = true := by decide +kernel
theorem test_debug_scope : debugs (.halt z) narrow opHalt 2 ⟨0, 0⟩ 0 anyState = true := by decide +kernel
theorem test_debug_malformed : debugs (.breakpoint (req false 0 0 0 0 8)) (bugged none) opBreak 6 ⟨0, 0⟩ 0 anyState = true := by decide +kernel
theorem test_halt : debugs (.halt z) (bugged none) opHalt 0 ⟨0, 0⟩ 0 (fun u => (u.slot 0 0).halted == some (1, 0)) = true := by decide +kernel
theorem test_resume : debugs (.resume (req false 0 0 0 0 0)) { bugged none with slots := [] } opResume 0 ⟨0, 0⟩ 0 (fun u => (u.slot 0 0).halted.isNone) = true := by
  decide +kernel
theorem test_step_running : debugs (.step z) (bugged none) opStep 2 ⟨0, 0⟩ 0 anyState = true := by decide +kernel
theorem test_step_halted : debugs (.step z) (bugged (some (1, 5))) opStep 0 ⟨0, 0⟩ 0 (fun u => (u.slot 0 0).stepping == 1) = true := by decide +kernel
theorem test_break : debugs (.breakpoint (req false 0 5 0x1000 1 2)) (bugged none) opBreak 0 ⟨0, 0⟩ 0 (fun u =>
    Map.get none u.dbg.breaks 2 == some { sid := 5, addr := 0x1000, spec := 0 }) = true := by decide +kernel
theorem test_tbreak : debugs (.tbreak (req false 0x81 5 0x1000 0x10003 2)) (bugged none) opTbreak 0 ⟨0, 0⟩ 0 (fun u =>
    Map.get none u.dbg.tbreaks 2 == some { sid := 5, addr := 0x1000, spec := 0x40000003 }) = true := by decide +kernel
theorem test_watch : debugs (.watch (req false 0 5 0x1000 0x22 2)) (bugged none) opWatch 0 ⟨0, 0⟩ 0 (fun u =>
    Map.get none u.dbg.watches 2 == some { sid := 5, addr := 0x1000, spec := 0x22 }) = true := by decide +kernel
theorem test_regrd : debugs (.regrd (req false 0 0 0 0 3)) (bugged (some (1, 5))) opRegrd 0 (TWord.int 7) 0 anyState = true := by decide +kernel
theorem test_regwr : debugs (.regwr (req false 0 0 0 8 4)) (bugged (some (1, 5))) opRegwr 0 ⟨0, 0⟩ 0 (fun u => (u.slot 0 0).g 4 == ⟨1, 8⟩) = true := by
  decide +kernel
theorem test_memrd : debugs (.memrd (req false 0 0 0x50000000 0 0)) (bugged none) opMemrd 0 TWord.empty 0 anyState = true := by decide +kernel
theorem test_trace : debugs (.trace (req false 1 0 1 0 0)) (bugged none) opTrace 0 ⟨0, 0⟩ 0 (fun u => (u.frame 1).tracing) = true := by decide +kernel
theorem test_trcrd : debugs (.trcrd (req false 1 0 0 0 0)) (bugged none) opTrcrd 0 (TWord.int 0x04030201) 1 (fun u => (u.cluster 0).trace == []) = true := by
  decide +kernel
theorem test_status : debugs (.status z) (bugged (some (4, 5))) opStatus 0 (TWord.int 3) 4 anyState = true := by decide +kernel
theorem test_memwr_tap : nextIs (exec (.memwr (req true 0 0 0x50000000 8 0)) (bugged none)) (fun u => u.peek 0x14000000 == ⟨1, 8⟩ &&
    u.dbg.responses == [responseOf opMemwr 9 ⟨0, ⟨0, 0⟩, 0⟩]) = true := by decide +kernel

/-- Every operation of the request is authorised, well formed and in scope. -/
def mayDo (s : State) (q : DbgReq) (op : Nat) : Bool :=
  s.dbg.grants (if q.tap then 4 else 5) && s.dbg.grants (dbgGrant q op) && !dbgMalformed q op && s.inScope q op
theorem meets_DebugAccess_allowed : (((List.range 13).map (· + 1)).all fun op => mayDo (bugged none) z op && mayDo (bugged (some (1, 5))) z op &&
      mayDo (bugged none) (req true 1 0 0 0 0) op) = true ∧
    ((List.range 13).map (· + 1)).all (fun op => (bugged none).dbg.grants (dbgGrant z op) && dbgMalformed { z with targetLow := 1 } op &&
      !narrow.inScope z op && narrow.dbg.grants (dbgGrant z op)) = true ∧
    locked.dbg.isOpen = false ∧ (bugged none).twinned 0 = false ∧ ((bugged none).slot 0 0).halted = none ∧ ((bugged none).slot 0 0).state = .run ∧
    ((bugged none).slot 0 0).wait = .none ∧ ((bugged none).slot 0 0).iter = none ∧ ((bugged none).slot 0 0).dueMc = none ∧
    ((bugged none).slot 0 1).state = .idle ∧ mayDo (bugged none) { z with slot := 1 } opHalt = true ∧ mayDo (bugged none) { z with slot := 1 } opResume = true ∧
    (((bugged (some (1, 5))).slot 0 0).halted).isSome = true ∧ mayDo (bugged none) (req false 0 5 0x1000 1 2) opBreak = true ∧
    mayDo (bugged none) (req false 0x80 0 1 0 3) opTbreak = true ∧ mayDo (bugged none) (req false 0 5 0x1000 0x22 3) opWatch = true := by decide +kernel
theorem meets_DebugAccess_memory : (req false 0 0 0x50000000 0 0).addr.getLsbD 63 = false ∧ (req false 0 0 0x50000000 0 0).addr.toNat < 2 ^ 52 ∧
    (bugged none).isOwn 0x14000000 = true ∧ 2 ^ 30 ≤ localWord 0x14000000 * 4 ∧ contextMapAt + 2 ^ 22 ≤ localWord 0x14000000 * 4 ∧
    mayDo (bugged none) (req false 0 0 0x50000000 0 0) opMemrd = true ∧ mayDo (bugged none) (req false 0 0 0x50000000 0 0) opMemwr = true ∧
    (bugged none).dbgFrame (req false 1 0 1 0 0) = some 1 ∧ (bugged none).dbgFrame z = none ∧
    0 / 4 % 1024 < ((bugged none).cluster 0).trace.length := by decide +kernel

/-- The authorisation. An unlock over the nonce of 32 zeros, SCOPE 0xFF3F, KEYID 0 and 60 seconds, signed as the images above
are, passes with the public key of this signature where the serial text is zeros (both are free values of the model). -/
def unlockReq (scope k : Nat) : List Byte := natLe 2 scope ++ natLe 2 k ++ natLe 4 60
def unlockR : Nat := 0x8c55107b14b0a12d31b285e8ebf8deb7b30617a2978134e4b23154dbaf4a5659f6f951a8e756528f967c69d0934cf78d
def unlockKey : List Byte := [4] ++ natBe 48 0x373f8b815d547e35e1d2117c59a2b3894cb611250861f65e818b3bf54125381594dc676ea71a922ec1ec4044b765211c ++
  natBe 48 0x9fff4b3f07086d939ed7401a44fb60233b489aab88a62b17d26cb02323fdbd1153fe60587abae3bb3d1938ec62114775
theorem meets_DebugAccess_good (hi : Config.identity = []) (hk : Config.debugKey 0 = some unlockKey) :
    unlockOk (List.replicate 32 0) 0xFF3F 0 60 (natBe 48 unlockR ++ natBe 48 unlockR) = true := by
  have e : Ecdsa.verify Ecdsa.p384 (beNat ((unlockKey.drop 1).take 48)) (beNat ((unlockKey.drop 49).take 48))
      (Digest.sha384 (List.replicate 32 0 ++ sized 16 [] ++ natLe 2 0xFF3F ++ natLe 2 0 ++ natLe 4 60)) (natBe 48 unlockR ++ natBe 48 unlockR) = true := by
    decide +kernel
  simp only [unlockOk, hk, serialText, hi, List.drop_nil, e]
  rfl
/-- No key of KEYID 5 exists. -/
theorem meets_DebugAccess_refused (n sig : List Byte) : unlockOk n 0xFF3F 5 60 sig = false := by
  unfold unlockOk
  split
  · rfl
  · rfl
def unlocks (s : State) (code : Nat) (r : List Byte) : State := runsIn { s with now := 5 } code r
theorem meets_DebugAccess_auth : Runs (unlocks locked 0x0601 [0x3F, 0xFF]) 3 0x0601 [0x3F, 0xFF] ∧
    (Runs (unlocks (bugged none) 0x0602 (unlockReq 0xFF3F 5)) 3 0x0602 (unlockReq 0xFF3F 5) ∧
      (unlocks (bugged none) 0x0602 (unlockReq 0xFF3F 5)).dbg.nonce = some (List.replicate 32 0, 0xFF3F, 0)) ∧
    (Runs (unlocks (bugged none) 0x0603 []) 3 0x0603 [] ∧ (unlocks (bugged none) 0x0603 []).dbg.isOpen = true ∧
      ∀ e ∈ (unlocks (bugged none) 0x0603 []).slots, e.1 < 2048 ∧
        ((unlocks (bugged none) 0x0603 []).slot (BitVec.ofNat 8 (e.1 / 8)) (BitVec.ofNat 3 (e.1 % 8))) = e.2) ∧
    (bugged none).now < (bugged none).dbg.expiry ∧ { bugged none with now := 1000000 }.dbg.expiry ≤ { bugged none with now := 1000000 }.now :=
  ⟨runs_of (by decide +kernel), ⟨runs_of (by decide +kernel), by decide +kernel⟩, ⟨runs_of (by decide +kernel), by decide +kernel⟩, by decide +kernel⟩
theorem meets_DebugAccess_unlock (s : BitVec 16) (hs : s = 0xFF3F) : Runs (unlocks { locked with dbg := { Dbg.start with
      nonce := some (List.replicate 32 0, s, 0) } } 0x0602 (unlockReq 0xFF3F 0 ++ natBe 48 unlockR ++ natBe 48 unlockR)) 3 0x0602
      (unlockReq 0xFF3F 0 ++ natBe 48 unlockR ++ natBe 48 unlockR) := by
  subst hs
  exact runs_of (by decide +kernel)

/-- The TAP: the module held in reset with bit 2 of SCOPE, and not. -/
def pinned (j : Bool) : State := { bugged none with plat := { Plat.start with standbyOnly := j } }
theorem test_idcode : nextIs (exec .idcode (pinned false)) (fun u => u.out == [.tdo (bitsLe 32 0x2B9D0A6D)] && u.dbg.ir == 1) = true := by decide +kernel
theorem test_extest : nextIs (exec (.extest [true]) (pinned true)) (fun u => u.dbg.boundary == [true] && u.dbg.ir == 0) = true := by decide +kernel
theorem test_extest_idle : nextIs (exec (.extest [true]) (pinned false)) (fun u => u.dbg.boundary == []) = true := by decide +kernel
theorem test_preload : nextIs (exec (.samplePreload [true]) (pinned false)) (fun u => u.dbg.boundary == [true]) = true := by decide +kernel
theorem test_bypass : nextIs (exec (.bypass true) (pinned false)) (fun u => u.out == [.tdo [false]] && u.dbg.bypassBit) = true := by decide +kernel
theorem test_clamp : nextIs (exec .clamp (pinned true)) (fun u => u.out == [.tdo []]) = true ∧ nextIs (exec .highz (pinned false)) (fun u => u.out == []) = true := by
  decide +kernel
theorem test_dbgpkt : nextIs (exec (.dbgpkt (some 0x090D)) locked) (fun u => u.dbg.responses.length == 1) = true := by decide +kernel
theorem meets_DebugAccess_tap : (pinned true).plat.standbyOnly = true ∧ (pinned true).dbg.grants 2 = true ∧ (pinned false).plat.standbyOnly = false ∧
    locked.dbg.isOpen = false := by decide +kernel

/-! ### The module in its system, and system time -/

/-- Module 1 of group 0 in system 1, in a role, with the neighbour of port 0 (module 0) known or not. -/
def ident0 (m : BitVec 12) (g : Word) : Ident :=
  { system := 1, numbered := true, module := m, port := 0, role := 0, gepoch := g, sepoch := 0, holder := none }
def joined (role : BitVec 2) (st : BitVec 2) : State := { State.reset with
  hier := { Hier.start with
    system := 1
    numbered := true
    modn := 1
    role := role
    gepoch := 4
    sepoch := 2
    lease := true
    heartbeat := true
    standbyOf := if role = 3 then some 0 else none
    ports := [(0, { up := true, state := st, peer := none })] } }
theorem test_trained : nextIs (exec (.fabricLinkTrained 1 false) (joined 0 0)) (fun u => u.fab 1 == { up := true, state := 0, peer := none }) = true := by
  decide +kernel
theorem test_ident_send : nextIs (exec (.identSend 0) (joined 0 0)) (fun u => u.out == [.ident 0 { system := 1, numbered := true, module := 1
                                                                                                   port := 0, role := 0, gepoch := 4, sepoch := 2, holder := none }]) = true := by decide +kernel
theorem test_ident : nextIs (exec (.ident 0 (ident0 0 9)) (joined 0 0)) (fun u => (u.fab 0).state == 2 && u.hier.gepoch == 9 && u.hier.sepoch == 2) = true := by
  decide +kernel
theorem test_ident_wrong : nextIs (exec (.ident 0 (ident0 5 9)) (joined 0 0)) (fun u => (u.fab 0).state == 3 && (u.source (ledgerSource 11)).raw) = true := by
  decide +kernel
/-- Module 0, which is this module's mirror partner, was declared dead; an entry of it is resolved or not. -/
def buried (st : BitVec 4) : State := { joined 0 0 with
  copies := [{ entry0 with state := st }]
  hier := { (joined 0 0).hier with
    partner := some 0
    deadMods := [0]
    gone := [0] } }
theorem test_rejoin : nextIs (exec (.ident 0 (ident0 0 9)) (buried ldClosed)) (fun u => u.hier.deadMods == [] && u.copies == []) = true := by decide +kernel
theorem test_rejoin_waits : nextIs (exec (.ident 0 (ident0 0 9)) (buried ldInDoubt)) (fun u => u.hier.deadMods == [0] && u.hier.gone == [0]) = true := by
  decide +kernel
theorem meets_Hierarchy_rejoin : (ident0 0 9).module ∈ (buried ldClosed).hier.deadMods ∧ ((buried ldClosed).fab 0).state = 0 ∧
    (buried ldClosed).hier.role = 0 ∧ (∀ e ∈ (buried ldClosed).copies, e.state = ldClosed) ∧ (buried ldInDoubt).hier.partner = some 0 ∧
    (∃ e ∈ (buried ldInDoubt).copies, e.state ≠ ldClosed) ∧ (ident0 0 9).module ∉ (joined 0 0).hier.deadMods ∧
    (ident0 0 9).module ∉ (joined 0 0).hier.gone := by decide +kernel
theorem test_link_loss : nextIs (exec (.fabricLinkLoss 0) (joined 0 0)) (fun u => u.fab 0 == fabPort0 && (u.port 8).link == linkDown) = true := by decide +kernel
theorem test_delay : nextIs (exec (.linkDelayMeasure 0 (BitVec.ofInt 64 (-900))) (joined 0 2)) (fun u => u.hier.offset.toInt == -900 && u.hier.locked) = true := by
  decide +kernel
/-- A start that waits for the identity exchange on port 0 (01 R27 step 6). -/
def startsLater : State := { joined 0 0 with ben := { (joined 0 0).ben with
  running := true
  exchanging := true } }
theorem test_ident_starts : nextIs (exec (.ident 0 (ident0 0 9)) startsLater) (fun u => u.ben.ready && !u.ben.exchanging) = true := by decide +kernel
theorem test_loss_starts : nextIs (exec (.fabricLinkLoss 0) startsLater) (fun u => u.ben.ready && !u.ben.exchanging) = true := by decide +kernel
theorem meets_Hierarchy_start : (startsLater.fab 0).up = true ∧ startsLater.ben.exchanging = true ∧ startsLater.hier.pendingRole = none ∧
    (∀ k, k < 8 → k ≠ 0 → (startsLater.fab k).up = false) ∧ (joined 0 0).ben.exchanging = false := by decide +kernel
theorem meets_Hierarchy_ports : ((joined 0 0).fab 0).up = true ∧ (joined 0 0).hier.pendingRole = none ∧ (joined 0 0).hier.numbered = true ∧
    (ident0 0 9).system = (joined 0 0).hier.system ∧ (ident0 0 9).module = partnerOf (joined 0 0).hier.modn 0 ∧ ((joined 0 0).fab 0).state = 0 ∧
    (joined 0 0).hier.role = 0 ∧ (ident0 5 9).module ≠ partnerOf (joined 0 0).hier.modn 0 ∧ ((joined 0 0).port (fabLink 0)).link ≠ linkUp ∧
    (joined 0 2).upstreamPort = some 0 ∧ (joined 0 2).hier.role ≠ 2 := by decide +kernel

theorem test_decision_old : nextIs (exec (.hartDecision true 3 (.pair (some 7))) (joined 0 0)) (fun u => u.hier.partner == none) = true := by decide +kernel
theorem test_decision_pair : nextIs (exec (.hartDecision true 5 (.pair (some 7))) (joined 0 0)) (fun u => u.hier.partner == some 7 && u.hier.gepoch == 5) = true := by
  decide +kernel
/-- The group Hart issues the decision of its epoch while its lease runs (15 R634 to R637). -/
theorem test_decision_issued : nextIs (exec (.hartDecision true 4 (.pair (some 7))) (joined 1 0)) (fun u => u.hier.partner == some 7 &&
    u.out == [.decision true 4 (.pair (some 7))]) = true := by decide +kernel
def lapsed : State := { joined 1 0 with hier := { (joined 1 0).hier with lease := false } }
theorem test_decision_lapsed : nextIs (exec (.hartDecision true 4 (.pair (some 7))) lapsed) (fun u => u == lapsed) = true := by decide +kernel
theorem meets_Hierarchy_issues : (joined 1 0).hier.role = 1 ∧ (joined 1 0).hier.lease = true ∧ lapsed.hier.lease = false ∧
    lapsed.hier.heartbeat = true ∧ (7 : BitVec 12) ≠ (joined 1 0).hier.modn ∧ (7 : BitVec 12).toNat / 64 = (joined 1 0).hier.modn.toNat / 64 := by
  decide +kernel
theorem test_decision_time : nextIs (exec (.hartDecision false 2 (.time 40000)) (joined 0 0)) (fun u => u.hier.offset.toInt == 32767 && !u.hier.locked) = true := by
  decide +kernel
theorem test_decision_dead : nextIs (exec (.hartDecision true 4 (.dead 9)) (joined 0 0)) (fun u => u.hier.deadMods == [9]) = true := by decide +kernel
theorem test_hart_beat : nextIs (exec (.hartHeartbeat false) (joined 3 0)) (fun u => u.out == [.hart 1 0]) = true := by decide +kernel
theorem test_lease_end : nextIs (exec .hartLeaseEnd (joined 1 0)) (fun u => !u.hier.lease) = true := by decide +kernel
theorem test_declare_dead : nextIs (exec (.moduleDeadDeclare 9) (joined 1 0)) (fun u => u.hier.deadMods == [9] && u.out.contains (.decision true 4 (.dead 9))) = true := by
  decide +kernel
theorem test_takeover : nextIs (exec .standbyTakeover (joined 3 0)) (fun u => u.hier.role == (joined 3 0).standsFor && u.hier.gepoch == 5 &&
    u.out.contains (.hart 2 5)) = true := by decide +kernel
def placing1 : State := { joined 0 0 with parts := [(1, { part0 with
  isLive := true
  cells := [0] })] }
theorem meets_Hierarchy_decisions : (3 : Word) < (joined 0 0).hier.gepoch ∧ (joined 0 0).hier.gepoch ≤ 5 ∧ (joined 0 0).hier.sepoch ≤ 2 ∧
    (placing1.part 1).isLive = true ∧ placing1.hier.role = 0 ∧ (9 : BitVec 12) ∉ (joined 0 0).hier.deadMods ∧ (joined 3 0).hier.role = 3 ∧
    (joined 1 0).hier.role = 1 ∧ (joined 1 0).hier.lease = true ∧ (9 : BitVec 12).toNat / 64 = (joined 1 0).hier.modn.toNat / 64 ∧
    (9 : BitVec 12) ≠ (joined 1 0).hier.modn ∧ (joined 1 0).hier.heartbeat = true := by decide +kernel

/-- A system Hart whose time inputs are enabled, at 3 s, with the edges of the PPS input that came before. -/
def timing (os : List (BitVec 64)) : State := { (joined 2 0).setReg (clcBase 0 + 0xE40) 0x300 with
  now := 3000000000
  hier := { (joined 2 0).hier with ppsOffsets := os } }
theorem test_ptp : nextIs (exec (.ptpMessage true 1000000007 37) (timing [])) (fun u => u.ben.tai == 4 && u.ben.taiNs == 7 && u.ben.calSource == 2) = true := by
  decide +kernel
theorem test_pps : nextIs (exec (.ppsEdge 500) (timing [])) (fun u => u.hier.locked && u.hier.lastPps == 3000000000) = true := by decide +kernel
theorem test_pps_centre : nextIs (exec (.ppsEdge 200000) (timing (List.replicate 7 200500))) (fun u => u.hier.ppsCentre == 200000 && u.hier.ppsOffsets == []) = true := by
  decide +kernel
/-- A Hind with its PPS input enabled. -/
def hindPps : State := (joined 0 0).setReg (clcBase 0 + 0xE40) 0x300
theorem test_pps_hind : nextIs (exec (.ppsEdge 200000) hindPps) (fun u => (u.source (platSource 12)).raw && u.hier == hindPps.hier) = true := by decide +kernel
theorem meets_Hierarchy_hind_pps : hindPps.hier.role = 0 ∧ bit (hindPps.reg (clcBase 0 + 0xE40)) 8 = true ∧
    100000 < ((200000 : BitVec 64).toInt - hindPps.hier.ppsCentre.toInt).natAbs := by decide +kernel
theorem test_holdover : nextIs (exec .holdoverEntry (timing [])) (fun u => u.hier.holdover) = true := by decide +kernel
theorem test_pulse : nextIs (exec .ppsOutPulse (timing [])) (fun u => u.out == [.pps]) = true := by decide +kernel
def wrapping : State := ((((State.reset.setReg (pmcCell 0 + 0xC0) 1).setReg (pmcCell 0) 0x8005).setReg (pmcCell 0 + 0x40) 0xFFFFFFFF).setReg
  (pmcCell 0 + 0x44) 0xFFFF)
theorem test_pmc_wrap : nextIs (exec (.pmcWrap 0 0) wrapping) (fun u => u.reg64 (pmcCell 0 + 0x40) == 0 && u.reg (pmcCell 0 + 0xC0) == 3 &&
    u.reg (pmcCell 0 + 0xC4) == 1) = true := by decide +kernel
def dumping : State := { wrapping.setReg (pmcBase 0 + 0x2000) 10 with now := 1024000 }
theorem test_pmc_dump : nextIs (exec .pmcDump dumping) (fun u => u.reg (pmcBase 0 + 0x2004) == 1 && u.reg64 (pmcBase 0 + 0x1000) == 2 ^ 48 - 1 &&
    u.reg (pmcBase 1 + 0x2004) == 0) = true := by decide +kernel
theorem meets_Hierarchy_time : bit ((timing []).reg (clcBase 0 + 0xE40)) 9 = true ∧ bit ((timing []).reg (clcBase 0 + 0xE40)) 8 = true ∧
    (timing []).hier.role = 2 ∧ ((500 : BitVec 64).toInt - (timing []).hier.ppsCentre.toInt).natAbs ≤ 100000 ∧
    100000 < ((200000 : BitVec 64).toInt - (timing []).hier.ppsCentre.toInt).natAbs ∧ (timing []).hier.ppsOffsets.length < 7 ∧
    (timing (List.replicate 7 200500)).hier.ppsOffsets.length = 7 ∧ within1us ((timing (List.replicate 7 200500)).hier.ppsOffsets ++ [200000]) = true ∧
    (timing []).hier.holdover = false ∧ (timing []).hier.ptpMaster = false ∧ 2000000000 ≤ ((timing []).now - (timing []).hier.lastPps).toNat ∧
    (timing []).now.toNat % 1000000000 = 0 ∧ bit (wrapping.reg (pmcCell 0 + 0xC0)) 0 = true ∧ bit (wrapping.reg (pmcCell 0 + 0xC0)) 1 = false ∧
    field (wrapping.reg (pmcCell 0)) 7 0 ≠ 0 ∧ bit (wrapping.reg (pmcCell 0)) 14 = false ∧ wrapping.reg64 (pmcCell 0 + 0x40) = 2 ^ 48 - 1 ∧
    min 24 (dumping.regField (pmcBase 0 + 0x2000) 4 0) = 10 ∧ dumping.now.toNat % (2 ^ 10 * 1000) = 0 := by decide +kernel

/-! ### The platform -/

/-- Event input 1 of partition 1: EDGE rising, its debounce and stuck times the shortest. -/
def input (x : EvtIn) (cfg : Word) : State := { ((housed.modPart 1 fun p => { p with isLive := true }).setReg (evtCfgAt 1) cfg).setDescWord 1 24 1 with
  now := 5000000
  plat := { Plat.start with evts := [(1, x)] } }
def rose : EvtIn := { evtIn0 with raw := true }
def spaced (n : BitVec 16) : EvtIn := { evtIn0 with
  raw := true
  spacing := true
  coalesced := n }
def cfgOn : Word := 0x80000081
theorem test_evt_change : nextIs (exec (.evtInChange 1 true) (input evtIn0 cfgOn)) (fun u => (u.evt 1).raw && (u.evt 1).since == 5000000) = true := by decide +kernel
theorem test_evt_accept : nextIs (exec (.evtInAccept 1) (input rose cfgOn)) (fun u => (u.evt 1).level && (u.evt 1).spacing &&
    u.retained.map (fun r => (r.tok.ctx, r.tok.val)) == [(1, ⟨Tag.user1, 0x81⟩)]) = true := by decide +kernel
theorem test_evt_coalesce : nextIs (exec (.evtInAccept 1) (input (spaced 3) cfgOn)) (fun u => (u.evt 1).coalesced == 4 && u.retained == []) = true := by
  decide +kernel
theorem test_coalesce_end : nextIs (exec (.evtCoalesceEnd 1) (input (spaced 0) cfgOn)) (fun u => !(u.evt 1).spacing) = true := by decide +kernel
def lasting : EvtIn := { evtIn0 with level := true }
theorem test_evt_stuck : nextIs (exec (.evtStuck 1) (input lasting cfgOn)) (fun u => (u.evt 1).stuck && (u.source (platSource 11)).raw) = true := by decide +kernel
theorem meets_Platform_inputs : (input evtIn0 cfgOn).evt 1 = evtIn0 ∧ evtIn0.raw ≠ true ∧ rose.raw ≠ rose.level ∧
    (input rose cfgOn).debounceNs 1 ≤ ((input rose cfgOn).now - rose.since).toNat ∧ rose.stuck = false ∧ rose.rearmDue = false ∧
    (input rose cfgOn).regField (evtCfgAt 1) 30 29 = 0 ∧ bit cfgOn 31 = true ∧ bit cfgOn 7 = true ∧ bit ((input rose 0).reg (evtCfgAt 1)) 31 = false ∧
    bit ((input rose 0x80000001).reg (evtCfgAt 1)) 7 = false ∧ ((input rose cfgOn).part 1).isLive = true ∧ isNullCtx ((input rose cfgOn).eventCtx 1) = false ∧
    rose.spacing = false ∧ rose.coalesced = 0 ∧ rose.stuckDue = false ∧ (spaced 3).spacing = true ∧ (spaced 3).coalesced ≠ 0 ∧ (spaced 0).coalesced = 0 := by
  decide +kernel
theorem meets_Platform_stuck : ∃ t, (input lasting cfgOn).stuckNs 1 = some t ∧ lasting.level = true ∧ lasting.stuck = false ∧
    t < ((input lasting cfgOn).now - lasting.risen).toNat :=
  ⟨1000, by decide +kernel⟩

/-- The outputs, the feeds, the rails and the rest. -/
def driving : State := { State.reset with
  plat := { Plat.start with rails := 1 }
  col := { Collector.start with aliveA := true } }
theorem test_short : nextIs (exec (.outputShort 0) driving) (fun u => u.plat.shortOut == 1 && (u.source (platSource 10)).raw) = true := by decide +kernel
theorem test_open : nextIs (exec (.outputOpen 2) driving) (fun u => u.plat.openOut == 4) = true := by decide +kernel
theorem meets_Platform_outputs : driving.outputOn 0 = true ∧ driving.outputOn 2 = true := by decide +kernel
def feeds (a b : BitVec 2) : State := { State.reset with plat := { Plat.start with feeds := [(0, a), (1, b)] } }
def rails (r : BitVec 4) (hold : Bool) : State := { State.reset with plat := { Plat.start with
  rails := r
  seqHold := hold } }
theorem test_feed_loss : nextIs (exec (.feedLoss 0) (feeds 0 0)) (fun u => u.feed 0 == 1 && u.ben.ram.map (fun e => (e.typ, e.body)) == [(9, [0, 0])]) = true := by
  decide +kernel
theorem test_feed_over : nextIs (exec (.feedOvervoltage 0) (feeds 1 0)) (fun u => u.feed 0 == 2 && u.ben.ram == []) = true := by decide +kernel
theorem test_feed_return : nextIs (exec (.feedReturn 1) (feeds 0 2)) (fun u => u.feed 1 == 0 && u.ben.ram.map (fun e => (e.typ, e.body)) == [(9, [1, 1])]) = true := by
  decide +kernel
theorem test_short_retry : nextIs (exec (.outputShortRetry 1) { State.reset with plat := { Plat.start with shortOut := 7 } }) (fun u => u.plat.shortOut == 5) = true := by
  decide +kernel
theorem test_rail : nextIs (exec (.railStart 1) (rails 1 false)) (fun u => u.plat.rails == 3) = true := by decide +kernel
theorem test_sequence_retry : nextIs (exec .sequenceRetry (rails 1 true)) (fun u => !u.plat.seqHold) = true := by decide +kernel
theorem test_droop : nextIs (exec (.droopControl 3 1300) State.reset) (fun u => (u.cluster 3).cellMhz == 1300 && (u.cluster 2).cellMhz == 2400) = true := by
  decide +kernel
theorem test_fitted : nextIs (exec (.fittedModuleInsert true 2 16) State.reset) (fun u => Map.get 0 u.plat.cages 10 == 16) = true := by decide +kernel
theorem test_fitted_heavy : nextIs (exec (.fittedModuleInsert false 2 15) State.reset) (fun u => u.plat.cages == [] && u.out == [.notify 0x57 0x20F]) = true := by
  decide +kernel
theorem test_backup : nextIs (exec (.externalBackupChange true) State.reset) (fun u => u.ben.backup && u.plat.capSince == none) = true := by decide +kernel
theorem meets_Platform_rails : (feeds 0 0).feed 0 = 0 ∧ (feeds 1 0).feed 0 ≠ 0 ∧ (feeds 1 1).plat.flushed = none ∧ (rails 0 false).plat.rails = railsBelow 0 ∧
    (rails 7 false).plat.rails = railsBelow 3 ∧ (rails 1 false).plat.rails = railsBelow 1 ∧ (rails 1 false).plat.standbyOnly = false ∧
    (rails 1 false).plat.seqHold = false ∧ (rails 3 false).plat.rails = railsBelow 1 ||| railBit 1 ∧ (rails 3 false).ben.ready = false ∧
    (rails 1 true).plat.seqHold = true ∧ (rails 15 false).plat.rails.getLsbD 3 = true ∧ (rails 15 false).plat.rails.getLsbD 0 = true ∧
    (rails 0 false).plat.rails.getLsbD 0 = false ∧ (rails 1 false).dbg.isOpen = false ∧ (1200 : BitVec 16).toNat ≤ (2600 : BitVec 16).toNat := by decide +kernel
theorem meets_Platform_flushed : { feeds 0 1 with plat := { (feeds 0 1).plat with flushed := some 5 } }.plat.flushed = some 5 ∧ (feeds 0 1).feed 0 = 0 := by
  decide +kernel

/-! ### The system window -/

/-- CLC_ARITH_CTRL of cluster 0 (04 R183): a lock and a locked field of one bit, both clear. -/
def arith : BitVec 24 := 0xE00A00
theorem test_reg_write : nextIs (exec (.registerWrite (.strand 0) arith 0xFFFF0001) State.reset) (fun u => u.reg 0xE00A00 == 0x80000001) = true := by decide +kernel
theorem test_write_locked : nextIs (exec (.registerWrite .debug arith 1) (State.reset.setReg 0xE00A00 0x80000000)) (fun u => u.reg 0xE00A00 == 0x80000000) = true := by
  decide +kernel
theorem test_reg_lock : nextIs (exec (.lockWrite .debug arith 0x80000000) State.reset) (fun u => u.reg 0xE00A00 == 0x80000000) = true := by decide +kernel
theorem test_w1c : nextIs (exec (.w1cWrite (.strand 0) 0xF800C4 5) (State.reset.setReg 0xF800C4 7)) (fun u => u.reg 0xF800C4 == 2) = true := by decide +kernel
theorem test_other_cell : nextIs (exec (.w1cWrite (.strand 1) 0xF800C4 5) (State.reset.setReg 0xF800C4 7)) (fun u => u.reg 0xF800C4 == 7) = true := by decide +kernel
theorem test_frozen : nextIs (exec (.pmcFrozenRelease (.strand 0) 0xF800C0 3) (State.reset.setReg 0xF800C0 2)) (fun u => u.reg 0xF800C0 == 1) = true := by
  decide +kernel
theorem test_lo_hi : nextIs (exec (.registerWrite .debug 0xF00008 0x12345678) State.reset) (fun u => u.reg 0xF00008 == 0 &&
    nextIs (exec (.reg64HiWrite .debug 0xF0000C 0x12) u) fun x => x.reg64 0xF00008 == 0x1212300000) = true := by decide +kernel
theorem test_lo_read : nextIs (exec (.reg64LoRead .debug 0xF00008) (State.reset.setReg 0xF0000C 9)) (fun u => u.windowRead 0xF0000C == (9, { u with hiLatch := [] })) = true := by
  decide +kernel
theorem test_lfsr_zero : nextIs (exec (.lfsrWrite .debug 0xF10008 0x10000) State.reset) (fun u => u.reg 0xF10008 == 1) = true := by decide +kernel
theorem test_no_register : exec (.registerWrite .debug 0xE00004 1) State.reset = .refused (.deviceNotDescribed 0xE00004) := by rfl
/-- Cell 0 takes its vectors from space 5, at 0x3400: CODE words, or one that is not. -/
def vectored (t : Tag) : State := (stock (shelved owns) ((List.range 7).map fun k => (0x83401 + k, ⟨if k = 3 then t else Tag.code, BitVec.ofNat 32 (0x100 + k)⟩))).setReg
  (clcCell 0 0xB80) 5
theorem test_evec : nextIs (exec (.evecWrite .debug 0xE00B40 0x3400) (vectored Tag.code)) (fun u => Map.get 0 (u.cell 0).vectors 4 == 0x103) = true := by decide +kernel
theorem test_evec_tag : nextIs (exec (.evecWrite .debug 0xE00B40 0x3400) (vectored Tag.int)) (fun u => (u.cell 0).vectors == [] && u.reg 0xE00B40 == 0x3400) = true := by
  decide +kernel
theorem meets_RegisterCommands_plain : (regSpec 0xE00A00).isSome = true ∧ mayWrite (.strand 0) 0xE00A00 = true ∧ plainReg 0xE00A00 ∧ (specOf 0xE00A00).w1s ≠ 0 ∧
    (regSpec 0xF800C4).isSome = true ∧ plainReg 0xF800C4 ∧ (specOf 0xF800C4).w1c ≠ 0 ∧ mayWrite (.strand 1) 0xF800C4 = false ∧ plainReg 0xF800C0 ∧
    (pmcOwner 0xF800C0).isSome = true ∧ bit 3 1 = true ∧ isLo 0xF00008 = true ∧ (regSpec 0xF00008).isSome = true ∧ isHi 0xF0000C = true ∧
    (regSpec 0xF0000C).isSome = true ∧ isLfsr 0xF10008 = true ∧ (regSpec 0xF10008).isSome = true ∧ (0xE00B40 : Nat) = clcCell 0 0xB40 ∧
    (regSpec 0xE00B40).isSome = true ∧ regSpec 0xE00004 = none := by
  simp only [plainReg]
  decide +kernel
/-- The table and the handlers are mapped, so that reading them maps nothing. -/
theorem meets_RegisterCommands_mapped : let y := (vectored Tag.code).setReg 0xE00B40 0x3400
    decide (y.touches (y.esid 0) 0x3401 7 = y) = true ∧
    (match y.spaceReads (y.esid 0) 0x3401 7 with
      | .ok vs => vs.all fun x => x.tag == Tag.code && decide (y.touches (y.esid 0) x.data 4 = y)
      | .error _ => false) = true := by decide +kernel
/-- Benus sets the lock of FCL_PLAT_CTRL, and does not clear it (00 R16); a PCIe host writes MBX_CTRL and MBX_STAT (14 R597). -/
theorem test_plat_lock : nextIs (exec (.lockWrite .benus 0xF70080 0x80000000) State.reset) (fun u =>
    u.reg 0xF70080 == 0x80000000 && nextIs (exec (.registerWrite .benus 0xF70080 0) u) fun x => x.reg 0xF70080 == 0x80000000) = true := by
  decide +kernel
def hosted : State := State.reset.modMbx 3 fun b => { b with
  transport := some (.pcie 1)
  overrun := true }
theorem test_bar : nextIs (exec (.registerWrite (.pcie 1) 0x20030 4) hosted) (fun u => (u.mbx 3).irqEn && (u.mbx 3).overrun) = true ∧
    nextIs (exec (.w1cWrite (.pcie 1) 0x20034 8) hosted) (fun u => !(u.mbx 3).overrun) = true ∧
    nextIs (exec (.registerWrite (.pcie 0) 0x20030 4) hosted) (fun u => !(u.mbx 3).irqEn) = true := by decide +kernel
theorem meets_RegisterCommands_benus : (regSpec 0xF70080).map (fun r => bit r.busSet 31) = some true ∧ plainReg 0xF70080 ∧
    (hosted.mbx 3).transport = some (.pcie 1) ∧ (4 : Word) &&& 3 = 0 := by
  simp only [plainReg]
  decide +kernel
theorem meets_RegisterCommands_vectors : ([Tag.code, Tag.int].all fun t => match (vectored t).spaceReads ((vectored t).esid 0) (0x3400 + 1) 7 with
    | .ok vs => (vs.all fun x => x.tag == Tag.code) == (t == Tag.code)
    | .error _ => false) = true := by decide +kernel
/-- The perturbation block, open or closed (13 R570, R579). -/
def perturbed (j : Bool) : State := State.reset.setReg tstBase (if j then 1 else 0)
theorem test_inject : nextIs (exec (.tstInjWrite .debug 0x80000005) (perturbed true)) (fun u => u.reg (tstBase + 4) == 0x80000005) = true ∧
    nextIs (exec (.tstInjWrite .debug 0x80000005) (perturbed false)) (fun u => u.reg (tstBase + 4) == 0) = true := by decide +kernel
theorem test_lfsr_force : nextIs (exec (.tstLfsrForce .debug 2 0x40001234) (perturbed true)) (fun u => u.reg (cchBase 2 + 8) == 0x1234) = true := by decide +kernel
theorem test_lfsr_step : nextIs (exec (.tstLfsrStep .debug 2 0x80010000) (perturbed true)) (fun u => u.reg (dirBase 2 + 8) != 1) = true := by decide +kernel
theorem meets_RegisterCommands_open : (perturbed true).tstOpen = true ∧ (perturbed false).tstOpen = false ∧ bit 0x40001234 30 = true ∧
    field 0x40001234 15 0 ≠ 0 ∧ field 0x40001234 23 16 = 0 ∧ bit 0x80010000 30 = false ∧ field 0x80010000 23 16 ≠ 0 := by decide +kernel

/-! ### The rest: the queue, memory and a posted store -/

/-- A command at the front of a queue, an empty queue, and a write of memory through the debug transport. -/
def front (c : Instr) : State := { bugged none with pending := [c, .idcode] }
def memWrite : DbgReq := req true 0 0 0x50000000 8 0
theorem test_front : nextIs (step (front (.memwr memWrite))) (fun u => u.pending == [.idcode] && u.mem.any (fun e => e.1 == 0x14000000)) = true := by decide +kernel
theorem test_tick : nextIs (step { State.reset with ben := { Benus.start with taiNs := 999999999 } }) (fun u => u.now == 1 && u.ben.tai == 1 && u.ben.taiNs == 0) = true := by
  decide +kernel
theorem meets_FrontCommandRuns : (front (.memwr memWrite)).pending = .memwr memWrite :: [.idcode] := rfl
theorem meets_EmptyQueueTicks : State.reset.pending = [] ∧ (999999999 : Word) + 1 = 1000000000 := by decide
theorem meets_MemoryStaysCanonical : (front (.memwr memWrite)).memOk ∧ nextIs (step (front (.memwr memWrite))) (fun u => u.mem.length == (front (.memwr memWrite)).mem.length + 1) = true := by
  refine ⟨?_, by decide +kernel⟩
  unfold State.memOk
  decide +kernel
/-- A posted store of 6 to that register, whose one writable bit takes 0. -/
def postedCtrl : State := draining .side (0xE00A00 / 4) false true
theorem test_posted : nextIs (exec (.sideEffectStoreAck 0 4) postedCtrl) (fun u => (u.cell 0).stbuf == [] && u.reg 0xE00A00 == 0) = true := by decide +kernel
theorem meets_LoadsAndDrains_posted : ((postedCtrl.cell 0).stbuf.find? fun e => e.id == 4 && e.kind == .side) = some (entry .side (0xE00A00 / 4) false true) ∧
    windowAddr (0xE00A00 / 4) = 0xE00A00 := by decide +kernel
theorem meets_ArithmeticAtLimits : (3 : Word) ≠ 0 ∧ ((7 : Word) ≠ 0x80000000 ∨ (3 : Word) ≠ 0xFFFFFFFF) ∧ remS 7 3 ≠ 0 := by decide


end Sys2Proof.Tests
end

section
/-! The integer family (03 R122, R123, R125, R126): the typed combinations of ADD, SUB and the logic operations, the
comparisons, and the moves. The value layer says once what each shared operation answers for each kind of operands; the
instruction layer carries such an answer through an issue without PFX.TAG. -/

namespace Sys2Proof.Machine

/-! ### Values -/

/-- ADD's and SUB's accepted combinations (03 R122), with the tag that the result takes. -/
theorem addTyped_ok {a b : TWord} {k : Tag} (h : a.tag = Tag.int ∧ b.tag = Tag.int ∧ k = Tag.int ∨
    a.tag = Tag.ptr ∧ b.tag = Tag.int ∧ k = Tag.ptr ∨ a.tag = Tag.int ∧ b.tag = Tag.ptr ∧ k = Tag.ptr) :
    addTyped a b = .ok ⟨k, a.data + b.data⟩ := by
  obtain ⟨ha, hb, rfl⟩ | ⟨ha, hb, rfl⟩ | ⟨ha, hb, rfl⟩ := h <;> simp [addTyped, ha, hb, TWord.int]

theorem addTyped_error {a b : TWord} (h : ¬(a.tag = Tag.int ∧ b.tag = Tag.int ∨ a.tag = Tag.ptr ∧ b.tag = Tag.int ∨
    a.tag = Tag.int ∧ b.tag = Tag.ptr)) : addTyped a b = .error 0x01 := by
  obtain ⟨hint, hptr⟩ := not_or.1 h
  rw [addTyped, if_neg hint, if_neg hptr]

theorem subTyped_ok {a b : TWord} {k : Tag} (h : a.tag = Tag.int ∧ b.tag = Tag.int ∧ k = Tag.int ∨
    a.tag = Tag.ptr ∧ b.tag = Tag.int ∧ k = Tag.ptr ∨ a.tag = Tag.ptr ∧ b.tag = Tag.ptr ∧ k = Tag.int) :
    subTyped a b = .ok ⟨k, a.data - b.data⟩ := by
  obtain ⟨ha, hb, rfl⟩ | ⟨ha, hb, rfl⟩ | ⟨ha, hb, rfl⟩ := h <;> simp [subTyped, ha, hb, TWord.int]

theorem subTyped_error {a b : TWord} (h : ¬(a.tag = Tag.int ∧ b.tag = Tag.int ∨ a.tag = Tag.ptr ∧ b.tag = Tag.int ∨
    a.tag = Tag.ptr ∧ b.tag = Tag.ptr)) : subTyped a b = .error 0x01 := by
  obtain ⟨hint, hptrInt, hptr⟩ : ¬(a.tag = Tag.int ∧ b.tag = Tag.int) ∧ ¬(a.tag = Tag.ptr ∧ b.tag = Tag.int) ∧
      ¬(a.tag = Tag.ptr ∧ b.tag = Tag.ptr) := by simpa only [not_or] using h
  rw [subTyped, if_neg (not_or.2 ⟨hint, hptr⟩), if_neg hptrInt]

section
variable {op : Word → Word → Word} {a b : TWord}

theorem logicTyped_bool (ha : a.tag = Tag.bool) (hb : b.tag = Tag.bool) :
    logicTyped op a b = .ok ⟨Tag.bool, op a.data b.data⟩ := by
  simp [logicTyped, ha, hb]

theorem logicTyped_int (h : a.tag = Tag.int ∧ b.tag = Tag.int ∨ a.tag = Tag.int ∧ b.tag = Tag.bool ∨
    a.tag = Tag.bool ∧ b.tag = Tag.int) : logicTyped op a b = .ok ⟨Tag.int, op a.data b.data⟩ := by
  obtain ⟨ha, hb⟩ | ⟨ha, hb⟩ | ⟨ha, hb⟩ := h <;> simp [logicTyped, ha, hb, TWord.int]

theorem logicTyped_error (h : ¬((a.tag = Tag.int ∨ a.tag = Tag.bool) ∧ (b.tag = Tag.int ∨ b.tag = Tag.bool))) :
    logicTyped op a b = .error 0x01 := by
  refine if_pos ?_
  simpa only [Bool.or_eq_true, Bool.not_eq_true', Bool.or_eq_false_iff, beq_eq_false_iff_ne, not_and_or, not_or] using h

end

/-- The tags that a comparison accepts (03 R125): of order, and of equality. -/
def comparedTags (order : Bool) : List Tag :=
  if order then [Tag.int, Tag.ptr] else [Tag.int, Tag.bool, Tag.ptr, Tag.ctx, Tag.code]

section
variable {order : Bool} {cmp : Word → Word → Bool} {a b : TWord}

theorem compareOp_typed (ha : a.tag ≠ Tag.poison) (hb : b.tag ≠ Tag.poison) : compareOp false order cmp a b =
    if a.tag = b.tag ∧ a.tag ∈ comparedTags order then .ok (TWord.bool (cmp a.data b.data)) else .error 0x01 := by
  rw [compareOp, binary_typed ha hb]
  cases order <;> simp [comparedTags, or_assoc]

theorem compareOp_untyped (ha : a.tag ≠ Tag.poison) (hb : b.tag ≠ Tag.poison) :
    compareOp true order cmp a b = .ok (TWord.int (if cmp a.data b.data then 1 else 0)) := by
  rw [compareOp, binary_untyped ha hb]

end

/-- The immediate of layout LI (03 R110, R113). -/
theorem LongOp.imm_prefixed {x : LongOp} {hi : BitVec 21} {d a : Reg} {n : BitVec 11} (hx : x.body = .li d a n)
    (hp : preImm x.pre = some hi) : x.imm = hi ++ n := by
  simp [LongOp.imm, hx, immOf, hp]

theorem LongOp.imm_plain {x : LongOp} {d a : Reg} {n : BitVec 11} (hx : x.body = .li d a n)
    (hp : preImm x.pre = none) : x.imm = n.signExtend 32 := by
  simp [LongOp.imm, hx, immOf, hp]

theorem LongOp.imm_lr {x : LongOp} {d a b : Reg} {u : Bool} {rm : BitVec 3} {rsv : BitVec 2} (hx : x.body = .lr d a u rm rsv b) :
    x.imm = 0 := by
  simp [LongOp.imm, hx]

/-! ### Instructions without PFX.TAG -/

section
variable {s f : State} {i : Iss} {x : LongOp} {l : Layout} {uOk : Bool}

/-- A long operation that computes one value writes it as it is. -/
theorem State.aluLong_writes {g : Slot → TWord → TWord → Except Byte TWord} {v : TWord} (h : Issues s i x.len x.regs f)
    (hl : x.legal l uOk true = true) (hp : preTag x.pre = none)
    (hv : g (f.me i) ((f.me i).g x.a) (x.opB (f.me i)) = .ok v) :
    Completes (s.aluLong i x l uOk g) (Wrote f i x.len [(x.d, v)]) :=
  State.aluLong_ok h hl hv (tagged_none hp)

/-- Where no operand is POISON, the typed form of a two-operand operation writes what its rule for tags gives. -/
theorem State.aluLong_binary_writes {op : Word → Word → Word} {typed : TWord → TWord → Except Byte TWord} {v : TWord}
    (h : Issues s i x.len x.regs f) (hl : x.legal l uOk true = true) (hp : preTag x.pre = none) (hu : x.u = false)
    (ha : ((f.me i).g x.a).tag ≠ Tag.poison) (hb : (x.opB (f.me i)).tag ≠ Tag.poison)
    (hv : typed ((f.me i).g x.a) (x.opB (f.me i)) = .ok v) :
    Completes (s.aluLong i x l uOk fun _ a b => binary x.u op typed a b) (Wrote f i x.len [(x.d, v)]) := by
  rw [hu]
  exact State.aluLong_writes h hl hp ((binary_typed ha hb).trans hv)

theorem State.aluLong_binary_raises {op : Word → Word → Word} {typed : TWord → TWord → Except Byte TWord} {r : Byte}
    (h : Issues s i x.len x.regs f) (hl : x.legal l uOk true = true) (hu : x.u = false)
    (ha : ((f.me i).g x.a).tag ≠ Tag.poison) (hb : (x.opB (f.me i)).tag ≠ Tag.poison)
    (hv : typed ((f.me i).g x.a) (x.opB (f.me i)) = .error r) :
    Raises (s.aluLong i x l uOk fun _ a b => binary x.u op typed a b) f i (tagEv r) := by
  rw [hu]
  exact State.aluLong_error h hl ((binary_typed ha hb).trans hv)

/-- What a typed logic operation does with operands that are not POISON, for every pair of tags (03 R123). -/
theorem State.aluLong_logic (op : Word → Word → Word) (h : Issues s i x.len x.regs f) (hl : x.legal l uOk true = true)
    (hp : preTag x.pre = none) (hu : x.u = false) (ha : ((f.me i).g x.a).tag ≠ Tag.poison)
    (hb : (x.opB (f.me i)).tag ≠ Tag.poison) :
    let a := (f.me i).g x.a
    let b := x.opB (f.me i)
    let o := s.aluLong i x l uOk fun _ a b => logicV x.u op a b
    (a.tag = Tag.bool → b.tag = Tag.bool → Completes o (Wrote f i x.len [(x.d, ⟨Tag.bool, op a.data b.data⟩)])) ∧
    ((a.tag = Tag.int ∧ b.tag = Tag.int ∨ a.tag = Tag.int ∧ b.tag = Tag.bool ∨ a.tag = Tag.bool ∧ b.tag = Tag.int) →
      Completes o (Wrote f i x.len [(x.d, ⟨Tag.int, op a.data b.data⟩)])) ∧
    (¬((a.tag = Tag.int ∨ a.tag = Tag.bool) ∧ (b.tag = Tag.int ∨ b.tag = Tag.bool)) → Raises o f i (tagEv 0x01)) :=
  ⟨fun hta htb => State.aluLong_binary_writes h hl hp hu ha hb (logicTyped_bool hta htb),
    fun ht => State.aluLong_binary_writes h hl hp hu ha hb (logicTyped_int ht),
    fun ht => State.aluLong_binary_raises h hl hu ha hb (logicTyped_error ht)⟩

/-- What a comparison does with operands that are not POISON, for every pair of tags and in both forms (03 R99, R125). -/
theorem State.aluLong_compare {order : Bool} {cmp test : Word → Word → Bool} (hc : ∀ p q, cmp p q = test p q)
    (h : Issues s i x.len x.regs f) (hl : x.legal l uOk true = true) (hp : preTag x.pre = none)
    (ha : ((f.me i).g x.a).tag ≠ Tag.poison) (hb : (x.opB (f.me i)).tag ≠ Tag.poison) :
    let a := (f.me i).g x.a
    let b := x.opB (f.me i)
    let o := s.aluLong i x l uOk fun _ a b => compareOp x.u order cmp a b
    (x.u = false → a.tag = b.tag → a.tag ∈ comparedTags order →
      Completes o (Wrote f i x.len [(x.d, TWord.bool (test a.data b.data))])) ∧
    (x.u = false → ¬(a.tag = b.tag ∧ a.tag ∈ comparedTags order) → Raises o f i (tagEv 0x01)) ∧
    (x.u = true → Completes o (Wrote f i x.len [(x.d, TWord.int (if test a.data b.data then 1 else 0))])) := by
  obtain rfl : cmp = test := funext fun p => funext (hc p)
  refine ⟨fun hu hab ht => ?_, fun hu ht => ?_, fun hu => ?_⟩ <;> rw [hu]
  · exact State.aluLong_writes h hl hp ((compareOp_typed ha hb).trans (if_pos ⟨hab, ht⟩))
  · exact State.aluLong_error h hl ((compareOp_typed ha hb).trans (if_neg ht))
  · exact State.aluLong_writes h hl hp (compareOp_untyped ha hb)

/-- LI writes its immediate as INT (03 R126). -/
theorem execLi_writes (h : Issues s i x.len [x.d] f) (hl : x.legal .li false true = true) (hp : preTag x.pre = none) :
    Completes (execLi i x s) (Wrote f i x.len [(x.d, TWord.int x.imm)]) :=
  ⟨_, (State.issue_ok h hl rfl).trans (congrArg (Act.settle i.cell i.slot) (State.compute_ok rfl (tagged_none hp))),
    State.wrote_finish h.countersOff⟩

/-- SEL with a BOOL in D writes A of BOOL 1 and B of BOOL 0, whatever their tags (03 R95, R126). -/
theorem execSel_writes {p : Bool} (h : Issues s i x.len x.regs f) (hl : x.legal .both false true = true)
    (hp : preTag x.pre = none) (hd : (f.me i).g x.d = TWord.bool p) :
    Completes (execSel i x s)
      (Wrote f i x.len [(x.d, if p then (f.me i).g x.a else x.opB (f.me i))]) := by
  refine State.aluLong_writes h hl hp ?_
  cases p <;> simp [hd]

/-- SEL with anything else in D raises a tag event, 0x05 of POISON and 0x01 of other tags (03 R126). -/
theorem execSel_raises (h : Issues s i x.len x.regs f) (hl : x.legal .both false true = true)
    (hd : ((f.me i).g x.d).tag ≠ Tag.bool) :
    Raises (execSel i x s) f i (tagEv (if ((f.me i).g x.d).tag = Tag.poison then 0x05 else 0x01)) := by
  refine State.aluLong_error h hl ?_
  split <;> simp [*]

end

/-! ### The statements -/

/-- Settles O7: each operation's result follows from its rule for tags. -/
theorem typedCombinations : Obligations.TypedCombinations := by
  intro s f i x hl h hu hp t a b ha hb
  refine ⟨fun k hk => ?_, fun k hk => ?_, fun hk => ?_, fun hk => ?_, fun r hr => ?_⟩
  · exact State.aluLong_binary_writes h hl hp hu ha hb (addTyped_ok hk)
  · exact State.aluLong_binary_writes h hl hp hu ha hb (subTyped_ok hk)
  · exact State.aluLong_binary_raises h hl hu ha hb (addTyped_error hk)
  · exact State.aluLong_binary_raises h hl hu ha hb (subTyped_error hk)
  · simp only [List.mem_cons, List.not_mem_nil, or_false] at hr
    obtain rfl | rfl | rfl | rfl := hr
    · exact State.aluLong_logic (· &&& ·) h hl hp hu ha hb
    · exact State.aluLong_logic (· ||| ·) h hl hp hu ha hb
    · exact State.aluLong_logic (· ^^^ ·) h hl hp hu ha hb
    · exact State.aluLong_logic andnW h hl hp hu ha hb

/-- Settles O8: each comparison is `compareOp` of its accepted tags and its test. -/
theorem comparisons : Obligations.Comparisons := by
  intro s f i x hl h hp t a b ha hb equal order r hr
  simp only [List.mem_cons, List.not_mem_nil, or_false] at hr
  obtain rfl | rfl | rfl | rfl | rfl | rfl := hr
  · exact State.aluLong_compare (order := false) (fun _ _ => rfl) h hl hp ha hb
  · exact State.aluLong_compare (order := false) (fun p q => (decide_not (p := p = q)).symm) h hl hp ha hb
  · exact State.aluLong_compare (order := true) (fun _ _ => BitVec.slt_eq_decide) h hl hp ha hb
  · exact State.aluLong_compare (order := true) (fun _ _ => BitVec.sle_eq_decide) h hl hp ha hb
  · exact State.aluLong_compare (order := true) (fun _ _ => BitVec.ult_eq_decide) h hl hp ha hb
  · exact State.aluLong_compare (order := true) (fun _ _ => BitVec.ule_eq_decide) h hl hp ha hb

/-- Settles O9: LI by the word's layout and its PFX.IMM, SEL by the predicate in D, and the others as they stand. -/
theorem moves : Obligations.Moves := by
  intro s f i x hp t
  refine ⟨fun hl h => ?_, fun hl h => ⟨?_, ?_, ?_, ?_, ?_, ?_, ?_⟩⟩
  · have hli := execLi_writes h hl hp
    split
    next hpre hbody => rwa [LongOp.imm_prefixed hbody hpre] at hli
    next hpre hbody => rwa [LongOp.imm_plain hbody hpre] at hli
    next hbody => rwa [LongOp.imm_lr hbody] at hli
  · exact State.aluLong_writes (g := fun _ a _ => .ok a) h hl hp rfl
  · exact fun hd => execSel_writes h hl hp hd
  · exact fun hd => execSel_writes h hl hp hd
  · intro hd
    have hsel := execSel_raises h hl (hd ▸ Tag.bool_ne_poison.symm)
    rwa [if_pos hd] at hsel
  · intro hpoison hbool
    have hsel := execSel_raises h hl hbool
    rwa [if_neg hpoison] at hsel
  · exact State.aluLong_writes (g := fun t _ _ => .ok ⟨Tag.ctx, t.act.ctx⟩) h hl hp rfl
  · exact State.aluLong_writes (g := fun t _ _ => .ok (TWord.int (t.act.iter.setWidth 32))) h hl hp rfl

end Sys2Proof.Machine
end

section
/-! The arithmetic at its limits (04 R173 to R176, R196): the divider is the division of bit vectors wherever the divisor is
not zero, and the division rules follow from those of integers and naturals; the tables of fixed operands are evaluated. -/

namespace Sys2Proof.Machine

/-! ### The divider -/

section
variable {a b : Word}

/-- But for a divisor of zero, DIV is the signed division of bit vectors: the overflowing quotient is `BitVec.sdiv`'s own. -/
theorem divS_eq_sdiv (hb : b ≠ 0) : divS a b = a.sdiv b := by
  rw [divS, if_neg hb]
  split_ifs with overflow
  · obtain ⟨rfl, rfl⟩ := overflow
    decide
  · exact BitVec.toInt_inj.1 ((BitVec.toInt_ofInt _).trans (BitVec.toInt_sdiv a b).symm)

/-- REM is the signed remainder of bit vectors, whose value for a zero divisor is the dividend. -/
theorem remS_eq_srem : remS a b = a.srem b := by
  rw [remS]
  split_ifs with hb overflow
  · exact hb ▸ BitVec.srem_zero.symm
  · obtain ⟨rfl, rfl⟩ := overflow
    decide
  · rw [← BitVec.toInt_srem, BitVec.ofInt_toInt]

theorem divU_eq_udiv (hb : b ≠ 0) : divU a b = a / b := by
  rw [divU, if_neg hb, BitVec.udiv_def]

theorem remU_eq_umod : remU a b = a % b := by
  rw [remU]
  split_ifs with hb
  · exact hb ▸ BitVec.umod_zero.symm
  · exact BitVec.umod_def.symm

/-- DIV rounds toward zero wherever the quotient is a word (04 R174). -/
theorem toInt_divS (hb : b ≠ 0) (h : a ≠ wordMin ∨ b ≠ 0xFFFFFFFF) : (divS a b).toInt = a.toInt.tdiv b.toInt := by
  rw [divS_eq_sdiv hb]
  exact BitVec.toInt_sdiv_of_ne_or_ne a b h

@[simp] theorem toInt_remS : (remS a b).toInt = a.toInt.tmod b.toInt := by
  rw [remS_eq_srem, BitVec.toInt_srem]

theorem toNat_divU (hb : b ≠ 0) : (divU a b).toNat = a.toNat / b.toNat := by
  rw [divU_eq_udiv hb, BitVec.toNat_udiv]

@[simp] theorem toNat_remU : (remU a b).toNat = a.toNat % b.toNat := by
  rw [remU_eq_umod, BitVec.toNat_umod]

/-- Quotient and remainder make up the dividend, signed (04 R174). -/
theorem divS_mul_add_remS (hb : b ≠ 0) (h : a ≠ wordMin ∨ b ≠ 0xFFFFFFFF) :
    (divS a b).toInt * b.toInt + (remS a b).toInt = a.toInt := by
  rw [toInt_divS hb h, toInt_remS, Int.tdiv_mul_add_tmod]

theorem natAbs_remS_lt (hb : b ≠ 0) : (remS a b).toInt.natAbs < b.toInt.natAbs := by
  have hpos : b.toInt ≠ 0 := fun h => hb (BitVec.toInt_inj.1 h)
  rw [toInt_remS, Int.natAbs_tmod]
  exact Nat.mod_lt _ (Int.natAbs_pos.2 hpos)

/-- A remainder other than zero has the dividend's sign (04 R174). -/
theorem sign_remS (h : remS a b ≠ 0) : (remS a b).toInt.sign = a.toInt.sign := by
  have hdvd : ¬ b.toInt ∣ a.toInt := fun hd =>
    h (BitVec.toInt_inj.1 (toInt_remS.trans (Int.tmod_eq_zero_of_dvd hd)))
  rw [toInt_remS, Int.sign_tmod, if_neg hdvd]

theorem divU_mul_add_remU (hb : b ≠ 0) : (divU a b).toNat * b.toNat + (remU a b).toNat = a.toNat := by
  rw [toNat_divU hb, toNat_remU, Nat.div_add_mod']

theorem toNat_remU_lt (hb : b ≠ 0) : (remU a b).toNat < b.toNat := by
  rw [toNat_remU]
  exact Nat.mod_lt _ (Nat.pos_of_ne_zero fun h => hb (BitVec.eq_of_toNat_eq h))

/-! A divisor of zero (04 R174). -/

theorem divS_zero : divS a 0 = 0xFFFFFFFF := if_pos rfl

theorem divU_zero : divU a 0 = 0xFFFFFFFF := if_pos rfl

theorem remS_zero : remS a 0 = a := if_pos rfl

theorem remU_zero : remU a 0 = a := if_pos rfl

end

/-- The one quotient that is not a word (04 R174). -/
theorem divS_overflow : divS wordMin 0xFFFFFFFF = wordMin := by decide

theorem remS_overflow : remS wordMin 0xFFFFFFFF = 0 := by decide

/-! ### The statement -/

/-- Settles O13: the division rules for all operands by the lemmas above, the three tables by running the model. FADD's
is run by the kernel, which computes the powers of two that align binary64's largest operands. -/
theorem arithmeticAtLimits : Obligations.ArithmeticAtLimits := by
  refine ⟨fun a b => ⟨fun hb h => ?signed, fun hb => ?unsigned, divS_zero, divU_zero, remS_zero, remU_zero,
    divS_overflow, remS_overflow⟩, ?multiplier, ?divider, ?fadd⟩
  case signed => exact ⟨(divS_mul_add_remS hb h).symm, natAbs_remS_lt hb, sign_remS⟩
  case unsigned => exact ⟨(divU_mul_add_remU hb).symm, toNat_remU_lt hb⟩
  case multiplier => decide
  case divider => decide
  case fadd => decide +kernel

end Sys2Proof.Machine
end
